-- ==== Sys2Proof/Word.lean ====
section
/-! DEFINITION. The word types and the plainest containers: bytes and words, a sparse map from natural numbers in one
canonical form, and a list with one place rewritten. -/

namespace Sys2Proof

abbrev Byte := BitVec 8
abbrev Word := BitVec 32
abbrev DWord := BitVec 64

/-- A sparse map: key and value pairs, keys strictly rising, no value equal to the default. A key that is not listed has the
default value. The default is no part of the map: the reader and the writer of a key name it. -/
abbrev SMap (α : Type) := List (Nat × α)

namespace SMap

variable {α : Type}

/-- The value at key `k`, `d` where the key is not listed. -/
def get (d : α) (k : Nat) : SMap α → α
  | [] => d
  | (k', v) :: r => if k < k' then d else if k' = k then v else get d k r

/-- The list without its leading keys that are at most `k`. -/
def dropLe (k : Nat) : SMap α → SMap α
  | [] => []
  | (k', v) :: r => if k' ≤ k then dropLe k r else (k', v) :: r

/-- The map with value `v` at key `k`; the default value removes the entry. -/
def put [DecidableEq α] (d : α) (k : Nat) (v : α) : SMap α → SMap α
  | [] => if v = d then [] else [(k, v)]
  | (k', v') :: r =>
    if k < k' then (if v = d then (k', v') :: r else (k, v) :: (k', v') :: r)
    else if k' = k then (if v = d then dropLe k r else (k, v) :: dropLe k r)
    else (k', v') :: put d k v r

/-- The map with every key from `lo` up to, but not, `hi` at its default. -/
def clear (lo hi : Nat) (m : SMap α) : SMap α :=
  m.filter (fun e => !(decide (lo ≤ e.1) && decide (e.1 < hi)))

/-- The map with every key that `p` selects at its default. -/
def clearIf (p : Nat → Bool) (m : SMap α) : SMap α :=
  m.filter (fun e => !p e.1)

/-- The canonical form over a default that the key may choose. -/
abbrev wf (d : Nat → α) (m : SMap α) : Prop :=
  m.Pairwise (fun a b => a.1 < b.1) ∧ ∀ e ∈ m, e.2 ≠ d e.1

end SMap

/-- `n` at `k` of the list, the list unchanged where `k` is past its end. -/
def setAt {α : Type} (l : List α) (k : Nat) (v : α) : List α := l.set k v

/-- Bits `hi` down to `lo` of a natural number. -/
def bits (n hi lo : Nat) : Nat := (n / 2 ^ lo) % 2 ^ (hi + 1 - lo)

/-- Bit `k` of a natural number. -/
def bit (n k : Nat) : Bool := n / 2 ^ k % 2 = 1

/-- 1 for true. -/
def Bool.num (b : Bool) : Nat := if b then 1 else 0

end Sys2Proof
end

