-- ==== Sys2Proof/Syntax.lean ====
section
/-! DEFINITION. The commands the block takes, one constructor per row of the command table, with their operands, and the
operand types. -/

namespace Sys2Proof

/-- An entry of PART_TABLE (R377). -/
structure PartEnt where
  valid : Bool := false
  hostFn : Nat := 0
  keySlot : Nat := 0
  fabTag : Nat := 0
  barFirst : Nat := 0
  barCount : Nat := 0
  bcFirst : Nat := 0
  bcCount : Nat := 0
  deriving DecidableEq, Repr

/-- A window of WINDOWS, in GiB (R377). -/
structure WinEnt where
  base : Nat
  size : Nat
  write : Bool
  deriving DecidableEq, Repr

/-- An entry of DIE_SHARE (R377). -/
structure ShareEnt where
  die : Nat
  part : Nat
  share : Nat
  quotaSum : Nat
  pool : Nat
  deriving DecidableEq, Repr

/-- An out-port's route (R337): its bench, the destination, HSLOTS (1 to 64) and ALLOT (1 to 64). -/
structure RouteEnt where
  bench : Nat
  device : Nat
  dest : Nat
  hslots : Nat
  allot : Nat
  deriving DecidableEq, Repr

/-- A producer of an in-port's ring (R337): its device and bench, the first slot of its sub-ring, ALLOT and HSLOTS. -/
structure ProdEnt where
  device : Nat
  bench : Nat
  first : Nat
  allot : Nat
  hslots : Nat
  deriving DecidableEq, Repr

/-- An in-port's ring (R337). -/
structure RingEnt where
  bench : Nat
  first : Nat
  count : Nat
  prods : List ProdEnt
  deriving DecidableEq, Repr

/-- A directory entry of a walk table (R276). -/
structure DirEnt where
  level : Nat
  base : Nat
  len : Nat
  deriving DecidableEq, Repr

/-- A barrier group (R364, R377): its number, home die, N, SPANS and E. -/
structure GroupEnt where
  group : Nat
  home : Nat
  n : Nat
  spans : Bool
  e : Nat
  deriving DecidableEq, Repr

/-- A barrier context of a bench bound to a group (R377). -/
structure BindEnt where
  bench : Nat
  ctx : Nat
  group : Nat
  deriving DecidableEq, Repr

/-- The value of a record as R377 names its fields. The bytes are given for BENCH_MAP and BENCH_CFG alone, which are read from the
image itself (DESIGN CHOICE, assumption log 52). -/
inductive ImgVal where
  | partTable (es : List PartEnt)
  | benchMap
  | windows (ws : List WinEnt)
  | dieShare (es : List ShareEnt)
  | pkgExclude (links : List (Nat × Nat))
  | power (maxPoint : Nat) (p0 reheat : Bool) (share : Option Nat)
  | partParams (seed : DWord) (read write remote snapshot : Nat)
  | benchCfg
  | routes (outs : List RouteEnt) (rings : List RingEnt)
  | walk (benches : List Nat) (dir : List DirEnt) (ram : List DWord)
  | barrier (groups : List GroupEnt) (binds : List BindEnt)
  | bcast (groups : List (Nat × List Nat))
  | program (benches : List Nat) (first : Nat) (words : List DWord)
  | tool
  deriving DecidableEq, Repr

/-- What the partner sends in T4 (R427): its identity, whether its location is valid, and its cane. -/
structure Partner where
  device : Nat := 0
  located : Bool := false
  cane : Nat := 0
  deriving DecidableEq, Repr

/-- One training or retrain attempt (R427, R430): whether T1 (where run) and T2 succeed, the lanes good at both ends, precoding, the
partner, its ACK, and its free receive buffers, by channel and for the pool. -/
structure TrainTry where
  ok : Bool := false
  good : Nat := 255
  prec : Bool := false
  partner : Partner := {}
  ack : Nat := 4095
  free : List Nat := [8, 16, 16, 16, 16, 16, 16, 16, 16, 888]
  deriving DecidableEq, Repr

/-- What a protected read meets in silicon: a corrected single-bit error, an uncorrectable error whose reread is clean
(transient), or one whose reread fails too (lasting) (R135, R258, R263). -/
inductive Ecc where
  | corrected | transient | lasting
  deriving DecidableEq, Repr

/-- A count that a pot's silicon gets wrong (R134): the iteration and the row group or window it falls in (for a row read of a
sweep or a reload, the row), the segment, the bit step, and the counter: data column `col` of the segment, its witness column
`col` - 128, or, in transposed mode, position counter `col` of row `row`. `high` says that the count is that of physical rows 16
to 31 of a compressed row group. `delta` is the error when the count is first taken and `again` its error on the replay (R135);
for a row read any number but 0 says that the cell reads wrong. -/
structure WitEvent where
  iter : Nat := 0
  pos : Nat
  seg : Nat
  col : Nat
  row : Nat := 0
  step : Nat := 0
  high : Bool := false
  delta : Int
  again : Int := 0
  deriving DecidableEq, Repr

/-- What the surroundings contribute while a unit executes: read errors met in the scratchpad (by granule), miscounts of the
array, parity failures of the sparse path, the cycles each counter of the unit counts, the bank conflicts, and, for reads of
tier A, the row at which a lasting failure is reported with the code the front end reports. -/
structure EngEnv where
  ecc : List (Nat × Ecc) := []
  wit : List WitEvent := []
  /-- metadata words that fail their check: row group, and whether the reread fails too (R197) -/
  spMeta : List (Nat × Bool) := []
  /-- tile-table entries that fail their parity check at issue: row group, and whether the reread fails too (R197) -/
  tile : List (Nat × Bool) := []
  /-- tile images whose CRC fails in transit: first row group, and whether the second read fails too (R186) -/
  crc : List (Nat × Bool) := []
  /-- port cycles lost in each bank: the bank, reads and writes (R247) -/
  conf : List (Nat × Nat × Nat) := []
  /-- residue mismatches of the jack: tile, row, lasting -/
  res : List (Nat × Nat × Bool) := []
  feed : Nat := 0
  back : Nat := 0
  cmpWait : Nat := 0
  maskWait : Nat := 0
  tagRd : Nat := 0
  tagWr : Nat := 0
  stallIn : Nat := 0
  stallOut : Nat := 0
  rowFail : Option (Nat × Nat) := none
  deriving DecidableEq, Repr

/-- Which of the two steps of R264 an INSTRUCTION_ISSUE takes: the dispatch of the windowed instruction at PC, or the issue
of a unit's oldest waiting instruction. -/
inductive IssueEv where
  | dispatch (fetch : Option Ecc)
  | unit (u : Nat) (ecc : List (Nat × Ecc))
  deriving DecidableEq, Repr

/-- A fabric message (R435): its header fields, and its payload. `len` is LEN, the bytes wanted for a GET. -/
structure FabMsg where
  typ : Nat
  retx : Bool := false
  dlc : Nat := 0
  dtrs : Nat := 0
  dst : Nat := 0
  src : Nat := 0
  tid : Nat := 0
  ftag : Nat := 0
  status : Nat := 0
  len : Nat := 0
  gen : Nat := 0
  addr : Nat := 0
  rtag : Nat := 0
  aop : Nat := 0
  aux : Nat := 0
  stamp : Nat := 0
  rtid : Option Nat := none
  payload : List Byte := []
  deriving DecidableEq, Repr

/-- A flit of a cane (R414). -/
structure CaneFlit where
  sq : Nat := 0
  typ : Nat := 0
  ack : Nat := 4095
  nak : Bool := false
  cntA : Nat := 0
  chA : Nat := 0
  cntB : Nat := 0
  chB : Nat := 0
  ch : Nat := 0
  pool : Bool := false
  reserved : Bool := false
  used : Nat := 0
  payload : List Byte := []
  deriving DecidableEq, Repr

/-- What comes to a front end for a requested transfer: whether it passes its CRC or completion check, and, from the host, the
data (none for a refusal by the host). -/
structure Inbound where
  good : Bool := true
  host : Option (List Byte) := some []
  deriving DecidableEq, Repr


/-- A flit of a package link (R361): SEQ, TYPE, CLASS, ACK, NAK and bytes 4 to 251. -/
structure PkgFlit where
  sq : Nat := 0
  typ : Nat := 0
  cls : Nat := 0
  ack : Nat := 1023
  nak : Bool := false
  payload : List Byte := []
  deriving DecidableEq, Repr

/-- What a poisoned mesh message carries (R360): the data of a transfer, a punty payload or handle of an out-port with its SEQ, a
register access, a barrier arrival or release, none of them. -/
inductive MeshLoad where
  | dma (id : Nat)
  | punty (gb sq : Nat)
  | register
  | barrier
  | other
  deriving DecidableEq, Repr

/-- What one calibration attempt of a parison measures (R164 to R166): whether the precheck, the first and the second verify
fail their reference test, the trim that the search ends at for each of the 266 pairs, and the pairs that fail a verify. -/
structure CalAttempt where
  preBad : Bool := false
  verifyBad : Bool := false
  trims : List Int := []
  failed : List Nat := []
  deriving DecidableEq, Repr

/-- A calibration's surroundings: what its first and, where it is made, its second attempt measure, and the bench temperature in
units of 0.25 °C at the commit. -/
structure CalEnv where
  attempt1 : CalAttempt := {}
  attempt2 : CalAttempt := {}
  temp : Nat := 0
  deriving DecidableEq, Repr

/-- An element that a slice finds bad: its segment, its physical column there (132 and 133 the spares), and whether it passed at
the divided clock (R139, R140). -/
structure BadElem where
  segment : Nat
  column : Nat
  marginal : Bool
  deriving DecidableEq, Repr

/-- What the gaffer measures for a controller tick (R471, R475): the power of each furnace die and of the rest of the module in
mW, the 1 ms and 1 s averages of the input power in W, the idle floor in W, die temperatures in 0.25 °C, the rail currents in A and
the sensed rail voltages in mV, the input in 10 mV and 0.1 A, and the reheat passes of each furnace die since the last tick. -/
structure TickEnv where
  dies : List Nat := []
  other : Nat := 0
  input : Nat := 0
  avg : Nat := 0
  floor : Nat := 0
  temps : List (Nat × Nat) := []
  amps : List Nat := []
  sense : List Nat := []
  vin : Nat := 0
  iin : Nat := 0
  reheat : List Nat := []
  deriving DecidableEq, Repr

/-- A reading of a regulator phase: its sensed current and the rail's current, in mA (R480). -/
structure PhaseRead where
  sensed : Int
  rail : Nat
  deriving DecidableEq, Repr

/-- What a start meets (R510): the steps whose FAIL condition holds; the steps whose condition is not yet met, at which the start
waits; the dies that fail in S0, S3 and S7, as THERM_SEL numbers them; the ledger copies found bad; the package links that do not
train, as die and edge; the stacks and packages that train; pots found bad, and the cullet lists built, as 16 gb + pot, segment,
column, spare and mark; the calibrations of the parisons, by bench; the firmware kinds whose bank in use fails its checks; the dies
whose last S7 lies 24 h back; the host link's width and rate; the duration of each step in µs; seconds of module life. -/
structure BootEnv where
  fail : List Nat := []
  late : List Nat := []
  dies0 : List Nat := []
  dies3 : List Nat := []
  dies7 : List Nat := []
  ledgerBad : Nat := 0
  links : List (Nat × Nat) := []
  stackSet : List Nat := [0, 1, 2, 3, 4, 5, 6, 7]
  pkgs : List Nat := [0, 1, 2, 3, 4, 5, 6, 7, 8, 9, 10, 11, 12, 13, 14, 15, 16, 17, 18, 19, 20, 21, 22, 23]
  retired : List Nat := []
  cullets : List (Nat × Nat × Nat × Nat × Bool) := []
  cal : List (Nat × CalEnv) := []
  badBanks : List Nat := []
  s7Old : List Nat := []
  link : Option (Nat × Nat) := some (16, 5)
  times : List Nat := []
  life : Nat := 0
  deriving DecidableEq, Repr

/-- Where a register access goes: a device-local address, or an offset of the page of the function that makes it (R550, R553). -/
inductive RegAt where
  | loc (a : Nat)
  | page (off : Nat)
  deriving DecidableEq, Repr

/-- Who writes to the broadcast window: a transfer of a bench, or the gaffer or the servitor with an address and bytes (R366). -/
inductive BcSender where
  | xfer (id : Nat)
  | service (agent a : Nat) (data : List Byte)
  deriving DecidableEq, Repr



/-- The commands (spec/opcode_table.json), in the table's order. -/
inductive Instr where
  /-- NOP (R311): No-operation instruction; completes in its dispatch cycle. -/
  | nop (gb : Nat) (fetch : Option Ecc)
  /-- END (R314): Stops dispatch; the sequencer enters END once the window is empty. -/
  | endProg (gb : Nat) (fetch : Option Ecc)
  /-- END_REACHED (R284): The last windowed instruction retires after END and the sequencer enters state END. -/
  | endReached (gb : Nat)
  /-- BR (R312): Unconditional branch to an absolute target; may end enclosing loops. -/
  | br (gb : Nat) (fetch : Option Ecc)
  /-- BRC (R312): Conditional branch on a comparison of two scalar registers. -/
  | brc (gb : Nat) (fetch : Option Ecc)
  /-- LOOP (R313): Activates a hardware loop register with an immediate or register count. -/
  | loop (gb : Nat) (fetch : Option Ecc)
  /-- LOOPW (R313): Activates a loop that walks a walk table and writes each entry into a scalar register. -/
  | loopw (gb : Nat) (fetch : Option Ecc)
  /-- ALU (R309): 64-bit register-register scalar operation selected by FUNC. -/
  | alu (gb : Nat) (fetch : Option Ecc)
  /-- ALUI (R309): 64-bit scalar operation with a sign-extended immediate. -/
  | alui (gb : Nat) (fetch : Option Ecc)
  /-- MOVI (R310): Writes an immediate to the low (sign-extended) or high half of a scalar register. -/
  | movi (gb : Nat) (fetch : Option Ecc)
  /-- MOVL (R311): Reads IDX or TRIP of a loop register into a scalar register. -/
  | movl (gb : Nat) (fetch : Option Ecc)
  /-- LD (R308): Loads 8 bytes from the scratchpad into a scalar register under a tag action. -/
  | ld (gb : Nat) (env : EngEnv)
  /-- ST (R308): Stores a scalar register's 8 bytes into the scratchpad under a tag action. -/
  | st (gb : Nat) (env : EngEnv)
  /-- INSTRUCTION_ISSUE (R265): A windowed instruction is handed to its unit when the unit can accept it and the scoreboard no longer holds it. -/
  | instructionIssue (gb : Nat) (ev : IssueEv) (cycles : Nat)
  /-- INSTRUCTION_RETIRE (R265): A unit reports an instruction complete and it leaves the window. -/
  | instructionRetire (gb : Nat) (u : Nat)
  /-- POT_PASS (R300): Runs a forward or transposed pass descriptor on a pot, with optional repeat, bounds and finish. -/
  | potPass (gb p : Nat) (env : EngEnv)
  /-- POOL_ABORT (R119): POT_CTRL.POOL_ABORT closes the open pooling window and discards the pool buffer. -/
  | poolAbort (gb p : Nat)
  /-- POT_LOAD (R302): Plain load of pot rows from scratchpad or tier A, writing witnesses and setting VALID at the end. -/
  | potLoad (gb p : Nat) (env : EngEnv)
  /-- TILED_LOAD (R185): Load of tile images into a sparse-capable pot, checking headers, bitmaps, empty slots and CRC. -/
  | tiledLoad (gb p : Nat) (env : EngEnv)
  /-- UPDATE_SWEEP (R212): Rewrites weight rows from deltas and residues with rounding and emits new rows to tier A. -/
  | updateSweep (gb p : Nat) (env : EngEnv)
  /-- WORKING_LOAD (R204): Writes saved activations into a working pot aligned to per-block exponents, optionally writing the scale table. -/
  | workingLoad (gb p : Nat) (env : EngEnv)
  /-- EMISSION_WRITE_FAIL (R223): A lasting failure of an emitted row's write reports POT_UPD_EMIT and may clear SHADOW_OK. -/
  | emissionWriteFail (id : Nat)
  /-- POT_WIT_STORM (R137): Sixteen transients in one epoch set SUSPECT, report the storm and request a targeted slice. -/
  | potWitStorm (gb p : Nat)
  /-- TARGETED_SLICE (R139): Destructive march and logic tests of suspect segments, remapping bad columns through the cullet list. -/
  | targetedSlice (gb p : Nat) (bad : List BadElem) (logic : Bool) (waited : Nat)
  /-- SHADOW_RELOAD (R142): After a slice the pot reloads all rows from its shadow, or reports POT_NO_SHADOW. -/
  | shadowReload (gb p : Nat) (env : EngEnv)
  /-- ST_REQ (R146): BENCH_ST_CTRL.REQ requests an in-service slice on a selected pot. -/
  | stReq (gb p : Nat)
  /-- IN_SERVICE_SLICE (R144): Non-destructive verify, transparent march, column-port and logic test of one pot. -/
  | inServiceSlice (gb p : Nat) (fails : List Nat) (logic metaBad : Bool) (waited : Nat)
  /-- SLICE_FORCE_TIMEOUT (R146): After 1 s without an idle cycle the pot finishes its instruction, holds the next and starts the slice. -/
  | sliceForceTimeout (gb p : Nat)
  /-- POT_ST_OVERDUE (R147): A pot's self-test age reaches 600 s and reports once. -/
  | potStOverdue (gb p : Nat)
  /-- META_SLICE (R198): After a lasting metadata fault, marches the metadata RAM and tile table and retires or reloads the pot. -/
  | metaSlice (gb p : Nat) (badWord : Bool) (waited : Nat)
  /-- COMPARE (R154): Parison comparison of three samples with majority, reference check and mask record delivery. -/
  | compare (gb : Nat) (env : EngEnv) (noise : List (BitVec 266))
  /-- MASK_RECORD_DELIVERY (R162): A mask record is copied into each target pot's slot as soon as that slot is empty. -/
  | maskRecordDelivery (gb : Nat)
  /-- LOAD_SKETCH (R170): Writes sketch rows into the parison with read-back verify and one retry. -/
  | loadSketch (gb : Nat) (env : EngEnv) (mismatch : List (Nat × Bool))
  /-- CALIBRATE_NOW (R164): Parison instruction that runs the calibration sequence in program order. -/
  | calibrateNow (gb : Nat) (env : EngEnv) (cal : CalEnv)
  /-- CAL_REQ (R169): PAR_CTRL.CAL_REQ requests a calibration at the next comparison boundary. -/
  | calReq (gb : Nat)
  /-- CAL_AGE_TRIGGER (R169): CAL_PERIOD × 10 ms since the last calibration triggers calibration. -/
  | calAgeTrigger (gb ms : Nat)
  /-- CAL_TEMP_TRIGGER (R169): Bench temperature drifting by CAL_DTEMP from the latched value triggers calibration. -/
  | calTempTrigger (gb temp : Nat)
  /-- CALIBRATION (R164): Calibration attempt: settle, precheck, trim search, verify and commit, repeated once if suspect. -/
  | calibration (gb : Nat) (cal : CalEnv)
  /-- MM (R233): Jack matrix multiply of streamed slices against stationary tiles into an accumulator bank. -/
  | mm (gb : Nat) (env : EngEnv)
  /-- VEC_ADD (R235): Vector element-wise addition. -/
  | vecAdd (gb : Nat) (env : EngEnv)
  /-- VEC_MUL (R235): Vector element-wise multiplication. -/
  | vecMul (gb : Nat) (env : EngEnv)
  /-- VEC_MAX (R235): Vector element-wise maximum. -/
  | vecMax (gb : Nat) (env : EngEnv)
  /-- VEC_SCALE (R235): Multiplies each element by an FP32 immediate. -/
  | vecScale (gb : Nat) (env : EngEnv)
  /-- VEC_ADDI (R235): Adds an FP32 immediate to each element. -/
  | vecAddi (gb : Nat) (env : EngEnv)
  /-- VEC_EXP (R235): Element-wise exponential. -/
  | vecExp (gb : Nat) (env : EngEnv)
  /-- VEC_RECIP (R235): Element-wise correctly rounded reciprocal. -/
  | vecRecip (gb : Nat) (env : EngEnv)
  /-- VEC_SQRT (R235): Element-wise correctly rounded square root. -/
  | vecSqrt (gb : Nat) (env : EngEnv)
  /-- VEC_RSUM (R237): Row sum in a fixed lane-fold and tree order. -/
  | vecRsum (gb : Nat) (env : EngEnv)
  /-- VEC_RMAX (R237): Row maximum in fixed order. -/
  | vecRmax (gb : Nat) (env : EngEnv)
  /-- VEC_SOFTMAX (R237): Row softmax with fixed-order sums, reading the scratchpad once. -/
  | vecSoftmax (gb : Nat) (env : EngEnv)
  /-- VEC_QUANT (R238): Quantizes FP32 or BF16 rows into Aa blocks with E8 scales. -/
  | vecQuant (gb : Nat) (env : EngEnv)
  /-- VEC_DEQUANT (R235): Converts Aa blocks or INT32 to FP32. -/
  | vecDequant (gb : Nat) (env : EngEnv)
  /-- VEC_TRANS (R239): Transposes 32 × 32 tiles, requantizing Aa blocks. -/
  | vecTrans (gb : Nat) (env : EngEnv)
  /-- VEC_MXIN (R78): Imports OCP MX blocks into W5 images or A8. -/
  | vecMxin (gb : Nat) (env : EngEnv)
  /-- VEC_MXOUT (R80): Exports BF16 or Aa blocks as OCP MX blocks. -/
  | vecMxout (gb : Nat) (env : EngEnv)
  /-- JACK_SLICE (R533): Every 480 s the jack self-test runs; a repeated mismatch retires the jack. -/
  | jackSlice (gb : Nat) (fails : Bool) (waited : Nat)
  /-- FILL (R256): Writes a 32-bit pattern over a granule range. -/
  | fill (gb : Nat) (env : EngEnv)
  /-- COPY (R256): Copies a granule range as it stood at issue. -/
  | copy (gb : Nat) (env : EngEnv)
  /-- TAGSET (R307): Sets the tags of a slot range in one cycle without waiting. -/
  | tagset (gb : Nat)
  /-- SPAD_TAG_CTRL_GO (R260): Register write that sets slot tags while the sequencer is halted. -/
  | spadTagCtrlGo (gb agent : Nat) (value : Bool) (count firstSlot : Nat)
  /-- SPAD_CORRECTED_WRITEBACK (R258): A corrected granule is written back in the bank's next free write cycle. -/
  | spadCorrectedWriteback (gb granule : Nat)
  /-- TAG_WAIT_RELEASE (R251): An access waiting on a slot tag proceeds in the cycle after the tag changes. -/
  | tagWaitRelease (gb unit : Nat)
  /-- REMOTE_READ (R257): A read from another bench served at the target bank's remote slots under its tag action. -/
  | remoteRead (gb id : Nat) (ecc : List (Nat × Ecc))
  /-- REMOTE_WRITE (R257): A write from another bench served at remote slots under its tag action. -/
  | remoteWrite (gb id : Nat) (ecc : List (Nat × Ecc))
  /-- REMOTE_WAIT_PROCEED (R257): A remote request held in a wait entry proceeds when its tag allows. -/
  | remoteWaitProceed (gb : Nat) (ecc : List (Nat × Ecc))
  /-- DMA_GET (R326): Transfer from an external address into the scratchpad, plain or walking. -/
  | dmaGet (gb : Nat) (env : EngEnv)
  /-- DMA_PUT (R326): Transfer from the scratchpad to an external address. -/
  | dmaPut (gb : Nat) (env : EngEnv)
  /-- DMA_FENCE (R332): Holds later requests until every earlier PUT and accepted emission is complete. -/
  | dmaFence (gb : Nat) (env : EngEnv)
  /-- TRACKER_GRANT (R322): Each die cycle the tracker grants one free pool entry round-robin. -/
  | trackerGrant (die : Nat) (ecc : List (Nat × List (Nat × Ecc)))
  /-- REGULATOR_WINDOW (R330): Every 256 cycles every partition-class bucket of the regulator is refilled. -/
  | regulatorWindow (die : Nat) (ecc : List (Nat × List (Nat × Ecc)))
  /-- MERGE_TIMEOUT (R329): A merged transfer leaves when its first piece has waited 32 cycles. -/
  | mergeTimeout (id : Nat)
  /-- INBOUND_TRANSFER_ARRIVAL (R333): Inbound transfer data is staged and CRC-checked before it is written to the scratchpad. -/
  | inboundTransferArrival (id : Nat) (inb : Inbound)
  /-- TRANSFER_COMPLETE (R331): A transfer reaches its completion point and releases its tracker entry. -/
  | transferComplete (id : Nat) (ecc : List (Nat × Ecc))
  /-- TRANSFER_TIMEOUT (R333): No completion within 2^TMO cycles for a tier or host target requests it again once. -/
  | transferTimeout (id : Nat)
  /-- PQ_PUT (R338): Hands a handle to the out-port queue. -/
  | pqPut (gb : Nat) (env : EngEnv)
  /-- PQ_GET (R339): Takes the oldest delivered handle into a register, waiting if none. -/
  | pqGet (gb : Nat) (env : EngEnv)
  /-- PQ_REL (R340): Releases a delivered handle, emptying its slots and returning a credit. -/
  | pqRel (gb : Nat) (env : EngEnv)
  /-- PQ_HANDLE_SEND (R338): With a credit, the out-port assigns SEQ, sends the payload and then the handle. -/
  | pqHandleSend (gb : Nat) (env : EngEnv)
  /-- PQ_HANDLE_ARRIVAL (R342): The in-port tests SEQ, writes the payload into the sub-ring and queues the handle. -/
  | pqHandleArrival (gb : Nat) (word : DWord) (payload : List Byte) (ecc : List (Nat × Ecc))
  /-- PQ_DELIVERY_ACK (R339): Delivery completion is acknowledged to the out-port and consume actions apply. -/
  | pqDeliveryAck (gb sq : Nat) (fails : Bool)
  /-- PQ_CREDIT_RETURN (R340): A released handle's credit reaches its producer's out-port. -/
  | pqCreditReturn (gb : Nat)
  /-- BENCH_STUCK (R344): 32,768 cycles without progress while a unit waits marks the bench stuck. -/
  | benchStuck (gb cycles : Nat)
  /-- DEADLOCK_DETECT (R346): A partition stuck for a further 32,768 cycles gets a wait snapshot and STREAM_MUTUAL_WAIT. -/
  | deadlockDetect (p : Nat)
  /-- PQ_REMOTE_LONG (R345): An outside punty wait reaching 2^24 cycles reports once. -/
  | pqRemoteLong (gb : Nat)
  /-- STREAM_CLOCK_WAIT (R345): A wait on a stopped bench reaching 65,536 cycles reports once. -/
  | streamClockWait (gb : Nat)
  /-- ARRIVE (R278): Increments a barrier context's ARRIVE and marks an arrival outstanding. -/
  | arrive (gb : Nat) (fetch : Option Ecc)
  /-- ARRIVAL_SEND (R315): Once earlier windowed instructions retire, the arrival is sent along the group's path. -/
  | arrivalSend (gb : Nat)
  /-- WAIT (R278): Stops dispatch until the barrier context's arrival is released. -/
  | wait (gb : Nat) (fetch : Option Ecc)
  /-- BARRIER_RELEASE (R279): A release epoch is compared by serial arithmetic and clears OUTSTANDING or is ignored. -/
  | barrierRelease (gb ctx epoch : Nat)
  /-- STAGGER_OPEN (R477): After a release a bench's gate opens after its row's stagger delay. -/
  | staggerOpen (gb : Nat)
  /-- SEQ_BAR_LONG (R281): A barrier wait beyond BAR_LIMIT × 2^20 cycles reports once. -/
  | seqBarLong (gb cycles : Nat)
  /-- START (R284): SEQ_CTRL START clears loop registers and enters RUN at SEQ_PC. -/
  | start (gb agent : Nat)
  /-- HALT (R284): SEQ_CTRL HALT stops dispatch and enters DRAIN. -/
  | halt (gb agent : Nat)
  /-- DRAIN_COMPLETE (R284): The last issued instruction retires in DRAIN and the sequencer enters HALTED. -/
  | drainComplete (gb : Nat)
  /-- RESUME_REISSUE (R283): Clears FAULT_HOLD and reissues the faulted instruction from its recorded iteration. -/
  | resumeReissue (gb agent : Nat)
  /-- RESUME_SKIP (R283): Clears FAULT_HOLD and retires the faulted instruction without effect. -/
  | resumeSkip (gb agent : Nat)
  /-- ABORT (R283): Empties the window, clears every FAULT_HOLD and enters HALTED at the faulted PC. -/
  | abort (gb agent : Nat)
  /-- SEQ_BAR_ARRIVE_WRITE (R280): Writing a context's ARRIVE epoch while halted sets it and clears OUTSTANDING. -/
  | seqBarArriveWrite (gb agent epoch : Nat)
  /-- SEQ_SREG_HI_WRITE (R289): Commits the held low half and the written high half into a scalar register while halted. -/
  | seqSregHiWrite (gb agent high : Nat)
  /-- BENCH_PRNG_STATE_HI_WRITE (R77): Commits a 64-bit substream state while halted, or raises SEQ_PRNG_BUSY. -/
  | benchPrngStateHiWrite (gb agent high : Nat)
  /-- CAPTURE_READ (R76): A read of a low half captures a full 64-bit value for the following high-half read. -/
  | captureRead (agent : Nat) (r : RegAt)
  /-- RC_COUNTER_READ (R126): A read by the named agent returns an RC field and clears it. -/
  | rcCounterRead (agent : Nat) (r : RegAt) (ecc : List (Nat × Ecc) := [])
  /-- REGISTER_WRITE (R18): A write to a register field without behaviour of its own, under its access type. -/
  | registerWrite (agent : Nat) (r : RegAt) (value : Nat) (ecc : List (Nat × Ecc) := [])
  /-- IMEM_WRITE (R263): A write to instruction memory takes effect only in IDLE, HALTED or END. -/
  | imemWrite (agent gb off : Nat) (data : List Byte)
  /-- DEV_LOCATION_WRITE (R47): The gaffer writes the torus identity and VALID into DEV_LOCATION. -/
  | devLocationWrite (agent id : Nat)
  /-- MESH_FLIT_RECEIVE (R360): A die-network hop checks a flit's SECDED, correcting or requesting one resend. -/
  | meshFlitReceive (die node dir : Nat) (ecc : Option Ecc) (load : MeshLoad)
  /-- PKG_FLIT_RECEIVE (R362): A package-link flit is tested by sequence and CRC, accepted, NAKed or discarded. -/
  | pkgFlitReceive (die edge : Nat) (f : PkgFlit) (good : Bool)
  /-- PKG_ACK_TIMEOUT (R362): 2 µs without acknowledgement starts a replay. -/
  | pkgAckTimeout (die edge : Nat)
  /-- PKG_RETRAIN_END (R362): A package retrain ends; the replay buffer is sent or, after three failures, the link is down. -/
  | pkgRetrainEnd (die edge : Nat) (ok : Bool)
  /-- BAR_ARRIVAL_HOME (R364): The home die's barrier unit counts an arrival carrying E and releases the group at the N-th. -/
  | barArrivalHome (die group epoch : Nat)
  /-- BROADCAST_WRITE (R367): A broadcast-window write is replicated to every selected bench and completes after the last acknowledges. -/
  | broadcastWrite (src : BcSender) (ecc : List (Nat × List (Nat × Ecc)))
  /-- WHOLE_LOAD (R382): BATCH_CTRL GO with OP 0b00 starts a whole batch image load. -/
  | wholeLoad (agent part : Nat)
  /-- PARTITION_LOAD (R382): BATCH_CTRL GO with OP 0b01 starts a partition image load. -/
  | partitionLoad (agent part : Nat)
  /-- UNLOAD (R388): BATCH_CTRL GO with OP 0b10 unloads a partition to EMPTY. -/
  | unload (agent part : Nat)
  /-- BATCH_COPY_DONE (R383): The image copy into the staging area completes and VERIFY begins. -/
  | batchCopyDone (img : List Byte) (lasting : Bool)
  /-- BATCH_VERIFY_DONE (R380): Header, CRC, key, signature, rollback and target checks complete and CHECK begins. -/
  | batchVerifyDone
  /-- BATCH_CHECK_DONE (R380): Record, resource, isolation and fence checks complete and QUIESCE begins. -/
  | batchCheckDone (vals : List ImgVal)
  /-- QUIESCE_DONE (R384): The target partitions hold no tracker entry and APPLY begins. -/
  | quiesceDone
  /-- QUIESCE_TIMEOUT (R384): After 2^24 die cycles remaining tracker entries are freed by force. -/
  | quiesceTimeout
  /-- APPLY_DONE (R385): Bench state is cleared and written, the partition becomes READY and the load ends. -/
  | applyDone (retired : List Nat)
  /-- TIER_READ (R399): A tier controller reads and checks the blocks of a transfer, correcting, rereading or poisoning. -/
  | tierRead (id : Nat) (ecc : List (Nat × Ecc))
  /-- TIER_WRITE (R400): A tier controller writes whole blocks or read-modify-writes a granule and accepts the write. -/
  | tierWrite (id : Nat) (ecc : List (Nat × Ecc)) (crc : List (Nat × Bool))
  /-- TIER_WRITEBACK (R399): A corrected block is written back in the controller's next idle write slot. -/
  | tierWriteback (block : Nat)
  /-- SCRUB_READ (R402): The controller reads the next block of its scrub pass under the read rule. -/
  | scrubRead (ctl : Nat) (ecc : Option Ecc) (covered : Bool)
  /-- TIER_TARGET_LOSS (R404): A stack or package loses its interface in service and goes down. -/
  | tierTargetLoss (dev : Nat)
  /-- CANE_FLIT_RECEIVE (R418): A cane receiver tests a flit, accepts it, discards it as duplicate or sends NAK, and reads ACK and credits. -/
  | caneFlitReceive (cane : Nat) (f : CaneFlit) (good : Bool) (uncorr : Nat) (train : Partner)
  /-- CANE_REPLAY_TIMEOUT (R419): 4 µs without ACK advancing while flits are outstanding starts a replay. -/
  | caneReplayTimeout (cane : Nat)
  /-- CANE_TRAINING (R427): Full training of a cane through steps T1–T5, up to three attempts. -/
  | caneTraining (cane : Nat) (tries : List TrainTry)
  /-- RETRAIN_EPISODE (R430): Fast retrain, then up to three full attempts keeping state, or the cane goes DOWN. -/
  | retrainEpisode (cane : Nat) (fast : TrainTry) (tries : List TrainTry)
  /-- LOSS_OF_SIGNAL (R430): Loss of signal or codeword lock for 1 µs starts a retrain episode. -/
  | lossOfSignal (cane : Nat)
  /-- LANE_ERROR_WINDOW (R429): Two consecutive windows above the threshold mark a lane bad and drop it by fast retrain. -/
  | laneErrorWindow (cane : Nat) (symbols : List Nat) (full : Nat)
  /-- LEAVE_FLIT (R431): A received leave flit parks the cane and reports CANE_PARTNER_LEFT. -/
  | leaveFlit (cane : Nat) (good : Bool)
  /-- AUTO_RETRY (R431): Every AUTO_RETRY seconds a DOWN or PARKED cane attempts full training. -/
  | autoRetry (cane : Nat)
  /-- TRAIN (R433): CANE_CTRL.TRAIN starts full training. -/
  | train (k agent : Nat)
  /-- PARK (R431): CANE_CTRL.PARK sends leave and parks the cane. -/
  | park (k agent : Nat)
  /-- RETRAIN_FULL (R433): CANE_CTRL.RETRAIN_FULL starts a retrain episode at its full-training step. -/
  | retrainFull (k agent : Nat)
  /-- RETRAIN_FAST (R430): CANE_CTRL.RETRAIN_FAST starts a retrain episode. -/
  | retrainFast (k agent : Nat)
  /-- CABLE_PRESENCE_CHANGE (R573): CBL_PRSNT_N going low starts training within 100 ms; high holds the canes DOWN. -/
  | cablePresenceChange (conn : Nat) (high : Bool)
  /-- GET (R440): Fabric read request checked and executed at its destination. -/
  | get (k : Nat) (m : FabMsg) (crc : Bool) (ecc : List (Nat × Ecc))
  /-- PUT (R440): Fabric write request checked, deduplicated and executed at its destination. -/
  | put (k : Nat) (m : FabMsg) (crc : Bool) (ecc : List (Nat × Ecc)) (burst : List (Nat × Bool))
  /-- ATOMIC (R459): Fabric 64-bit atomic executed at a tier address of the target. -/
  | atomic (k : Nat) (m : FabMsg) (crc : Bool) (ecc : List (Nat × Ecc))
  /-- HDL_DATA (R442): VC3 punty payload piece executed in FSEQ order. -/
  | hdlData (k : Nat) (m : FabMsg) (crc : Bool)
  /-- HDL (R442): VC3 punty handle executed in FSEQ order. -/
  | hdl (k : Nat) (m : FabMsg) (crc : Bool) (ecc : List (Nat × Ecc))
  /-- COLL (R457): Collective blocks received, checked against CSEQ and chunk, and summed or passed on. -/
  | coll (k : Nat) (m : FabMsg) (crc : Bool)
  /-- BAR_ARRIVE (R454): Device arrival at the spanning barrier's home, counted against F. -/
  | barArrive (k : Nat) (m : FabMsg) (crc : Bool)
  /-- BAR_RELEASE (R454): Spanning barrier release accepted by a home die matching its outstanding arrival. -/
  | barRelease (k : Nat) (m : FabMsg) (crc : Bool)
  /-- STOP (R450): VC0 stop command halts every bench of the partition holding its tag. -/
  | stop (k : Nat) (m : FabMsg) (crc : Bool)
  /-- NOTICE (R537): VC0 notice delivered to the servitor and reported as MOD_NOTICE. -/
  | notice (k : Nat) (m : FabMsg) (crc : Bool)
  /-- CAP (R450): VC0 cap message delivered to the gaffer as a fabric cap. -/
  | cap (k : Nat) (m : FabMsg) (crc : Bool)
  /-- SYNC (R452): Parent's time sync message, timestamped on arrival. -/
  | sync (k : Nat) (m : FabMsg) (crc : Bool) (sub : Nat)
  /-- FOLLOW_UP (R452): Carries the parent's send time t1. -/
  | followUp (k : Nat) (m : FabMsg) (crc : Bool) (sub : Nat)
  /-- DELAY_REQ (R452): Child's delay request, timestamped t4 on arrival at the parent. -/
  | delayReq (k : Nat) (m : FabMsg) (crc : Bool) (sub : Nat)
  /-- DELAY_RESP (R453): Carries t4; the child computes its offset and slews or steps its clock. -/
  | delayResp (k : Nat) (m : FabMsg) (crc disturbed : Bool)
  /-- RSP (R441): Response without data ends the transaction by its STATUS. -/
  | rsp (k : Nat) (m : FabMsg) (crc : Bool)
  /-- RSP_DATA (R441): Response with data ends the transaction by its STATUS. -/
  | rspData (k : Nat) (m : FabMsg) (crc : Bool)
  /-- MGMT_ACK (R451): Acknowledges a VC0 message placed in a peer's inbox. -/
  | mgmtAck (k : Nat) (m : FabMsg) (crc : Bool)
  /-- MESSAGE_TRANSIT (R445): A message not addressed to the device is forwarded by DST, DLC and DTRS. -/
  | messageTransit (k dir : Nat) (m : FabMsg)
  /-- FAB_TIMEOUT (R441): No response within 2^TMO ns resends once; a second timeout is lasting. -/
  | fabTimeout (tid : Nat)
  /-- BUSY_RESEND (R437): 2 µs after a BUSY response the request is sent again. -/
  | busyResend (tid : Nat)
  /-- CACHE_ENTRY_EXPIRY (R442): A completion cache entry is freed 2^30 + 2^20 ns after execution. -/
  | cacheEntryExpiry (k src tid : Nat)
  /-- SYNC_PERIOD (R452): Each 2^SYNC_LOG ms a child starts a time exchange with its parent. -/
  | syncPeriod (master sub : Nat)
  /-- FAB_TIME_LOST (R453): Sixteen discarded or missing periods clear VALID and report. -/
  | fabTimeLost
  /-- COLL_QUEUE_POLL (R456): Every 1 µs an idle collective unit reads slot HEAD and starts a valid command. -/
  | collQueuePoll (ring : Nat)
  /-- COLL_COMPLETE (R460): A collective command ends and writes its completion record to NOTIFY. -/
  | collComplete (ring : Nat)
  /-- CONTROLLER_TICK (R471): Every 100 µs the gaffer chooses an operating point for every die. -/
  | controllerTick (env : TickEnv)
  /-- POINT_CHANGE_DONE (R466): A die's operating point change completes, triggering parison settle and calibration. -/
  | pointChangeDone (die : Nat)
  /-- DUTY_WINDOW (R474): Each 1 ms window sets the run-slot count D of duty pulsing. -/
  | dutyWindow (avg : Nat)
  /-- LEASE_EXPIRY (R468): A cap lease runs out; MGR_LOST is set and the fallback cap applied. -/
  | leaseExpiry
  /-- PHASE_TEST (R480): Each microsecond every regulator phase is tested, a failure repeated once. -/
  | phaseTest (die phase : Nat) (first again : PhaseRead)
  /-- SOFT_THROTTLE (R484): A die at 95 °C or above slows one point per 1 ms tick. -/
  | softThrottle (die temp : Nat)
  /-- HARD_THROTTLE (R484): A die at 105 °C drops to P7 and enters lehr. -/
  | hardThrottle (die temp : Nat)
  /-- THERMAL_TRIP (R484): A die at 115 °C stops its clocks, drops its rail and latches the trip. -/
  | thermalTrip (die temp : Nat)
  /-- LEHR_EXIT (R485): After 1 s at or below 90 °C a die leaves lehr and ramps one point per 100 ms. -/
  | lehrExit (die temp : Nat)
  /-- CLEAR_TRIP (R486): THERM_CTRL.CLEAR_TRIP clears a die's trip latch at 90 °C or below. -/
  | clearTrip (agent : Nat)
  /-- P0_RESIDENCY_LIMIT (R488): 20 ms of continuous P0 moves the die to P1 and bars P0 for 80 ms. -/
  | p0ResidencyLimit (die : Nat)
  /-- P0_MINUTE_TICK (R489): Each minute the P0 bins are written and the wear budget checked. -/
  | p0MinuteTick
  /-- COOLANT_INLET_HIGH (R487): Coolant inlet above 40 °C reports once per episode. -/
  | coolantInletHigh (inlet outlet : Nat)
  /-- TELEMETRY_PUBLISH (R490): Every 100 ms the gaffer publishes power, thermal and barrier-wait sensors. -/
  | telemetryPublish (waited running : Nat) (crossed : List Nat)
  /-- COLD_START (R516): Power-on or cold request runs every boot step and loses tier contents. -/
  | coldStart (env : BootEnv)
  /-- WARM_RESTART (R517): Restart keeping rails and tiers, running S1, S2, S9 and only failed parts of other steps. -/
  | warmRestart (env : BootEnv)
  /-- FAILURE_RESTART (R512): 1 s after a step fails, a warm restart with cause FAILURE is made. -/
  | failureRestart
  /-- LOC_WAIT_TIMEOUT (R515): No location within LOC_WAIT_S; canes train with VALID 0 and S8 ends DEGRADED. -/
  | locWaitTimeout
  /-- CANE_TRAINING_DONE (R427): Every cane reaches UP, UP_MGMT, DOWN or MISWIRED and step S8 ends. -/
  | caneTrainingDone (env : BootEnv)
  /-- BOOT_HEARTBEAT (R499): A servitor write to BOOT_HEARTBEAT renews its liveness. -/
  | bootHeartbeat (agent value : Nat)
  /-- HEARTBEAT_TIMEOUT (R499): 1 s without a heartbeat restarts the servitor, or holds it on the third restart in an hour. -/
  | heartbeatTimeout
  /-- GAFFER_WDT (R500): A missed 10 ms gaffer kick makes a warm restart. -/
  | gafferWdt
  /-- WARM (R520): BOOT_CTRL WARM requests a warm restart. -/
  | warm (agent : Nat)
  /-- COLD (R520): BOOT_CTRL COLD requests a cold start. -/
  | cold (agent : Nat)
  /-- CLEAR_SAFE (R513): BOOT_CTRL CLEAR_SAFE resets the consecutive failure counts. -/
  | clearSafe (agent : Nat)
  /-- KEY_INSTALL (R504): Key command installing a public key into a slot under the signature rule. -/
  | keyInstall
  /-- KEY_REVOKE (R504): Key command revoking a slot 1–7 key. -/
  | keyRevoke
  /-- KEY_RAISE_MINIMUM (R504): Key command raising a slot's MIN_VERSION. -/
  | keyRaiseMinimum
  /-- FW_UPDATE (R507): Copies, verifies and writes a firmware image into the inactive bank as pending. -/
  | fwUpdate (img : List Byte)
  /-- ATTESTATION (R509): Returns a signed report of measurements for a nonce. -/
  | attestation (fn : Nat)
  /-- CERT_CHAIN (R505): Returns the device certificate chain in 4 KiB pieces. -/
  | certChain (fn : Nat)
  /-- MBOX_PARTITION_LOAD (R562): Mailbox request to load the function's own partition image. -/
  | mboxPartitionLoad (fn : Nat)
  /-- MBOX_PARTITION_UNLOAD (R562): Mailbox request to unload the function's own partition. -/
  | mboxPartitionUnload (fn : Nat)
  /-- LEDGER_READ (R562): Mailbox request to read the ledger and fault ring. -/
  | ledgerRead
  /-- TELEMETRY_SNAPSHOT (R562): Mailbox request for a servitor telemetry snapshot. -/
  | telemetrySnapshot (fn : Nat) (bs : List Byte)
  /-- RING_INTERRUPT (R530): After coalescing, the ring's MSI-X vector is signalled while HEAD differs from TAIL. -/
  | ringInterrupt (fn : Nat)
  /-- FLT_RING_TAIL_WRITE (R529): Host write of a ring's TAIL index, ignored if it exceeds the ring. -/
  | fltRingTailWrite (agent fn value : Nat)
  /-- WITHDRAW_BUTTON (R539): A 0.5 s press requests a withdraw, or cancels one in DRAIN. -/
  | withdrawButton (down : Bool)
  /-- WITHDRAW_FORCED (R539): A press held 10 s forces STOP with no grace. -/
  | withdrawForced
  /-- WITHDRAW_REQ (R539): FLT_WD_CFG.REQ acts as a button press. -/
  | withdrawReq (agent : Nat)
  /-- GRACE_EXPIRY (R538): GRACE_S seconds in DRAIN move the withdraw to STOP. -/
  | graceExpiry
  /-- WITHDRAW_STOP_DONE (R538): Every partition is EMPTY and the withdraw moves to LEAVE. -/
  | withdrawStopDone
  /-- LEAVE_DONE (R538): No TID held or 2 × 2^TMO ns passed; notices and leave flits sent; SAFE entered. -/
  | leaveDone (timeout : Bool)
  /-- LATCH_OPEN (R540): Opening the latch outside SAFE reports and forces a withdraw. -/
  | latchOpen (closed : Bool)
  /-- HOST_LINK_DOWN (R548): The PCIe link goes down; queues go OFF and host transfers fail. -/
  | hostLinkDown
  /-- HOST_LINK_UP (R546): The PCIe port trains, possibly degraded. -/
  | hostLinkUp (width rate : Nat)
  /-- SQ_DOORBELL (R556): Host write of an SQ tail; the device fetches entries up to it. -/
  | sqDoorbell (fn q value : Nat)
  /-- CQ_DOORBELL (R560): Host write of a CQ head, invalid values putting the queue in ERROR. -/
  | cqDoorbell (fn q value : Nat)
  /-- SQ_ENTRY_FETCH (R556): The device fetches a submission entry and starts its command. -/
  | sqEntryFetch (fn q : Nat) (entry : List Byte) (ok : Bool)
  /-- CMD_NOP (R558): Queue command that completes at once. -/
  | cmdNop (fn q : Nat)
  /-- COPY_IN (R558): Copies bytes from host memory into a partition window or scratchpad. -/
  | copyIn (fn q : Nat) (data : Option (List Byte)) (ecc : List (Nat × Ecc)) (crc : List (Nat × Bool))
  /-- COPY_OUT (R558): Copies bytes from the device to host memory. -/
  | copyOut (fn q : Nat) (lost : Bool) (ecc : List (Nat × Ecc))
  /-- CMD_START (R558): Starts every selected bench at PC if all are startable. -/
  | cmdStart (fn q : Nat)
  /-- CMD_HALT (R558): Halts every selected bench. -/
  | cmdHalt (fn q : Nat)
  /-- CMD_WAIT (R558): Completes when every selected bench is END, HALTED or drained FAULT. -/
  | cmdWait (fn q : Nat)
  /-- CMD_ABORT (R558): Aborts every selected bench. -/
  | cmdAbort (fn q : Nat)
  /-- COMMAND_COMPLETION (R559): A finished command's completion entry is written to the CQ with its status. -/
  | commandCompletion (fn q n : Nat)
  /-- QUEUE_ENABLE_WRITE (R560): HOST_Q_CFG.ENABLE written 0 then 1 resets a queue's indices and returns it to RUN. -/
  | queueEnableWrite (fn q : Nat) (enable : Bool)
  /-- HOST_BAR_ACCESS (R552): Host access to a bench scratchpad or register through a BAR. -/
  | hostBarAccess (fn bar off len : Nat) (data : Option (List Byte)) (ecc : List (Nat × Ecc))
  /-- HOST_READ_STOPPED_TIMEOUT (R552): A host read to a bench stopped for 1 ms completes with Completer Abort. -/
  | hostReadStoppedTimeout (fn off : Nat) (write : Bool)
  /-- HOST_FLR (R563): Function-level reset stops the function's queues and aborts its partition's benches. -/
  | hostFlr (fn : Nat)
  /-- VIN_OUT_OF_RANGE (R569): Input outside 48.0–58.0 V for 1 ms reports once per episode. -/
  | vinOutOfRange (vin : Nat)
  /-- HOT_SWAP_OPEN (R569): Input below 44.0 V or above 59.5 V opens the hot-swap switch: loss of power good. -/
  | hotSwapOpen (vin : Nat)
  /-- VIN_RETURN (R569): Input back in range for 100 ms closes the switch and cold-starts. -/
  | vinReturn (vin : Nat)
  /-- COOLANT_FLOW_LOW (R575): Flow below 3.0 L/min for 5 s reports once per episode. -/
  | coolantFlowLow (flow : Nat)
  /-- MGMT_BUS_FAULT (R581): A stuck line or 16 parity failures reset the I3C target. -/
  | mgmtBusFault (parity : Bool)
  /-- ENTDAA (R577): The module takes its I3C dynamic address. -/
  | entdaa (addr : Nat)
  /-- POLL_FOR_PLATFORM_EVENT_MESSAGE (R577): The bus owner collects a pending PLDM event. -/
  | pollForPlatformEventMessage
  /-- DEVICE_CAP (R467): PLDM effecter setting the rack cap. -/
  | deviceCap (watts : Nat)
  /-- CAP_LEASE (R468): PLDM effecter setting the cap lease. -/
  | capLease (seconds : Nat)
  /-- FALLBACK (R578): PLDM effecter setting the fallback cap. -/
  | fallback (watts : Nat)
  /-- LOCATION (R578): PLDM effecter supplying the device identity. -/
  | location (id : Nat)
  /-- RESTART_WARM (R578): PLDM RESTART state 1 makes a warm restart. -/
  | restartWarm
  /-- RESTART_COLD (R578): PLDM RESTART state 2 makes a cold start. -/
  | restartCold
  /-- WITHDRAW (R578): PLDM effecter requesting a withdraw as a button press. -/
  | withdraw (state : Nat)
  /-- IDENTIFY (R578): PLDM effecter switching the identify indication. -/
  | identify (state : Nat)
  /-- FAB_CAP (R578): PLDM effecter accepting or refusing fabric caps. -/
  | fabCap (state : Nat)
  /-- RECOVERY_LEDGER_READ (R580): Vendor command reading a ledger entry. -/
  | recoveryLedgerRead (n : Nat)
  /-- RECOVERY_FAULT_READ (R580): Vendor command reading device-ring or held fault records. -/
  | recoveryFaultRead (n : Nat)
  /-- RECOVERY_FW_PIECE (R580): Vendor command delivering a firmware image piece in safe mode. -/
  | recoveryFwPiece (offset : Nat) (data : List Byte)
  /-- RECOVERY_KEY_READ (R580): Vendor command reading key slots and the certificate chain. -/
  | recoveryKeyRead (piece : Nat)
  /-- RECOVERY_RESTART (R580): Vendor command requesting a warm, cold or clear-safe-then-cold restart. -/
  | recoveryRestart (kind : Nat)
  /-- FAB_TIME_HI_WRITE (R462): A write to FAB_TIME_HI commits the held low half and this half into FAB_TIME on the master only, and the master's first commit sets FAB_TIME_CFG.VALID. -/
  | fabTimeHiWrite (agent value : Nat)
  /-- SENSOR_IGNORED (R483): A temperature sensor reading outside −40..150 °C or more than 20 °C from its die's median is ignored and reported, and a die whose sensors are all ignored becomes blind and is held at P7 or tripped. -/
  | sensorIgnored (die : Nat) (readings : List Int)
  /-- BOOT_STEP_LIMIT (R510): A boot step whose time limit expires without its condition being met, such as S10 with no host link within 1 s, ends FAIL. -/
  | bootStepLimit
  /-- SET_ENDPOINT_ID (R577): The bus owner's MCTP control message assigns the module its endpoint ID, shown in MOD_MGMT.EID. -/
  | setEndpointId (eid : Nat)
  /-- UNKNOWN_MESSAGE_TYPE (R436): A fabric message whose TYPE is not defined is discarded at its destination and counted in FAB_REJECT_CNT.TYPE. -/
  | unknownMessageType (k : Nat) (m : FabMsg) (crc : Bool)
  /-- UNMAPPED_REGISTER_READ (R351): A servitor or gaffer register-path read of an unmapped address returns zero and reports PKG_UNMAPPED. -/
  | unmappedRegisterRead (agent a : Nat)
  deriving DecidableEq, Repr

end Sys2Proof
end

