-- ==== Sys2Proof/Decode.lean ====
section
/-! DEFINITION. The command a word spells by the table's bits. No row of the command table gives its command any bits: the commands
are register accesses, bus messages and events. The words of the sequencers' own programs are read where they are dispatched and
issued (Machine/Operands.lean, Machine/Issue.lean). -/

namespace Sys2Proof

/-- The command that a word of `nbits` bits spells: none, since the table gives no row any bits. -/
def decodeTableWord (_nbits _w : Nat) : Option Instr := none

end Sys2Proof
end

