-- ==== Sys2Proof/Config.lean ====
section
/-! DEFINITION. What one unit fixes for good and what the spec leaves open: opaque constants, so that nothing in Lean can
evaluate them or prove a value of them. -/

namespace Sys2Proof.Config

/-- The unit's serial number in BCD digits (R46: DEV_SERIAL, reset "per unit"). -/
opaque serialBcd : Nat

/-- A value that the spec leaves open, one for each use: the step applies it to the state's free-value counter
(DESIGN CHOICE, assumption log 5). -/
opaque freeWord : Nat → BitVec 64

/-- The outcome of the ECDSA P-384 check of R380 and R504 over a key, a signed digest and a signature. The spec names the
algorithm and leaves its bytes to its standard (DESIGN CHOICE, assumption log 12). -/
opaque signatureOk : (key : Nat) → (digest : Nat) → (signature : Nat) → Bool

/-- The SHA-384 digest of a byte string, as the standard that the spec names defines it (DESIGN CHOICE, assumption log 12). -/
opaque sha384 : List (BitVec 8) → Nat

/-- The ECDSA signature that the attestation key of this unit makes over a digest (R509). -/
opaque attestSign : Nat → Nat

/-- The low result bits of the vector unit's exponential, where R236 bounds the error and names no rounding
(DESIGN CHOICE, assumption log 30). -/
opaque expChoice : BitVec 32 → BitVec 32

/-- A result of the vector unit that the spec does not state, as a fixed function of the operation and its operands
(DESIGN CHOICE, assumption log 32): the maximum of zeros of opposite signs, a conversion of a block whose scale is 0xFF, a scale that the
format cannot hold. -/
opaque vecOpen : Nat → BitVec 32 → BitVec 32 → BitVec 32

/-- The row sum of INT32 elements where a partial sum leaves 32 bits, which R237 does not state (DESIGN CHOICE, assumption log 32). -/
opaque rowSumOpen : List (BitVec 32) → BitVec 32

/-- The SOURCE of a record of the host interface, which R524 does not list (DESIGN CHOICE, assumption log 42). -/
opaque hostSource : Nat

/-- The device row that holds a 64-byte block of a tier, which the spec does not lay out (R403, DESIGN CHOICE, assumption log 47). -/
opaque tierRow : Nat → Nat

/-- Where the scale bytes of a collective's blocks begin, from the command's address, its block count and its element width; the
spec gives the address of the payload alone (R456, DESIGN CHOICE, assumption log 49). -/
opaque collScales : (addr count width : Nat) → Nat

/-- The AOP of a queued atomic, from its 64-byte slot, in which the spec gives it no place (R456, R459, DESIGN CHOICE, assumption log 49). -/
opaque collAop : List (BitVec 8) → Nat

/-- The code that PWR_DIE_STATUS.LIMIT shows for a blind die held at P7, for which R472 has none (DESIGN CHOICE, assumption log 61). -/
opaque blindLimit : Nat

/-- The ECDSA P-384 check of a firmware image: a digest and a signature, against the firmware keys that the ROM and its fuse leave
valid (R506, DESIGN CHOICE, assumption log 12). -/
opaque firmwareOk : (digest : Nat) → (signature : Nat) → Bool

/-- The measurement of the ROM (R509: M0). -/
opaque romDigest : Nat

/-- The measurement of the key table, from its slots, minima and counter; the spec does not lay the table out (R509: M3, assumption
log 12). -/
opaque keyTableDigest : List Nat → Nat

/-- The device certificate chain, 16 KiB, by byte (R501, R505). -/
opaque certByte : Nat → BitVec 8

end Sys2Proof.Config
end

