-- ==== Sys2Proof/Machine/Arith.lean ====
section
/-! DEFINITION. The number rules that the units share: rounding, block scales, requantization, the rounding generator,
little-endian fields and CRC-32C. -/

namespace Sys2Proof

/-- `n` read as a two's complement number of `w` bits. -/
def signed (w n : Nat) : Int :=
  if 2 ^ w ≤ 2 * (n % 2 ^ w) then (n % 2 ^ w : Nat) - (2 ^ w : Nat) else (n % 2 ^ w : Nat)

/-- The two's complement pattern of `x` in `w` bits. -/
def pattern (w : Nat) (x : Int) : Nat := (x % (2 ^ w : Nat)).toNat

/-- bitlen of R67: the number of binary digits, 0 for 0. -/
def bitlen (n : Nat) : Nat := if n = 0 then 0 else Nat.log2 n + 1

/-- sbits of R67. -/
def sbits (v : Int) : Nat := if 0 ≤ v then bitlen v.toNat + 1 else bitlen (-v - 1).toNat + 1

/-- RNE of x by s bits (R70): to nearest, ties to even; x itself for s = 0. -/
def rne (x : Int) (s : Nat) : Int :=
  if s = 0 then x
  else
    let q := x.fdiv (2 ^ s : Nat)
    let f := x - q * (2 ^ s : Nat)
    let half : Int := (2 ^ (s - 1) : Nat)
    if f < half then q else if f > half then q + 1 else if q % 2 = 0 then q else q + 1

/-- RNE of the quotient of x by a positive n (R119: mean pooling). -/
def rneDiv (x : Int) (n : Nat) : Int :=
  let q := x.fdiv n
  let f := x - q * n
  if 2 * f < n then q else if 2 * f > n then q + 1 else if q % 2 = 0 then q else q + 1

/-- Stochastic rounding of x by s bits with the 16-bit draw u (R70). -/
def stochastic (x : Int) (s u : Nat) : Int :=
  if s = 0 then x
  else
    let q := x.fdiv (2 ^ s : Nat)
    let f := (x - q * (2 ^ s : Nat)).toNat
    let g := if s ≤ 16 then f * 2 ^ (16 - s) else f / 2 ^ (s - 16)
    if u < g then q + 1 else q

/-- x times 2^r, rounded to nearest even where r is negative (R65). -/
def scaleBy (x : Int) (r : Int) : Int :=
  if 0 ≤ r then x * (2 ^ r.toNat : Nat) else rne x (-r).toNat

/-- A value clamped to `lo`..`hi`, with whether it was clamped. -/
def clampTo (lo hi x : Int) : Int × Bool :=
  if x < lo then (lo, true) else if hi < x then (hi, true) else (x, false)

/-- Saturation to 32 bits (R66). -/
def sat32 (x : Int) : Int × Bool := clampTo (-(2 ^ 31)) (2 ^ 31 - 1) x

/-- The lowest and highest value of an n-bit format, signed or unsigned (R53). -/
def fmtLo (sg : Bool) (a : Nat) : Int := if sg then -(2 ^ (a - 1) : Nat) else 0
def fmtHi (sg : Bool) (a : Nat) : Int := if sg then (2 ^ (a - 1) : Nat) - 1 else (2 ^ a : Nat) - 1

/-- One draw of a substream: the next state and the 16-bit value (R72). -/
def prngDraw (x : DWord) : DWord × Nat :=
  let x1 := x ^^^ (x <<< 13)
  let x2 := x1 ^^^ (x1 >>> 7)
  let x3 := x2 ^^^ (x2 <<< 17)
  (x3, (x3 >>> 48).toNat)

/-- The state of a substream after n draws. -/
def prngSkip : Nat → DWord → DWord
  | 0, x => x
  | n + 1, x => prngSkip n (prngDraw x).1

/-- The seed of substream k of a bench of logical index l under partition seed sd (R73). -/
def prngSeed (sd : DWord) (l k : Nat) : DWord :=
  let z := (sd ^^^ (BitVec.ofNat 64 (l % 65536) <<< 8) ^^^ BitVec.ofNat 64 k) + 0x9E3779B97F4A7C15#64
  let z := (z ^^^ (z >>> 30)) * 0xBF58476D1CE4E5B9#64
  let z := (z ^^^ (z >>> 27)) * 0x94D049BB133111EB#64
  let z := z ^^^ (z >>> 31)
  if z = 0#64 then 1#64 else z

/-- The shift s of one output block and whether a negative value was replaced (R67). -/
def blockShift (sg : Bool) (a : Nat) (vs : List Int) : Nat :=
  if sg then (vs.foldl (fun m v => max m (sbits v)) 0) - a
  else (vs.foldl (fun m v => max m (bitlen v.toNat)) 0) - a

/-- One element rounded by s, the draw being none under RNE, and clamped to the output range (R67, R68). -/
def roundElem (sg : Bool) (a s : Nat) (u : Option Nat) (v : Int) : Int × Bool :=
  let v' := if sg then v else max v 0
  let r := match u with
    | none => rne v' s
    | some d => stochastic v' s d
  let c := clampTo (fmtLo sg a) (fmtHi sg a) r
  (c.1, c.2 || (!sg && decide (v < 0)))

/-- Byte i of a number. -/
def byteOf (n i : Nat) : Byte := BitVec.ofNat 8 (n / 2 ^ (8 * i))

/-- The bytes of a number, lowest first. -/
def leBytes : Nat → Nat → List Byte
  | 0, _ => []
  | k + 1, n => BitVec.ofNat 8 n :: leBytes k (n / 256)

/-- The number that bytes spell, lowest first. -/
def ofBytes : List Byte → Nat
  | [] => 0
  | b :: r => b.toNat + 256 * ofBytes r

/-- One bit of CRC-32C, reflected. -/
def crcBit (c : Nat) : Nat := if c % 2 = 1 then (c / 2) ^^^ 0x82F63B78 else c / 2

/-- One byte of CRC-32C. -/
def crcByte (c : Nat) (b : Byte) : Nat :=
  crcBit (crcBit (crcBit (crcBit (crcBit (crcBit (crcBit (crcBit (c ^^^ b.toNat))))))))

/-- CRC-32C of a byte string (Castagnoli polynomial, all ones in and out). -/
def crc32c (bs : List Byte) : Nat := (bs.foldl crcByte 0xFFFFFFFF) ^^^ 0xFFFFFFFF

/-- d = (r - a) mod 2^32 (R279). -/
def serialDist (r a : Nat) : Nat := (r + 2 ^ 32 - a % 2 ^ 32) % 2 ^ 32

/-- The smallest integer not below n / d. -/
def ceilDiv (n d : Nat) : Nat := (n + d - 1) / d

/-- A list of numbers n, n + 1, …, of length k. -/
def upFrom (n k : Nat) : List Nat := (List.range k).map (n + ·)

end Sys2Proof
end

