-- ==== Sys2Proof/Machine/Regs.lean ====
section
/-! DEFINITION. The register fields of the register maps, one definition per field: block, offset, lowest bit, width,
access type (R18) and reset value, as each chapter's register map gives them. A register whose map says that its reset comes
from the batch image, from the store or per unit carries 0 here (DESIGN CHOICE, assumption log 3) until the load, the store or the unit gives it. -/

namespace Sys2Proof

/-- The register blocks of the address map (R352 to R355). `bench` holds the bench registers that no unit block holds,
`dreg` the bandwidth regulator of a die, `host` the function pages (R553). -/
inductive Blk where
  | dev
  | boot
  | batch
  | part
  | pwr
  | therm
  | vr
  | flt
  | host
  | mod
  | cane
  | fab
  | memb
  | noc
  | pkg
  | dreg
  | mema
  | bench
  | par
  | pot
  | sparse
  | upd
  | jack
  | spad
  | seq
  | dma
  | pq
  deriving DecidableEq, Repr

/-- The number of a block in a field's key. -/
def Blk.num : Blk → Nat
  | .dev => 0
  | .boot => 1
  | .batch => 2
  | .part => 3
  | .pwr => 4
  | .therm => 5
  | .vr => 6
  | .flt => 7
  | .host => 8
  | .mod => 9
  | .cane => 10
  | .fab => 11
  | .memb => 12
  | .noc => 13
  | .pkg => 14
  | .dreg => 15
  | .mema => 16
  | .bench => 17
  | .par => 18
  | .pot => 19
  | .sparse => 20
  | .upd => 21
  | .jack => 22
  | .spad => 23
  | .seq => 24
  | .dma => 25
  | .pq => 26

/-- The access types of R18. -/
inductive Access where
  | ro | rw | w1c | rc | wo | rwg
  deriving DecidableEq, Repr

/-- One field of one register. -/
structure Field where
  blk : Blk
  /-- offset of its register in the block -/
  off : Nat
  /-- lowest bit -/
  lo : Nat
  /-- width in bits -/
  w : Nat
  acc : Access
  /-- reset value -/
  rst : Nat
  deriving DecidableEq, Repr

/-- The number of a field, apart from any other field's. -/
def Field.base (f : Field) : Nat := (f.blk.num * 4096 + f.off % 4096) * 32 + f.lo % 32

/-- The key of field `f` of instance `i` of its block, entry `j` of its selector. -/
def Field.key (f : Field) (i j : Nat) : Nat := (f.base * 1048576 + i % 1048576) * 1048576 + j % 1048576

namespace Reg

/-- DEV_ID_PART_CODE (R46): ISB-H25. -/
def DEV_ID_PART_CODE : Field := ⟨.dev, 0x0, 16, 16, .ro, 2853⟩
/-- DEV_ID_STEP_LETTER (R46): A. -/
def DEV_ID_STEP_LETTER : Field := ⟨.dev, 0x0, 4, 4, .ro, 0⟩
/-- DEV_ID_STEP_DIGIT (R46): 0. -/
def DEV_ID_STEP_DIGIT : Field := ⟨.dev, 0x0, 0, 4, .ro, 0⟩
/-- DEV_SERIAL_LO_SERIAL_BCD_LO (R46): serial digits 8 to 1, in BCD, with digit 1 in bits 3:0. Reset: per unit. -/
def DEV_SERIAL_LO_SERIAL_BCD_LO : Field := ⟨.dev, 0x4, 0, 32, .ro, 0⟩
/-- DEV_SERIAL_HI_SERIAL_BCD_HI (R46): serial digits 10 and 9, in BCD. Reset: per unit. -/
def DEV_SERIAL_HI_SERIAL_BCD_HI : Field := ⟨.dev, 0x8, 0, 8, .ro, 0⟩
/-- DEV_ARCH_ARCH_MAJOR (R46): Isirbin architecture major revision. -/
def DEV_ARCH_ARCH_MAJOR : Field := ⟨.dev, 0xC, 8, 8, .ro, 1⟩
/-- DEV_ARCH_ARCH_MINOR (R46): Isirbin architecture minor revision. -/
def DEV_ARCH_ARCH_MINOR : Field := ⟨.dev, 0xC, 0, 8, .ro, 0⟩
/-- DEV_DIES_GRID_ROWS (R46): furnace grid rows. -/
def DEV_DIES_GRID_ROWS : Field := ⟨.dev, 0x10, 28, 4, .ro, 4⟩
/-- DEV_DIES_GRID_COLS (R46): furnace grid columns. -/
def DEV_DIES_GRID_COLS : Field := ⟨.dev, 0x10, 24, 4, .ro, 4⟩
/-- DEV_DIES_FURNACE (R46): furnace dies. -/
def DEV_DIES_FURNACE : Field := ⟨.dev, 0x10, 16, 8, .ro, 16⟩
/-- DEV_DIES_PORT (R46): port dies. -/
def DEV_DIES_PORT : Field := ⟨.dev, 0x10, 8, 4, .ro, 4⟩
/-- DEV_DIES_ANNEX (R46): annex dies. -/
def DEV_DIES_ANNEX : Field := ⟨.dev, 0x10, 4, 4, .ro, 4⟩
/-- DEV_DIES_CONTROL (R46): control dies. -/
def DEV_DIES_CONTROL : Field := ⟨.dev, 0x10, 0, 4, .ro, 1⟩
/-- DEV_BENCH_BENCH_ROWS (R46): bench rows per die. -/
def DEV_BENCH_BENCH_ROWS : Field := ⟨.dev, 0x14, 24, 8, .ro, 16⟩
/-- DEV_BENCH_BENCH_COLS (R46): bench columns per die. -/
def DEV_BENCH_BENCH_COLS : Field := ⟨.dev, 0x14, 16, 8, .ro, 10⟩
/-- DEV_BENCH_BENCHES (R46): benches per die. -/
def DEV_BENCH_BENCHES : Field := ⟨.dev, 0x14, 0, 16, .ro, 160⟩
/-- DEV_POT_POTS (R46): pots per bench. -/
def DEV_POT_POTS : Field := ⟨.dev, 0x18, 24, 8, .ro, 16⟩
/-- DEV_POT_SPARSE_FIRST (R46): lowest sparse-capable pot index. -/
def DEV_POT_SPARSE_FIRST : Field := ⟨.dev, 0x18, 16, 8, .ro, 12⟩
/-- DEV_POT_SPARSE_COUNT (R46): sparse-capable pots per bench. -/
def DEV_POT_SPARSE_COUNT : Field := ⟨.dev, 0x18, 8, 8, .ro, 4⟩
/-- DEV_POT_SEGMENTS (R46): word-line segments per pot. -/
def DEV_POT_SEGMENTS : Field := ⟨.dev, 0x18, 0, 8, .ro, 8⟩
/-- DEV_POT_GEOM_ROWS (R46): pot rows. -/
def DEV_POT_GEOM_ROWS : Field := ⟨.dev, 0x1C, 16, 16, .ro, 1024⟩
/-- DEV_POT_GEOM_DATA_COLS (R46): pot data columns. -/
def DEV_POT_GEOM_DATA_COLS : Field := ⟨.dev, 0x1C, 0, 16, .ro, 1024⟩
/-- DEV_POT_COLS_ROW_GROUP (R46): rows active per cycle. -/
def DEV_POT_COLS_ROW_GROUP : Field := ⟨.dev, 0x20, 16, 8, .ro, 32⟩
/-- DEV_POT_COLS_WITNESS (R46): witness columns per pot. -/
def DEV_POT_COLS_WITNESS : Field := ⟨.dev, 0x20, 8, 8, .ro, 32⟩
/-- DEV_POT_COLS_SPARE (R46): spare columns per pot. -/
def DEV_POT_COLS_SPARE : Field := ⟨.dev, 0x20, 0, 8, .ro, 16⟩
/-- DEV_PAR_ROWS (R46): parison rows. -/
def DEV_PAR_ROWS : Field := ⟨.dev, 0x24, 20, 12, .ro, 512⟩
/-- DEV_PAR_COL_PAIRS (R46): parison data column pairs. -/
def DEV_PAR_COL_PAIRS : Field := ⟨.dev, 0x24, 8, 12, .ro, 256⟩
/-- DEV_PAR_ACTIVE_ROWS (R46): maximum rows active in one comparison. -/
def DEV_PAR_ACTIVE_ROWS : Field := ⟨.dev, 0x24, 0, 8, .ro, 128⟩
/-- DEV_SPAD_BANKS (R46): scratchpad banks. -/
def DEV_SPAD_BANKS : Field := ⟨.dev, 0x28, 24, 8, .ro, 12⟩
/-- DEV_SPAD_SLOT_KIB (R46): slot size in KiB. -/
def DEV_SPAD_SLOT_KIB : Field := ⟨.dev, 0x28, 16, 8, .ro, 1⟩
/-- DEV_SPAD_SLOTS (R46): scratchpad slots. -/
def DEV_SPAD_SLOTS : Field := ⟨.dev, 0x28, 0, 16, .ro, 384⟩
/-- DEV_SEQ_IMEM (R46): instruction memory, in 64-bit instructions. -/
def DEV_SEQ_IMEM : Field := ⟨.dev, 0x2C, 16, 16, .ro, 4096⟩
/-- DEV_SEQ_INFLIGHT (R46): instructions in flight per bench. -/
def DEV_SEQ_INFLIGHT : Field := ⟨.dev, 0x2C, 8, 8, .ro, 64⟩
/-- DEV_SEQ_LOOP_REGS (R46): loop registers. -/
def DEV_SEQ_LOOP_REGS : Field := ⟨.dev, 0x2C, 4, 4, .ro, 8⟩
/-- DEV_MEM_HBM_STACKS (R46): tier-A stacks. -/
def DEV_MEM_HBM_STACKS : Field := ⟨.dev, 0x30, 24, 8, .ro, 8⟩
/-- DEV_MEM_TIERB_PKGS (R46): tier-B packages. -/
def DEV_MEM_TIERB_PKGS : Field := ⟨.dev, 0x30, 16, 8, .ro, 24⟩
/-- DEV_MEM_SIZE_TIERB_GIB (R46): tier-B capacity in GiB. -/
def DEV_MEM_SIZE_TIERB_GIB : Field := ⟨.dev, 0x34, 16, 16, .ro, 1536⟩
/-- DEV_MEM_SIZE_TIERA_GIB (R46): tier-A capacity in GiB. -/
def DEV_MEM_SIZE_TIERA_GIB : Field := ⟨.dev, 0x34, 0, 16, .ro, 512⟩
/-- DEV_FABRIC_CANES (R46): canes. -/
def DEV_FABRIC_CANES : Field := ⟨.dev, 0x38, 24, 8, .ro, 36⟩
/-- DEV_FABRIC_LANES (R46): lanes per cane. -/
def DEV_FABRIC_LANES : Field := ⟨.dev, 0x38, 16, 8, .ro, 8⟩
/-- DEV_FABRIC_MAX_DEVICES (R46): largest system. -/
def DEV_FABRIC_MAX_DEVICES : Field := ⟨.dev, 0x38, 0, 16, .ro, 512⟩
/-- DEV_INFLIGHT_REMOTE (R46): remote transactions in flight per device. -/
def DEV_INFLIGHT_REMOTE : Field := ⟨.dev, 0x3C, 16, 16, .ro, 8192⟩
/-- DEV_INFLIGHT_DMA_PER_DIE (R46): DMA transfers in flight per furnace die. -/
def DEV_INFLIGHT_DMA_PER_DIE : Field := ⟨.dev, 0x3C, 0, 16, .ro, 2048⟩
/-- DEV_LOCATION_VALID (R46): 1: ID holds this device's identity. -/
def DEV_LOCATION_VALID : Field := ⟨.dev, 0x40, 31, 1, .rwg, 0⟩
/-- DEV_LOCATION_X (R46): torus x coordinate. -/
def DEV_LOCATION_X : Field := ⟨.dev, 0x40, 6, 3, .rwg, 0⟩
/-- DEV_LOCATION_Y (R46): torus y coordinate. -/
def DEV_LOCATION_Y : Field := ⟨.dev, 0x40, 3, 3, .rwg, 0⟩
/-- DEV_LOCATION_Z (R46): torus z coordinate. -/
def DEV_LOCATION_Z : Field := ⟨.dev, 0x40, 0, 3, .rwg, 0⟩
/-- BENCH_PRNG_SEL_SUBSTREAM (R76): substream that the state registers address; values 17–31 make them read zero and ignore writes. -/
def BENCH_PRNG_SEL_SUBSTREAM : Field := ⟨.bench, 0xC0, 0, 5, .rw, 0⟩
/-- BENCH_PRNG_STATE_LO_STATE_LO (R76): state bits 31:0; a read captures all 64 bits of the selected state. Reset: seeded per R73. -/
def BENCH_PRNG_STATE_LO_STATE_LO : Field := ⟨.bench, 0xC4, 0, 32, .rw, 0⟩
/-- BENCH_PRNG_STATE_HI_STATE_HI (R76): a read returns bits 63:32 of the state captured by the last STATE_LO read; a write commits the held STATE_LO value and this value together. Reset: seeded per R73. -/
def BENCH_PRNG_STATE_HI_STATE_HI : Field := ⟨.bench, 0xC8, 0, 32, .rw, 0⟩
/-- BENCH_PRNG_ID_LOGICAL (R76): logical index L, as set by the batch image. Reset: global bench number. -/
def BENCH_PRNG_ID_LOGICAL : Field := ⟨.bench, 0xCC, 0, 16, .ro, 0⟩
/-- POT_CFG_ROLE (R125): 0b00 weight, 0b01 working, 0b10 sparse, 0b11 forward-only. Reset: from batch image. -/
def POT_CFG_ROLE : Field := ⟨.pot, 0x0, 30, 2, .ro, 0⟩
/-- POT_CFG_SPARSE_CAP (R125): pot can hold 2:4-compressed sets. -/
def POT_CFG_SPARSE_CAP : Field := ⟨.pot, 0x0, 29, 1, .ro, 1⟩
/-- POT_CFG_XPOSE_CAP (R125): pot has row-direction counters. -/
def POT_CFG_XPOSE_CAP : Field := ⟨.pot, 0x0, 28, 1, .ro, 1⟩
/-- POT_CFG_VALID (R125): 1: a complete weight set is loaded (R121). -/
def POT_CFG_VALID : Field := ⟨.pot, 0x0, 27, 1, .ro, 0⟩
/-- POT_CFG_WFMT (R125): format of the loaded set, encoded as the descriptor's WFMT. -/
def POT_CFG_WFMT : Field := ⟨.pot, 0x0, 24, 3, .ro, 0⟩
/-- POT_STATUS_BUSY (R125): 1: an instruction is executing. -/
def POT_STATUS_BUSY : Field := ⟨.pot, 0x4, 31, 1, .ro, 0⟩
/-- POT_STATUS_FAULT_HOLD (R125): 1: stopped on a fault (R123). -/
def POT_STATUS_FAULT_HOLD : Field := ⟨.pot, 0x4, 30, 1, .ro, 0⟩
/-- POT_STATUS_POOL_CNT (R125): members held in the open pooling window. -/
def POT_STATUS_POOL_CNT : Field := ⟨.pot, 0x4, 27, 3, .ro, 0⟩
/-- POT_STATUS_SAT (R125): sticky saturation flag (R66). -/
def POT_STATUS_SAT : Field := ⟨.pot, 0x4, 23, 1, .w1c, 0⟩
/-- POT_STATUS_FLUSH (R125): sticky flush flag (R59). -/
def POT_STATUS_FLUSH : Field := ⟨.pot, 0x4, 22, 1, .w1c, 0⟩
/-- POT_STATUS_CLAMP (R125): sticky clamp flag (R67, R68). -/
def POT_STATUS_CLAMP : Field := ⟨.pot, 0x4, 21, 1, .w1c, 0⟩
/-- POT_STATUS_LAST_FAULT (R125): code of the last fault this pot raised; 0 if none since reset. -/
def POT_STATUS_LAST_FAULT : Field := ⟨.pot, 0x4, 0, 16, .ro, 0⟩
/-- POT_CTRL_POOL_ABORT (R125): 1: close the open pooling window and discard the pool buffer (R123). -/
def POT_CTRL_POOL_ABORT : Field := ⟨.pot, 0x8, 0, 1, .wo, 0⟩
/-- POT_FLUSH_CNT_COUNT (R125): event count, saturating at 0xFFFF_FFFF. -/
def POT_FLUSH_CNT_COUNT : Field := ⟨.pot, 0xC, 0, 32, .rc, 0⟩
/-- POT_FRZ_FEED_COUNT (R125): event count, saturating at 0xFFFF_FFFF. -/
def POT_FRZ_FEED_COUNT : Field := ⟨.pot, 0x10, 0, 32, .rc, 0⟩
/-- POT_FRZ_BACK_COUNT (R125): event count, saturating at 0xFFFF_FFFF. -/
def POT_FRZ_BACK_COUNT : Field := ⟨.pot, 0x14, 0, 32, .rc, 0⟩
/-- POT_FRZ_RETRY_COUNT (R125): event count, saturating at 0xFFFF_FFFF. -/
def POT_FRZ_RETRY_COUNT : Field := ⟨.pot, 0x18, 0, 32, .rc, 0⟩
/-- POT_MASK_WAIT_COUNT (R125): event count, saturating at 0xFFFF_FFFF. -/
def POT_MASK_WAIT_COUNT : Field := ⟨.pot, 0x1C, 0, 32, .rc, 0⟩
/-- POT_PASS_CNT_COUNT (R125): event count, saturating at 0xFFFF_FFFF. -/
def POT_PASS_CNT_COUNT : Field := ⟨.pot, 0x20, 0, 32, .rc, 0⟩
/-- POT_STEP_CNT_COUNT (R125): event count, saturating at 0xFFFF_FFFF. -/
def POT_STEP_CNT_COUNT : Field := ⟨.pot, 0x24, 0, 32, .rc, 0⟩
/-- POT_INTEG_SUSPECT (R149): 1: lasting fault, storm or slice failure pending repair. -/
def POT_INTEG_SUSPECT : Field := ⟨.pot, 0x28, 31, 1, .ro, 0⟩
/-- POT_INTEG_RETIRED (R149): 1: pot retired (R140). -/
def POT_INTEG_RETIRED : Field := ⟨.pot, 0x28, 30, 1, .ro, 0⟩
/-- POT_INTEG_SHADOW_OK (R149): 1: POT_SHADOW is valid (R141). -/
def POT_INTEG_SHADOW_OK : Field := ⟨.pot, 0x28, 29, 1, .ro, 0⟩
/-- POT_INTEG_ST_ACTIVE (R149): 1: a slice is running. -/
def POT_INTEG_ST_ACTIVE : Field := ⟨.pot, 0x28, 28, 1, .ro, 0⟩
/-- POT_INTEG_ST_KIND (R149): 0b00 none; 0b01 in-service; 0b10 targeted; 0b11 boot S7. -/
def POT_INTEG_ST_KIND : Field := ⟨.pot, 0x28, 26, 2, .ro, 0⟩
/-- POT_INTEG_ST_PENDING (R149): 1: a slice is requested or deferred. -/
def POT_INTEG_ST_PENDING : Field := ⟨.pot, 0x28, 25, 1, .ro, 0⟩
/-- POT_INTEG_CULLET_USED (R149): cullet-list entries in use, 0–16. -/
def POT_INTEG_CULLET_USED : Field := ⟨.pot, 0x28, 20, 5, .ro, 0⟩
/-- POT_INTEG_NFF (R149): targeted slices that found no bad element, saturating at 255 (R142). -/
def POT_INTEG_NFF : Field := ⟨.pot, 0x28, 8, 8, .ro, 0⟩
/-- POT_WIT_CNT_TRANSIENT (R149): transient events, saturating at 0xFFFF. -/
def POT_WIT_CNT_TRANSIENT : Field := ⟨.pot, 0x2C, 16, 16, .rc, 0⟩
/-- POT_WIT_CNT_UNCHECKED (R149): passes with an unchecked segment (R133), saturating at 0xFFFF. -/
def POT_WIT_CNT_UNCHECKED : Field := ⟨.pot, 0x2C, 0, 16, .rc, 0⟩
/-- POT_WIT_INFO_LASTING (R149): 1: the retry of this mismatch also failed. -/
def POT_WIT_INFO_LASTING : Field := ⟨.pot, 0x30, 31, 1, .ro, 0⟩
/-- POT_WIT_INFO_MODE (R149): 0 forward, or an update sweep's row read; 1 transposed. -/
def POT_WIT_INFO_MODE : Field := ⟨.pot, 0x30, 30, 1, .ro, 0⟩
/-- POT_WIT_INFO_SEGMENT (R149): lowest failing segment (R131); in transposed mode, the failing window ÷ 4. -/
def POT_WIT_INFO_SEGMENT : Field := ⟨.pot, 0x30, 27, 3, .ro, 0⟩
/-- POT_WIT_INFO_GROUP (R149): row group or window; for a sweep's row read, the row ÷ 32. -/
def POT_WIT_INFO_GROUP : Field := ⟨.pot, 0x30, 22, 5, .ro, 0⟩
/-- POT_WIT_INFO_STEP (R149): bit step j of the first failing pair; 0 when LEVEL = 1. -/
def POT_WIT_INFO_STEP : Field := ⟨.pot, 0x30, 19, 3, .ro, 0⟩
/-- POT_WIT_INFO_EXPECT (R149): witness-side residue; for a sweep's row read, the stored row witness. -/
def POT_WIT_INFO_EXPECT : Field := ⟨.pot, 0x30, 15, 4, .ro, 0⟩
/-- POT_WIT_INFO_SEEN (R149): data-side residue; for a sweep's row read, the row witness recomputed from the row. -/
def POT_WIT_INFO_SEEN : Field := ⟨.pot, 0x30, 11, 4, .ro, 0⟩
/-- POT_WIT_INFO_LEVEL (R149): 0 bit-step pair; 1 sum pair, or a sweep's row read. -/
def POT_WIT_INFO_LEVEL : Field := ⟨.pot, 0x30, 10, 1, .ro, 0⟩
/-- POT_WIT_INFO_SWEEP (R149): 1: the mismatch is a sweep's row read (R215). -/
def POT_WIT_INFO_SWEEP : Field := ⟨.pot, 0x30, 9, 1, .ro, 0⟩
/-- POT_WIT_INFO_ROW (R149): for a sweep's row read, the row mod 32; otherwise 0. -/
def POT_WIT_INFO_ROW : Field := ⟨.pot, 0x30, 4, 5, .ro, 0⟩
/-- POT_CULLET_SEL (R149): entry that bits 15:2 show. -/
def POT_CULLET_SEL : Field := ⟨.pot, 0x34, 28, 4, .rw, 0⟩
/-- POT_CULLET_VALID (R149): 1: entry in use. -/
def POT_CULLET_VALID : Field := ⟨.pot, 0x34, 15, 1, .ro, 0⟩
/-- POT_CULLET_SEGMENT (R149): segment. -/
def POT_CULLET_SEGMENT : Field := ⟨.pot, 0x34, 12, 3, .ro, 0⟩
/-- POT_CULLET_COLUMN (R149): physical column within the segment, 0–131; 132 or 133 for a barred spare (R140). -/
def POT_CULLET_COLUMN : Field := ⟨.pot, 0x34, 4, 8, .ro, 0⟩
/-- POT_CULLET_SPARE (R149): spare used, 0 or 1. -/
def POT_CULLET_SPARE : Field := ⟨.pot, 0x34, 3, 1, .ro, 0⟩
/-- POT_CULLET_MARGINAL (R149): 1: passed at divider 2 (R139). -/
def POT_CULLET_MARGINAL : Field := ⟨.pot, 0x34, 2, 1, .ro, 0⟩
/-- POT_SHADOW_ADDR (R149): tier-A address bits 38:7 of the shadow image. -/
def POT_SHADOW_ADDR : Field := ⟨.pot, 0x38, 0, 32, .ro, 0⟩
/-- POT_ST_INFO_AGE (R149): seconds since the last completed slice, saturating at 0xFFFF. -/
def POT_ST_INFO_AGE : Field := ⟨.pot, 0x3C, 16, 16, .ro, 0⟩
/-- POT_ST_INFO_DEFERRALS (R149): deferrals since the last completed slice, saturating at 255. -/
def POT_ST_INFO_DEFERRALS : Field := ⟨.pot, 0x3C, 8, 8, .ro, 0⟩
/-- POT_ST_INFO_RESULT (R149): last slice: 0x0 none; 0x1 pass; 0x2 cullet list changed, by a column remapped or a spare barred; 0x3 retired; 0x4 no fault found. -/
def POT_ST_INFO_RESULT : Field := ⟨.pot, 0x3C, 4, 4, .ro, 0⟩
/-- BENCH_ST_CTRL_REQ (R149): 1: request an in-service slice on pot POT. -/
def BENCH_ST_CTRL_REQ : Field := ⟨.bench, 0x100, 4, 1, .wo, 0⟩
/-- BENCH_ST_CTRL_POT (R149): pot addressed by REQ. -/
def BENCH_ST_CTRL_POT : Field := ⟨.bench, 0x100, 0, 4, .rw, 0⟩
/-- BENCH_ST_STATUS_BUSY (R149): 1: a slice is running on this bench. -/
def BENCH_ST_STATUS_BUSY : Field := ⟨.bench, 0x104, 31, 1, .ro, 0⟩
/-- BENCH_ST_STATUS_POT (R149): pot in the running slice. -/
def BENCH_ST_STATUS_POT : Field := ⟨.bench, 0x104, 27, 4, .ro, 0⟩
/-- BENCH_ST_STATUS_WINDOW_OK (R149): 1: clock and voltage within the window of R145. -/
def BENCH_ST_STATUS_WINDOW_OK : Field := ⟨.bench, 0x104, 26, 1, .ro, 0⟩
/-- BENCH_ST_WAIT_COUNT (R149): cycles instructions waited for slices, saturating at 0xFFFF_FFFF. -/
def BENCH_ST_WAIT_COUNT : Field := ⟨.bench, 0x108, 0, 32, .rc, 0⟩
/-- PAR_CFG_STALE_POLICY (R175): 0: force masks live while stale; 1: use stale trims (R168). -/
def PAR_CFG_STALE_POLICY : Field := ⟨.par, 0x0, 12, 1, .rw, 0⟩
/-- PAR_CFG_CAL_DTEMP (R175): temperature trigger in °C; 0 acts as 1. -/
def PAR_CFG_CAL_DTEMP : Field := ⟨.par, 0x0, 8, 4, .rw, 4⟩
/-- PAR_CFG_CAL_PERIOD (R175): age trigger in units of 10 ms; values below 10 act as 10. -/
def PAR_CFG_CAL_PERIOD : Field := ⟨.par, 0x0, 0, 8, .rw, 100⟩
/-- PAR_STATUS_BUSY (R175): 1: an instruction or calibration is executing. -/
def PAR_STATUS_BUSY : Field := ⟨.par, 0x4, 31, 1, .ro, 0⟩
/-- PAR_STATUS_FAULT_HOLD (R175): 1: stopped on a fault (R173). -/
def PAR_STATUS_FAULT_HOLD : Field := ⟨.par, 0x4, 30, 1, .ro, 0⟩
/-- PAR_STATUS_CAL_VALID (R175): 1: trims valid. -/
def PAR_STATUS_CAL_VALID : Field := ⟨.par, 0x4, 29, 1, .ro, 0⟩
/-- PAR_STATUS_CAL_STALE (R175): 1: last calibration failed lasting; old trims in use. -/
def PAR_STATUS_CAL_STALE : Field := ⟨.par, 0x4, 28, 1, .ro, 0⟩
/-- PAR_STATUS_CAL_ACTIVE (R175): 1: calibration running. -/
def PAR_STATUS_CAL_ACTIVE : Field := ⟨.par, 0x4, 27, 1, .ro, 0⟩
/-- PAR_STATUS_SETTLE_LEFT (R175): settle comparisons still due, 0–2. -/
def PAR_STATUS_SETTLE_LEFT : Field := ⟨.par, 0x4, 25, 2, .ro, 0⟩
/-- PAR_STATUS_REMAPS (R175): redundant pairs in use, 0–8. -/
def PAR_STATUS_REMAPS : Field := ⟨.par, 0x4, 21, 4, .ro, 0⟩
/-- PAR_STATUS_DEAD (R175): dead data pairs, saturating at 31. -/
def PAR_STATUS_DEAD : Field := ⟨.par, 0x4, 16, 5, .ro, 0⟩
/-- PAR_STATUS_LAST_FAULT (R175): code of the last fault the parison raised; 0 if none since reset. -/
def PAR_STATUS_LAST_FAULT : Field := ⟨.par, 0x4, 0, 16, .ro, 0⟩
/-- PAR_CTRL_CAL_REQ (R175): 1: request calibration (R169). -/
def PAR_CTRL_CAL_REQ : Field := ⟨.par, 0x8, 0, 1, .wo, 0⟩
/-- PAR_CAL_INFO_TEMP (R175): bench temperature at last commit, unsigned, 0.25 °C units. -/
def PAR_CAL_INFO_TEMP : Field := ⟨.par, 0xC, 20, 12, .ro, 0⟩
/-- PAR_CAL_INFO_AGE (R175): ms since last commit, saturating at 0xFFFF. -/
def PAR_CAL_INFO_AGE : Field := ⟨.par, 0xC, 4, 16, .ro, 0⟩
/-- PAR_CAL_INFO_RESULT (R175): last calibration: 0b00 none; 0b01 first attempt; 0b10 second attempt; 0b11 failed lasting. -/
def PAR_CAL_INFO_RESULT : Field := ⟨.par, 0xC, 0, 2, .ro, 0⟩
/-- PAR_TRIM_SEL (R175): pair shown, 0–265; values above 265 show zero. -/
def PAR_TRIM_SEL : Field := ⟨.par, 0x10, 23, 9, .rw, 0⟩
/-- PAR_TRIM_BAD (R175): 1: pair bad at last calibration. -/
def PAR_TRIM_BAD : Field := ⟨.par, 0x10, 7, 1, .ro, 0⟩
/-- PAR_TRIM_TRIM (R175): committed trim, signed, −32..31. -/
def PAR_TRIM_TRIM : Field := ⟨.par, 0x10, 0, 6, .ro, 0⟩
/-- PAR_REMAP_TBL_SEL (R175): redundant pair shown, 0–7. -/
def PAR_REMAP_TBL_SEL : Field := ⟨.par, 0x14, 29, 3, .rw, 0⟩
/-- PAR_REMAP_TBL_VALID (R175): 1: in use. -/
def PAR_REMAP_TBL_VALID : Field := ⟨.par, 0x14, 8, 1, .ro, 0⟩
/-- PAR_REMAP_TBL_PAIR (R175): data pair it replaces. -/
def PAR_REMAP_TBL_PAIR : Field := ⟨.par, 0x14, 0, 8, .ro, 0⟩
/-- PAR_CMP_CNT_COUNT (R175): event count, saturating at 0xFFFF_FFFF; PAR_REF_CNT and PAR_CAL_CNT as below. -/
def PAR_CMP_CNT_COUNT : Field := ⟨.par, 0x18, 0, 32, .rc, 0⟩
/-- PAR_SETTLE_CNT_COUNT (R175): event count, saturating at 0xFFFF_FFFF; PAR_REF_CNT and PAR_CAL_CNT as below. -/
def PAR_SETTLE_CNT_COUNT : Field := ⟨.par, 0x1C, 0, 32, .rc, 0⟩
/-- PAR_CAL_WAIT_COUNT (R175): event count, saturating at 0xFFFF_FFFF; PAR_REF_CNT and PAR_CAL_CNT as below. -/
def PAR_CAL_WAIT_COUNT : Field := ⟨.par, 0x28, 0, 32, .rc, 0⟩
/-- PAR_STALL_COUNT (R175): event count, saturating at 0xFFFF_FFFF; PAR_REF_CNT and PAR_CAL_CNT as below. -/
def PAR_STALL_COUNT : Field := ⟨.par, 0x2C, 0, 32, .rc, 0⟩
/-- PAR_LIVE_CNT_COUNT (R175): event count, saturating at 0xFFFF_FFFF; PAR_REF_CNT and PAR_CAL_CNT as below. -/
def PAR_LIVE_CNT_COUNT : Field := ⟨.par, 0x30, 0, 32, .rc, 0⟩
/-- POT_SP_CFG_TILED (R200): 1: the set was loaded by a tiled load. -/
def POT_SP_CFG_TILED : Field := ⟨.sparse, 0x0, 31, 1, .ro, 0⟩
/-- POT_SP_CFG_BLOCKS (R200): logical blocks of the set, 0–64. -/
def POT_SP_CFG_BLOCKS : Field := ⟨.sparse, 0x0, 24, 7, .ro, 0⟩
/-- POT_SP_CFG_RG_DENSE (R200): row groups of class 0. -/
def POT_SP_CFG_RG_DENSE : Field := ⟨.sparse, 0x0, 18, 6, .ro, 0⟩
/-- POT_SP_CFG_RG_LANE (R200): row groups of class 1. -/
def POT_SP_CFG_RG_LANE : Field := ⟨.sparse, 0x0, 12, 6, .ro, 0⟩
/-- POT_SP_CFG_RG_SUB (R200): row groups of class 2. -/
def POT_SP_CFG_RG_SUB : Field := ⟨.sparse, 0x0, 6, 6, .ro, 0⟩
/-- POT_SP_CFG_RG_VOID (R200): row groups of class 3. -/
def POT_SP_CFG_RG_VOID : Field := ⟨.sparse, 0x0, 0, 6, .ro, 0⟩
/-- POT_SP_TILE_SEL (R200): row group shown. -/
def POT_SP_TILE_SEL : Field := ⟨.sparse, 0x4, 27, 5, .rw, 0⟩
/-- POT_SP_TILE_CLASS (R200): class of row group SEL. -/
def POT_SP_TILE_CLASS : Field := ⟨.sparse, 0x4, 8, 2, .ro, 0⟩
/-- POT_SP_TILE_BLOCK (R200): logical block of row group SEL (R183). -/
def POT_SP_TILE_BLOCK : Field := ⟨.sparse, 0x4, 0, 7, .ro, 0⟩
/-- POT_SP_CNT_META_TRANSIENT (R200): transient metadata and tile-table events (R197), saturating at 0xFFFF. -/
def POT_SP_CNT_META_TRANSIENT : Field := ⟨.sparse, 0x8, 16, 16, .rc, 0⟩
/-- POT_SP_CNT_CRC_TRANSIENT (R200): transient CRC events (R186), saturating at 0xFFFF. -/
def POT_SP_CNT_CRC_TRANSIENT : Field := ⟨.sparse, 0x8, 0, 16, .rc, 0⟩
/-- POT_SP_CMP_WAIT_COUNT (R200): event count, saturating at 0xFFFF_FFFF. -/
def POT_SP_CMP_WAIT_COUNT : Field := ⟨.sparse, 0xC, 0, 32, .rc, 0⟩
/-- POT_SP_STEPS_COUNT (R200): event count, saturating at 0xFFFF_FFFF. -/
def POT_SP_STEPS_COUNT : Field := ⟨.sparse, 0x10, 0, 32, .rc, 0⟩
/-- POT_SP_COST_COUNT (R200): event count, saturating at 0xFFFF_FFFF. -/
def POT_SP_COST_COUNT : Field := ⟨.sparse, 0x14, 0, 32, .rc, 0⟩
/-- POT_UPD_STATUS_ACTIVE (R225): 1: a sweep or working load is executing. -/
def POT_UPD_STATUS_ACTIVE : Field := ⟨.upd, 0x0, 31, 1, .ro, 0⟩
/-- POT_UPD_STATUS_RUN (R225): 1: a shadow run is open (R217). -/
def POT_UPD_STATUS_RUN : Field := ⟨.upd, 0x0, 30, 1, .ro, 0⟩
/-- POT_UPD_STATUS_NEXT_ROW (R225): first row the last sweep or working load did not write; ROW_FIRST + ROW_COUNT if it completed. -/
def POT_UPD_STATUS_NEXT_ROW : Field := ⟨.upd, 0x0, 19, 11, .ro, 0⟩
/-- POT_UPD_STATUS_RUN_NEXT (R225): next row the open run expects; while RUN = 0, the value of the last run, kept after it closed or was discarded; 0 after reset and after a partition load. -/
def POT_UPD_STATUS_RUN_NEXT : Field := ⟨.upd, 0x0, 8, 11, .ro, 0⟩
/-- POT_UPD_STATUS_WLOSS (R225): sticky: a working load discarded a nonzero bit (R204). -/
def POT_UPD_STATUS_WLOSS : Field := ⟨.upd, 0x0, 3, 1, .w1c, 0⟩
/-- POT_UPD_STATUS_WSAT (R225): sticky: a working load clamped an element (R204). -/
def POT_UPD_STATUS_WSAT : Field := ⟨.upd, 0x0, 2, 1, .w1c, 0⟩
/-- POT_UPD_STATUS_DLOSS (R225): sticky: a sweep discarded a nonzero delta bit (R212). -/
def POT_UPD_STATUS_DLOSS : Field := ⟨.upd, 0x0, 1, 1, .w1c, 0⟩
/-- POT_UPD_RUN_ADDR (R225): tier-A address bits 38:7 of the open run's target; while POT_UPD_STATUS.RUN = 0, the target of the last run, kept after it closed or was discarded; 0 after reset and after a partition load. -/
def POT_UPD_RUN_ADDR : Field := ⟨.upd, 0x4, 0, 32, .ro, 0⟩
/-- POT_UPD_CLAMP_WEIGHT (R225): weights clamped to the format's range, saturating at 0xFFFF. -/
def POT_UPD_CLAMP_WEIGHT : Field := ⟨.upd, 0x8, 16, 16, .rc, 0⟩
/-- POT_UPD_CLAMP_RESIDUE (R225): residues clamped to −8..7, saturating at 0xFFFF. -/
def POT_UPD_CLAMP_RESIDUE : Field := ⟨.upd, 0x8, 0, 16, .rc, 0⟩
/-- POT_UPD_ROWS_COUNT (R225): rows written by sweeps, saturating at 0xFFFF_FFFF. -/
def POT_UPD_ROWS_COUNT : Field := ⟨.upd, 0xC, 0, 32, .rc, 0⟩
/-- JACK_STATUS_BUSY (R243): 1: an instruction is executing. -/
def JACK_STATUS_BUSY : Field := ⟨.jack, 0x0, 31, 1, .ro, 0⟩
/-- JACK_STATUS_FAULT_HOLD (R243): 1: stopped on a fault (R240). -/
def JACK_STATUS_FAULT_HOLD : Field := ⟨.jack, 0x0, 30, 1, .ro, 0⟩
/-- JACK_STATUS_CHAIN (R243): 1: a bank is kept for CONT. -/
def JACK_STATUS_CHAIN : Field := ⟨.jack, 0x0, 29, 1, .ro, 0⟩
/-- JACK_STATUS_RLOSS (R243): sticky: a nonzero bit discarded (R78 to R80, R238, R239). -/
def JACK_STATUS_RLOSS : Field := ⟨.jack, 0x0, 23, 1, .w1c, 0⟩
/-- JACK_STATUS_FLUSH (R243): sticky: a contribution flushed (R230). -/
def JACK_STATUS_FLUSH : Field := ⟨.jack, 0x0, 22, 1, .w1c, 0⟩
/-- JACK_STATUS_NANF (R243): sticky: a NaN produced (R231). -/
def JACK_STATUS_NANF : Field := ⟨.jack, 0x0, 21, 1, .w1c, 0⟩
/-- JACK_STATUS_VSAT (R243): sticky: INT32 saturation (R236). -/
def JACK_STATUS_VSAT : Field := ⟨.jack, 0x0, 20, 1, .w1c, 0⟩
/-- JACK_STATUS_QCLAMP (R243): sticky: quantized element clamped (R238). -/
def JACK_STATUS_QCLAMP : Field := ⟨.jack, 0x0, 19, 1, .w1c, 0⟩
/-- JACK_STATUS_LAST_FAULT (R243): code of the last fault the jack raised. -/
def JACK_STATUS_LAST_FAULT : Field := ⟨.jack, 0x0, 0, 16, .ro, 0⟩
/-- JACK_FAULT_POS_TILE (R243): MM tile kt at the fault. -/
def JACK_FAULT_POS_TILE : Field := ⟨.jack, 0x4, 8, 7, .ro, 0⟩
/-- JACK_FAULT_POS_ROW (R243): MM row m, or VEC row, at the fault. -/
def JACK_FAULT_POS_ROW : Field := ⟨.jack, 0x4, 0, 8, .ro, 0⟩
/-- JACK_SLICE_CNT_COUNT (R243): event count, saturating at 0xFFFF_FFFF. -/
def JACK_SLICE_CNT_COUNT : Field := ⟨.jack, 0x8, 0, 32, .rc, 0⟩
/-- JACK_VEC_CNT_COUNT (R243): event count, saturating at 0xFFFF_FFFF. -/
def JACK_VEC_CNT_COUNT : Field := ⟨.jack, 0xC, 0, 32, .rc, 0⟩
/-- JACK_STALL_IN_COUNT (R243): event count, saturating at 0xFFFF_FFFF. -/
def JACK_STALL_IN_COUNT : Field := ⟨.jack, 0x10, 0, 32, .rc, 0⟩
/-- JACK_STALL_OUT_COUNT (R243): event count, saturating at 0xFFFF_FFFF. -/
def JACK_STALL_OUT_COUNT : Field := ⟨.jack, 0x14, 0, 32, .rc, 0⟩
/-- JACK_FLUSH_CNT_COUNT (R243): event count, saturating at 0xFFFF_FFFF. -/
def JACK_FLUSH_CNT_COUNT : Field := ⟨.jack, 0x18, 0, 32, .rc, 0⟩
/-- JACK_RES_CNT_COUNT (R243): event count, saturating at 0xFFFF_FFFF. -/
def JACK_RES_CNT_COUNT : Field := ⟨.jack, 0x1C, 0, 32, .rc, 0⟩
/-- SPAD_STATUS_BUSY (R260): 1: a FILL, COPY or TAGSET is executing. -/
def SPAD_STATUS_BUSY : Field := ⟨.spad, 0x0, 31, 1, .ro, 0⟩
/-- SPAD_STATUS_FAULT_HOLD (R260): 1: a SPAD operation stopped on a fault. -/
def SPAD_STATUS_FAULT_HOLD : Field := ⟨.spad, 0x0, 30, 1, .ro, 0⟩
/-- SPAD_STATUS_REMOTE_HELD (R260): remote wait entries in use, 0–8. -/
def SPAD_STATUS_REMOTE_HELD : Field := ⟨.spad, 0x0, 26, 4, .ro, 0⟩
/-- SPAD_STATUS_POISONED (R260): 1: at least one granule is poisoned. -/
def SPAD_STATUS_POISONED : Field := ⟨.spad, 0x0, 25, 1, .ro, 0⟩
/-- SPAD_STATUS_LAST_FAULT (R260): code of the last SPAD fault on this bench; 0 if none since reset. -/
def SPAD_STATUS_LAST_FAULT : Field := ⟨.spad, 0x0, 0, 16, .ro, 0⟩
/-- SPAD_TAG_CTRL_GO (R260): 1: apply VALUE to COUNT slots from FIRST_SLOT; ignored unless the sequencer is halted; the tags change in the register write itself, since the register block runs on the die clock (R354), and an access waiting on one of them sees the new tag in its next bench cycle. -/
def SPAD_TAG_CTRL_GO : Field := ⟨.spad, 0x4, 31, 1, .wo, 0⟩
/-- SPAD_TAG_CTRL_VALUE (R260): 0 empty; 1 full. -/
def SPAD_TAG_CTRL_VALUE : Field := ⟨.spad, 0x4, 30, 1, .rw, 0⟩
/-- SPAD_TAG_CTRL_COUNT (R260): slots − 1, 0–383. -/
def SPAD_TAG_CTRL_COUNT : Field := ⟨.spad, 0x4, 9, 9, .rw, 0⟩
/-- SPAD_TAG_CTRL_FIRST_SLOT (R260): first slot, 0–383; a range past slot 383 stops at 383. -/
def SPAD_TAG_CTRL_FIRST_SLOT : Field := ⟨.spad, 0x4, 0, 9, .rw, 0⟩
/-- SPAD_ECC_CNT_CORR (R260): single-bit corrections, saturating at 0xFFFF. -/
def SPAD_ECC_CNT_CORR : Field := ⟨.spad, 0x8, 16, 16, .rc, 0⟩
/-- SPAD_ECC_CNT_TRANSIENT (R260): uncorrectable reads clean on reread, saturating at 0xFFFF. -/
def SPAD_ECC_CNT_TRANSIENT : Field := ⟨.spad, 0x8, 0, 16, .rc, 0⟩
/-- SPAD_POISON_INFO_VALID (R260): 1: GRANULE holds the first granule poisoned since the last clear. -/
def SPAD_POISON_INFO_VALID : Field := ⟨.spad, 0xC, 31, 1, .w1c, 0⟩
/-- SPAD_POISON_INFO_COUNT (R260): granules poisoned, saturating at 511. -/
def SPAD_POISON_INFO_COUNT : Field := ⟨.spad, 0xC, 22, 9, .ro, 0⟩
/-- SPAD_POISON_INFO_GRANULE (R260): granule, 0–12,287. -/
def SPAD_POISON_INFO_GRANULE : Field := ⟨.spad, 0xC, 0, 14, .ro, 0⟩
/-- SPAD_RD_CONF_COUNT (R260): event count, saturating at 0xFFFF_FFFF. -/
def SPAD_RD_CONF_COUNT : Field := ⟨.spad, 0x10, 0, 32, .rc, 0⟩
/-- SPAD_WR_CONF_COUNT (R260): event count, saturating at 0xFFFF_FFFF. -/
def SPAD_WR_CONF_COUNT : Field := ⟨.spad, 0x14, 0, 32, .rc, 0⟩
/-- SPAD_REMOTE_RD_COUNT (R260): event count, saturating at 0xFFFF_FFFF. -/
def SPAD_REMOTE_RD_COUNT : Field := ⟨.spad, 0x18, 0, 32, .rc, 0⟩
/-- SPAD_REMOTE_WR_COUNT (R260): event count, saturating at 0xFFFF_FFFF. -/
def SPAD_REMOTE_WR_COUNT : Field := ⟨.spad, 0x1C, 0, 32, .rc, 0⟩
/-- SPAD_TAG_WAIT_RD_COUNT (R260): event count, saturating at 0xFFFF_FFFF. -/
def SPAD_TAG_WAIT_RD_COUNT : Field := ⟨.spad, 0x20, 0, 32, .rc, 0⟩
/-- SPAD_TAG_WAIT_WR_COUNT (R260): event count, saturating at 0xFFFF_FFFF. -/
def SPAD_TAG_WAIT_WR_COUNT : Field := ⟨.spad, 0x24, 0, 32, .rc, 0⟩
/-- SPAD_BANK_SEL_BANK (R260): bank shown in SPAD_BANK_CONF, 0–11; values 12–15 show zero. -/
def SPAD_BANK_SEL_BANK : Field := ⟨.spad, 0x28, 0, 4, .rw, 0⟩
/-- SPAD_BANK_CONF_RD (R260): read conflicts of bank BANK, saturating at 0xFFFF. -/
def SPAD_BANK_CONF_RD : Field := ⟨.spad, 0x2C, 16, 16, .rc, 0⟩
/-- SPAD_BANK_CONF_WR (R260): write conflicts of bank BANK, saturating at 0xFFFF. -/
def SPAD_BANK_CONF_WR : Field := ⟨.spad, 0x2C, 0, 16, .rc, 0⟩
/-- SEQ_STATUS_STATE (R289): 0 IDLE, 1 RUN, 2 DRAIN, 3 HALTED, 4 FAULT, 5 END; 6–7 not used. -/
def SEQ_STATUS_STATE : Field := ⟨.seq, 0x0, 29, 3, .ro, 0⟩
/-- SEQ_STATUS_DRAINED (R289): 1: no issued instruction in flight. -/
def SEQ_STATUS_DRAINED : Field := ⟨.seq, 0x0, 28, 1, .ro, 1⟩
/-- SEQ_STATUS_MULTI (R289): 1: more than one fault since the last resume. -/
def SEQ_STATUS_MULTI : Field := ⟨.seq, 0x0, 27, 1, .ro, 0⟩
/-- SEQ_STATUS_CMD_REJECT (R289): sticky: a command or write was refused in this state. -/
def SEQ_STATUS_CMD_REJECT : Field := ⟨.seq, 0x0, 26, 1, .w1c, 0⟩
/-- SEQ_STATUS_INFLIGHT (R289): window entries in use, 0–64. -/
def SEQ_STATUS_INFLIGHT : Field := ⟨.seq, 0x0, 19, 7, .ro, 0⟩
/-- SEQ_STATUS_LAST_FAULT (R289): code of the last SEQ fault; 0 if none since reset. -/
def SEQ_STATUS_LAST_FAULT : Field := ⟨.seq, 0x0, 0, 16, .ro, 0⟩
/-- SEQ_CTRL_CMD (R289): 0b001 START; 0b010 HALT; 0b011 RESUME_REISSUE; 0b100 RESUME_SKIP; 0b101 ABORT; others ignored. -/
def SEQ_CTRL_CMD : Field := ⟨.seq, 0x4, 0, 3, .wo, 0⟩
/-- SEQ_PC_PC (R289): next dispatch address; writes take effect only when halted (R285). -/
def SEQ_PC_PC : Field := ⟨.seq, 0x8, 0, 12, .rw, 0⟩
/-- SEQ_CFG_BAR_LIMIT (R289): barrier report limit in units of 2^20 cycles; 0 off (R281). -/
def SEQ_CFG_BAR_LIMIT : Field := ⟨.seq, 0xC, 0, 8, .rw, 0⟩
/-- SEQ_FAULT_CODE (R289): fault code of the first fault since the last resume. -/
def SEQ_FAULT_CODE : Field := ⟨.seq, 0x10, 16, 16, .ro, 0⟩
/-- SEQ_FAULT_PC (R289): address of the faulted instruction. -/
def SEQ_FAULT_PC : Field := ⟨.seq, 0x10, 0, 12, .ro, 0⟩
/-- SEQ_FAULT_POS_UNIT (R289): 0–15 pots, 16 parison, 17 jack, 18 SPAD, 19 DMA, 20 punty in, 21 punty out, 22 sequencer. -/
def SEQ_FAULT_POS_UNIT : Field := ⟨.seq, 0x14, 27, 5, .ro, 0⟩
/-- SEQ_FAULT_POS_ITER (R289): repeat iteration at the fault (R274). -/
def SEQ_FAULT_POS_ITER : Field := ⟨.seq, 0x14, 0, 17, .ro, 0⟩
/-- SEQ_CYCLES_LO_CYC_LO (R289): cycle counter bits 31:0; a read captures all 64 bits. -/
def SEQ_CYCLES_LO_CYC_LO : Field := ⟨.seq, 0x18, 0, 32, .ro, 0⟩
/-- SEQ_CYCLES_HI_CYC_HI (R289): bits 63:32 of the value captured by the last LO read. -/
def SEQ_CYCLES_HI_CYC_HI : Field := ⟨.seq, 0x1C, 0, 32, .ro, 0⟩
/-- SEQ_STALL_WINDOW_COUNT (R289): event count, saturating at 0xFFFF_FFFF. -/
def SEQ_STALL_WINDOW_COUNT : Field := ⟨.seq, 0x20, 0, 32, .rc, 0⟩
/-- SEQ_STALL_SCALAR_COUNT (R289): event count, saturating at 0xFFFF_FFFF. -/
def SEQ_STALL_SCALAR_COUNT : Field := ⟨.seq, 0x24, 0, 32, .rc, 0⟩
/-- SEQ_STALL_BARRIER_COUNT (R289): event count, saturating at 0xFFFF_FFFF. -/
def SEQ_STALL_BARRIER_COUNT : Field := ⟨.seq, 0x28, 0, 32, .rc, 0⟩
/-- SEQ_STALL_FAULT_COUNT (R289): event count, saturating at 0xFFFF_FFFF. -/
def SEQ_STALL_FAULT_COUNT : Field := ⟨.seq, 0x2C, 0, 32, .rc, 0⟩
/-- SEQ_STALL_FETCH_COUNT (R289): event count, saturating at 0xFFFF_FFFF. -/
def SEQ_STALL_FETCH_COUNT : Field := ⟨.seq, 0x30, 0, 32, .rc, 0⟩
/-- SEQ_HOLD_SCORE_COUNT (R289): event count, saturating at 0xFFFF_FFFF. -/
def SEQ_HOLD_SCORE_COUNT : Field := ⟨.seq, 0x34, 0, 32, .rc, 0⟩
/-- SEQ_HOLD_UNIT_COUNT (R289): event count, saturating at 0xFFFF_FFFF. -/
def SEQ_HOLD_UNIT_COUNT : Field := ⟨.seq, 0x38, 0, 32, .rc, 0⟩
/-- SEQ_WAIT_REMOTE_COUNT (R289): event count, saturating at 0xFFFF_FFFF. -/
def SEQ_WAIT_REMOTE_COUNT : Field := ⟨.seq, 0x3C, 0, 32, .rc, 0⟩
/-- SEQ_EMPTY_CNT_COUNT (R289): event count, saturating at 0xFFFF_FFFF. -/
def SEQ_EMPTY_CNT_COUNT : Field := ⟨.seq, 0x40, 0, 32, .rc, 0⟩
/-- SEQ_BAR_SEL_CTX (R289): context shown at 0x54–0x5C. -/
def SEQ_BAR_SEL_CTX : Field := ⟨.seq, 0x50, 0, 2, .rw, 0⟩
/-- SEQ_BAR_ARRIVE_EPOCH (R289): ARRIVE or RELEASE of context CTX; writes as R280 states. Reset: from batch image. -/
def SEQ_BAR_ARRIVE_EPOCH : Field := ⟨.seq, 0x54, 0, 32, .rw, 0⟩
/-- SEQ_BAR_RELEASE_EPOCH (R289): ARRIVE or RELEASE of context CTX; writes as R280 states. Reset: from batch image. -/
def SEQ_BAR_RELEASE_EPOCH : Field := ⟨.seq, 0x58, 0, 32, .rw, 0⟩
/-- SEQ_BAR_INFO_OUTSTANDING (R289): 1: arrival not yet released. -/
def SEQ_BAR_INFO_OUTSTANDING : Field := ⟨.seq, 0x5C, 31, 1, .ro, 0⟩
/-- SEQ_BAR_INFO_WAITING (R289): 1: a WAIT on this context stops dispatch. -/
def SEQ_BAR_INFO_WAITING : Field := ⟨.seq, 0x5C, 30, 1, .ro, 0⟩
/-- SEQ_BAR_INFO_GROUP (R289): barrier group of the context. Reset: from batch image. -/
def SEQ_BAR_INFO_GROUP : Field := ⟨.seq, 0x5C, 16, 8, .ro, 0⟩
/-- SEQ_BAR_INFO_STALE (R289): duplicate and older releases, saturating at 0xFFFF. -/
def SEQ_BAR_INFO_STALE : Field := ⟨.seq, 0x5C, 0, 16, .rc, 0⟩
/-- SEQ_WALK_SEL_TABLE (R289): table shown in SEQ_WALK_DIR. -/
def SEQ_WALK_SEL_TABLE : Field := ⟨.seq, 0x60, 0, 4, .rw, 0⟩
/-- SEQ_WALK_DIR_LEVEL (R289): R276. Reset: from batch image. -/
def SEQ_WALK_DIR_LEVEL : Field := ⟨.seq, 0x64, 30, 2, .ro, 0⟩
/-- SEQ_WALK_DIR_BASE (R289): first walk-RAM entry. Reset: from batch image. -/
def SEQ_WALK_DIR_BASE : Field := ⟨.seq, 0x64, 20, 10, .ro, 0⟩
/-- SEQ_WALK_DIR_LEN (R289): entries, 0 unassigned. Reset: from batch image. -/
def SEQ_WALK_DIR_LEN : Field := ⟨.seq, 0x64, 9, 11, .ro, 0⟩
/-- SEQ_SREG_SEL_REG (R289): scalar register addressed. -/
def SEQ_SREG_SEL_REG : Field := ⟨.seq, 0x68, 0, 5, .rw, 0⟩
/-- SEQ_SREG_LO_VAL_LO (R289): bits 31:0; a read captures all 64 bits; a write is held. -/
def SEQ_SREG_LO_VAL_LO : Field := ⟨.seq, 0x6C, 0, 32, .rw, 0⟩
/-- SEQ_SREG_HI_VAL_HI (R289): bits 63:32 of the captured value; a write commits the held low half with this one, only when halted; s0 ignores writes. -/
def SEQ_SREG_HI_VAL_HI : Field := ⟨.seq, 0x70, 0, 32, .rw, 0⟩
/-- DMA_STATUS_BUSY (R348): 1: a DMA instruction is executing. -/
def DMA_STATUS_BUSY : Field := ⟨.dma, 0x0, 31, 1, .ro, 0⟩
/-- DMA_STATUS_FAULT_HOLD (R348): 1: stopped on a fault. -/
def DMA_STATUS_FAULT_HOLD : Field := ⟨.dma, 0x0, 30, 1, .ro, 0⟩
/-- DMA_STATUS_FENCE (R348): 1: a FENCE is pending. -/
def DMA_STATUS_FENCE : Field := ⟨.dma, 0x0, 29, 1, .ro, 0⟩
/-- DMA_STATUS_INFLIGHT (R348): tracker entries held, 0–2,048. -/
def DMA_STATUS_INFLIGHT : Field := ⟨.dma, 0x0, 16, 12, .ro, 0⟩
/-- DMA_STATUS_LAST_FAULT (R348): code of the last DMA fault; 0 if none since reset. -/
def DMA_STATUS_LAST_FAULT : Field := ⟨.dma, 0x0, 0, 16, .ro, 0⟩
/-- DMA_CFG_CAP (R348): maximum tracker entries. Reset: from batch image. -/
def DMA_CFG_CAP : Field := ⟨.dma, 0x4, 20, 12, .ro, 0⟩
/-- DMA_CFG_QUOTA (R348): reserved tracker entries. Reset: from batch image. -/
def DMA_CFG_QUOTA : Field := ⟨.dma, 0x4, 8, 12, .ro, 0⟩
/-- DMA_CFG_TMO (R348): timeout 2^TMO cycles; values below 16 act as 16, above 24 as 24. -/
def DMA_CFG_TMO : Field := ⟨.dma, 0x4, 0, 5, .rw, 20⟩
/-- DMA_FAULT_ADDR_LO_ADDR_LO (R348): external address bits 31:0 of the failed transfer; a read captures all 64 bits. -/
def DMA_FAULT_ADDR_LO_ADDR_LO : Field := ⟨.dma, 0x8, 0, 32, .ro, 0⟩
/-- DMA_FAULT_ADDR_HI_ADDR_HI (R348): bits 63:32 of the captured address. -/
def DMA_FAULT_ADDR_HI_ADDR_HI : Field := ⟨.dma, 0xC, 0, 32, .ro, 0⟩
/-- DMA_XFER_CNT_COUNT (R348): event count, saturating at 0xFFFF_FFFF. -/
def DMA_XFER_CNT_COUNT : Field := ⟨.dma, 0x10, 0, 32, .rc, 0⟩
/-- DMA_MERGE_CNT_COUNT (R348): event count, saturating at 0xFFFF_FFFF. -/
def DMA_MERGE_CNT_COUNT : Field := ⟨.dma, 0x14, 0, 32, .rc, 0⟩
/-- DMA_RETRY_CNT_COUNT (R348): event count, saturating at 0xFFFF_FFFF. -/
def DMA_RETRY_CNT_COUNT : Field := ⟨.dma, 0x18, 0, 32, .rc, 0⟩
/-- DMA_WAIT_TRACK_COUNT (R348): event count, saturating at 0xFFFF_FFFF. -/
def DMA_WAIT_TRACK_COUNT : Field := ⟨.dma, 0x1C, 0, 32, .rc, 0⟩
/-- DMA_WAIT_REG_COUNT (R348): event count, saturating at 0xFFFF_FFFF. -/
def DMA_WAIT_REG_COUNT : Field := ⟨.dma, 0x20, 0, 32, .rc, 0⟩
/-- DMA_WAIT_SLOT_COUNT (R348): event count, saturating at 0xFFFF_FFFF. -/
def DMA_WAIT_SLOT_COUNT : Field := ⟨.dma, 0x24, 0, 32, .rc, 0⟩
/-- DMA_KIB_RD_COUNT (R348): event count, saturating at 0xFFFF_FFFF. -/
def DMA_KIB_RD_COUNT : Field := ⟨.dma, 0x28, 0, 32, .rc, 0⟩
/-- DMA_KIB_WR_COUNT (R348): event count, saturating at 0xFFFF_FFFF. -/
def DMA_KIB_WR_COUNT : Field := ⟨.dma, 0x2C, 0, 32, .rc, 0⟩
/-- PQ_STATUS_OUT_HOLD (R348): 1: out-port in FAULT_HOLD. -/
def PQ_STATUS_OUT_HOLD : Field := ⟨.pq, 0x0, 31, 1, .ro, 0⟩
/-- PQ_STATUS_IN_HOLD (R348): 1: in-port in FAULT_HOLD. -/
def PQ_STATUS_IN_HOLD : Field := ⟨.pq, 0x0, 30, 1, .ro, 0⟩
/-- PQ_STATUS_OUT_Q (R348): handles queued in the out-port, 0–16. -/
def PQ_STATUS_OUT_Q : Field := ⟨.pq, 0x0, 25, 5, .ro, 0⟩
/-- PQ_STATUS_IN_Q (R348): handles queued for PQ_GET, 0–64. -/
def PQ_STATUS_IN_Q : Field := ⟨.pq, 0x0, 18, 7, .ro, 0⟩
/-- PQ_STATUS_LAST_FAULT (R348): code of the last PQ fault. -/
def PQ_STATUS_LAST_FAULT : Field := ⟨.pq, 0x0, 0, 16, .ro, 0⟩
/-- PQ_OUT_ROUTE_VALID (R348): 1: route present. Reset: from batch image. -/
def PQ_OUT_ROUTE_VALID : Field := ⟨.pq, 0x4, 31, 1, .ro, 0⟩
/-- PQ_OUT_ROUTE_DEVICE (R348): destination device. Reset: from batch image. -/
def PQ_OUT_ROUTE_DEVICE : Field := ⟨.pq, 0x4, 22, 9, .ro, 0⟩
/-- PQ_OUT_ROUTE_BENCH (R348): destination global bench. Reset: from batch image. -/
def PQ_OUT_ROUTE_BENCH : Field := ⟨.pq, 0x4, 10, 12, .ro, 0⟩
/-- PQ_OUT_CREDIT_HSLOTS (R348): slots per handle − 1. Reset: from batch image. -/
def PQ_OUT_CREDIT_HSLOTS : Field := ⟨.pq, 0x8, 26, 6, .ro, 0⟩
/-- PQ_OUT_CREDIT_ALLOT (R348): handles of sub-ring, 1–64. Reset: from batch image. -/
def PQ_OUT_CREDIT_ALLOT : Field := ⟨.pq, 0x8, 19, 7, .ro, 0⟩
/-- PQ_OUT_CREDIT_CREDIT (R348): credits held. Reset: ALLOT. -/
def PQ_OUT_CREDIT_CREDIT : Field := ⟨.pq, 0x8, 12, 7, .ro, 0⟩
/-- PQ_OUT_CREDIT_SEQ (R348): next SEQ to assign. -/
def PQ_OUT_CREDIT_SEQ : Field := ⟨.pq, 0x8, 4, 8, .ro, 0⟩
/-- PQ_IN_RING_RING_FIRST (R348): first ring slot. Reset: from batch image. -/
def PQ_IN_RING_RING_FIRST : Field := ⟨.pq, 0xC, 23, 9, .ro, 0⟩
/-- PQ_IN_RING_RING_COUNT (R348): ring slots − 1. Reset: from batch image. -/
def PQ_IN_RING_RING_COUNT : Field := ⟨.pq, 0xC, 14, 9, .ro, 0⟩
/-- PQ_IN_RING_PRODUCERS (R348): producers, 0–16. Reset: from batch image. -/
def PQ_IN_RING_PRODUCERS : Field := ⟨.pq, 0xC, 9, 5, .ro, 0⟩
/-- PQ_IN_SEL_PROD (R348): producer shown, in batch-image order. -/
def PQ_IN_SEL_PROD : Field := ⟨.pq, 0x10, 0, 4, .rw, 0⟩
/-- PQ_IN_PROD_BASE (R348): first slot of the sub-ring. Reset: from batch image. -/
def PQ_IN_PROD_BASE : Field := ⟨.pq, 0x14, 23, 9, .ro, 0⟩
/-- PQ_IN_PROD_ALLOT (R348): handles of the sub-ring. Reset: from batch image. -/
def PQ_IN_PROD_ALLOT : Field := ⟨.pq, 0x14, 16, 7, .ro, 0⟩
/-- PQ_IN_PROD_EXPECT (R348): next expected SEQ (R342). -/
def PQ_IN_PROD_EXPECT : Field := ⟨.pq, 0x14, 8, 8, .ro, 0⟩
/-- PQ_IN_PROD_OUT (R348): handles delivered and not released. -/
def PQ_IN_PROD_OUT : Field := ⟨.pq, 0x14, 1, 7, .ro, 0⟩
/-- PQ_IN_PROD_VALID (R348): 1: producer present. Reset: from batch image. -/
def PQ_IN_PROD_VALID : Field := ⟨.pq, 0x14, 0, 1, .ro, 0⟩
/-- PQ_PUT_CNT_COUNT (R348): event count, saturating at 0xFFFF_FFFF. -/
def PQ_PUT_CNT_COUNT : Field := ⟨.pq, 0x18, 0, 32, .rc, 0⟩
/-- PQ_GET_CNT_COUNT (R348): event count, saturating at 0xFFFF_FFFF. -/
def PQ_GET_CNT_COUNT : Field := ⟨.pq, 0x1C, 0, 32, .rc, 0⟩
/-- PQ_CREDIT_WAIT_COUNT (R348): event count, saturating at 0xFFFF_FFFF. -/
def PQ_CREDIT_WAIT_COUNT : Field := ⟨.pq, 0x20, 0, 32, .rc, 0⟩
/-- PQ_GET_WAIT_COUNT (R348): event count, saturating at 0xFFFF_FFFF. -/
def PQ_GET_WAIT_COUNT : Field := ⟨.pq, 0x24, 0, 32, .rc, 0⟩
/-- PQ_DUP_CNT_COUNT (R348): event count, saturating at 0xFFFF_FFFF. -/
def PQ_DUP_CNT_COUNT : Field := ⟨.pq, 0x28, 0, 32, .rc, 0⟩
/-- PQ_KIB_COUNT (R348): event count, saturating at 0xFFFF_FFFF. -/
def PQ_KIB_COUNT : Field := ⟨.pq, 0x2C, 0, 32, .rc, 0⟩
/-- BENCH_WAIT_STATUS_STUCK (R348): 1: bench stuck (R344). -/
def BENCH_WAIT_STATUS_STUCK : Field := ⟨.bench, 0x110, 31, 1, .ro, 0⟩
/-- BENCH_WAIT_STATUS_OUTSIDE (R348): 1: a wait is outside (R345). -/
def BENCH_WAIT_STATUS_OUTSIDE : Field := ⟨.bench, 0x110, 30, 1, .ro, 0⟩
/-- BENCH_WAIT_STATUS_UNIT (R348): first waiting unit. -/
def BENCH_WAIT_STATUS_UNIT : Field := ⟨.bench, 0x110, 25, 5, .ro, 31⟩
/-- BENCH_WAIT_STATUS_CAUSE (R348): R344. -/
def BENCH_WAIT_STATUS_CAUSE : Field := ⟨.bench, 0x110, 21, 4, .ro, 0⟩
/-- BENCH_WAIT_STATUS_OBJECT (R348): as in the wait word. -/
def BENCH_WAIT_STATUS_OBJECT : Field := ⟨.bench, 0x110, 12, 9, .ro, 0⟩
/-- BENCH_WAIT_CYC_CYCLES (R348): cycles since last progress, saturating at 0xFFFF_FFFF. -/
def BENCH_WAIT_CYC_CYCLES : Field := ⟨.bench, 0x114, 0, 32, .ro, 0⟩
/-- DMA_REG_SEL_PART (R348): partition shown. -/
def DMA_REG_SEL_PART : Field := ⟨.dreg, 0x0, 0, 4, .rw, 0⟩
/-- DMA_REG_CFG_POOL (R348): pool entries the partition may hold on this die. Reset: from batch image. -/
def DMA_REG_CFG_POOL : Field := ⟨.dreg, 0x4, 20, 12, .ro, 0⟩
/-- DMA_REG_CFG_SHARE (R348): budget share, 0–64. Reset: from batch image. -/
def DMA_REG_CFG_SHARE : Field := ⟨.dreg, 0x4, 13, 7, .ro, 0⟩
/-- DMA_REG_CFG_READ (R348): read split, 1/16ths. Reset: from batch image. -/
def DMA_REG_CFG_READ : Field := ⟨.dreg, 0x4, 8, 4, .ro, 0⟩
/-- DMA_REG_CFG_WRITE (R348): write split. Reset: from batch image. -/
def DMA_REG_CFG_WRITE : Field := ⟨.dreg, 0x4, 4, 4, .ro, 0⟩
/-- DMA_REG_CFG_REMOTE (R348): remote split. Reset: from batch image. -/
def DMA_REG_CFG_REMOTE : Field := ⟨.dreg, 0x4, 0, 4, .ro, 0⟩
/-- NOC_STATUS_LASTING (R371): sticky: a lasting mesh fault occurred (R360). -/
def NOC_STATUS_LASTING : Field := ⟨.noc, 0x0, 31, 1, .w1c, 0⟩
/-- NOC_STATUS_HOMED (R371): barrier groups homed on this die. Reset: from batch image. -/
def NOC_STATUS_HOMED : Field := ⟨.noc, 0x0, 16, 8, .ro, 0⟩
/-- NOC_STATUS_LAST_FAULT (R371): code of the last NOC fault; 0 if none since reset. -/
def NOC_STATUS_LAST_FAULT : Field := ⟨.noc, 0x0, 0, 16, .ro, 0⟩
/-- NOC_ERR_CNT_CORR (R371): corrected flits, saturating at 0xFFFF. -/
def NOC_ERR_CNT_CORR : Field := ⟨.noc, 0x4, 16, 16, .rc, 0⟩
/-- NOC_ERR_CNT_TRANSIENT (R371): clean resends, saturating at 0xFFFF. -/
def NOC_ERR_CNT_TRANSIENT : Field := ⟨.noc, 0x4, 0, 16, .rc, 0⟩
/-- NOC_LINK_INFO_VALID (R371): 1: NODE and DIR hold the first lasting link since the last clear. -/
def NOC_LINK_INFO_VALID : Field := ⟨.noc, 0x8, 31, 1, .w1c, 0⟩
/-- NOC_LINK_INFO_NODE (R371): sending bench node, 0–159. -/
def NOC_LINK_INFO_NODE : Field := ⟨.noc, 0x8, 23, 8, .ro, 0⟩
/-- NOC_LINK_INFO_DIR (R371): 0 north, 1 east, 2 south, 3 west, 4 port. -/
def NOC_LINK_INFO_DIR : Field := ⟨.noc, 0x8, 20, 3, .ro, 0⟩
/-- NOC_LINK_INFO_COUNT (R371): lasting mesh faults, saturating at 0xFFFF. -/
def NOC_LINK_INFO_COUNT : Field := ⟨.noc, 0x8, 0, 16, .ro, 0⟩
/-- NOC_BAR_SEL_GROUP (R371): group shown at 0x10 and 0x14. -/
def NOC_BAR_SEL_GROUP : Field := ⟨.noc, 0xC, 0, 8, .rw, 0⟩
/-- NOC_BAR_CFG_HOME (R371): 1: group homed on this die. Reset: from batch image. -/
def NOC_BAR_CFG_HOME : Field := ⟨.noc, 0x10, 31, 1, .ro, 0⟩
/-- NOC_BAR_CFG_SPANS (R371): 1: group spans devices. Reset: from batch image. -/
def NOC_BAR_CFG_SPANS : Field := ⟨.noc, 0x10, 30, 1, .ro, 0⟩
/-- NOC_BAR_CFG_ARRIVED (R371): arrivals counted for E. -/
def NOC_BAR_CFG_ARRIVED : Field := ⟨.noc, 0x10, 12, 12, .ro, 0⟩
/-- NOC_BAR_CFG_MEMBERS (R371): N, 1–2,560. Reset: from batch image. -/
def NOC_BAR_CFG_MEMBERS : Field := ⟨.noc, 0x10, 0, 12, .ro, 0⟩
/-- NOC_BAR_EPOCH_EXPECT (R371): E of the group (R364). Reset: from batch image. -/
def NOC_BAR_EPOCH_EXPECT : Field := ⟨.noc, 0x14, 0, 32, .ro, 0⟩
/-- PKG_LINK_SEL_EDGE (R371): 0 north, 1 east, 2 south, 3 west. -/
def PKG_LINK_SEL_EDGE : Field := ⟨.pkg, 0x0, 0, 2, .rw, 0⟩
/-- PKG_LINK_STATUS_STATE (R371): 0 no package link on this edge; 1 up; 2 retraining; 3 down. -/
def PKG_LINK_STATUS_STATE : Field := ⟨.pkg, 0x4, 30, 2, .ro, 0⟩
/-- PKG_LINK_STATUS_DETOUR (R371): 1: detour routes in use through this die. -/
def PKG_LINK_STATUS_DETOUR : Field := ⟨.pkg, 0x4, 29, 1, .ro, 0⟩
/-- PKG_LINK_STATUS_FAILS (R371): consecutive failed retrains, 0–3. -/
def PKG_LINK_STATUS_FAILS : Field := ⟨.pkg, 0x4, 16, 2, .ro, 0⟩
/-- PKG_LINK_STATUS_LAST_FAULT (R371): code of the last PKG fault on this link. -/
def PKG_LINK_STATUS_LAST_FAULT : Field := ⟨.pkg, 0x4, 0, 16, .ro, 0⟩
/-- PKG_LINK_CNT_TRANSIENT (R371): flits good on replay, saturating at 0xFFFF. -/
def PKG_LINK_CNT_TRANSIENT : Field := ⟨.pkg, 0x8, 16, 16, .rc, 0⟩
/-- PKG_LINK_CNT_LASTING (R371): retrains after a lasting fault, saturating at 0xFFFF. -/
def PKG_LINK_CNT_LASTING : Field := ⟨.pkg, 0x8, 0, 16, .rc, 0⟩
/-- PKG_REPLAY_CNT_COUNT (R371): flits replayed, saturating at 0xFFFF_FFFF. -/
def PKG_REPLAY_CNT_COUNT : Field := ⟨.pkg, 0xC, 0, 32, .rc, 0⟩
/-- BATCH_CTRL_GO (R392, R393): 1: start the operation. -/
def BATCH_CTRL_GO : Field := ⟨.batch, 0x0, 31, 1, .wo, 0⟩
/-- BATCH_CTRL_OP (R392, R393): 0b00 whole load; 0b01 partition load; 0b10 unload; 0b11 GO ignored. -/
def BATCH_CTRL_OP : Field := ⟨.batch, 0x0, 29, 2, .rw, 0⟩
/-- BATCH_CTRL_PART (R392, R393): partition for OP 0b01 and 0b10. -/
def BATCH_CTRL_PART : Field := ⟨.batch, 0x0, 24, 4, .rw, 0⟩
/-- BATCH_SRC_LO_ADDR_LO (R392, R393): host address bits 31:6. -/
def BATCH_SRC_LO_ADDR_LO : Field := ⟨.batch, 0x4, 6, 26, .rw, 0⟩
/-- BATCH_SRC_HI_ADDR_HI (R392, R393): host address bits 63:32. -/
def BATCH_SRC_HI_ADDR_HI : Field := ⟨.batch, 0x8, 0, 32, .rw, 0⟩
/-- BATCH_LEN_LEN (R392, R393): image bytes; must equal the header's LENGTH. -/
def BATCH_LEN_LEN : Field := ⟨.batch, 0xC, 0, 32, .rw, 0⟩
/-- BATCH_STATUS_STATE (R392, R393): 0 IDLE, 1 COPY, 2 VERIFY, 3 CHECK, 4 QUIESCE, 5 APPLY. -/
def BATCH_STATUS_STATE : Field := ⟨.batch, 0x10, 29, 3, .ro, 0⟩
/-- BATCH_STATUS_DONE (R392, R393): sticky: an operation ended. -/
def BATCH_STATUS_DONE : Field := ⟨.batch, 0x10, 28, 1, .w1c, 0⟩
/-- BATCH_STATUS_RESULT (R392, R393): 0 success, or the fault code that ended the last operation. -/
def BATCH_STATUS_RESULT : Field := ⟨.batch, 0x10, 0, 16, .ro, 0⟩
/-- BATCH_ERR_INFO_OFFSET (R392, R393): image byte offset at which the failing check looked. -/
def BATCH_ERR_INFO_OFFSET : Field := ⟨.batch, 0x14, 0, 32, .ro, 0⟩
/-- BATCH_VERSION_VERSION (R392, R393): VERSION of the current whole image; 0 if none. -/
def BATCH_VERSION_VERSION : Field := ⟨.batch, 0x18, 0, 32, .ro, 0⟩
/-- PART_SEL_PART (R392, R393): partition shown at 0x04–0x1C. -/
def PART_SEL_PART : Field := ⟨.part, 0x0, 0, 4, .rw, 0⟩
/-- PART_STATUS_STATE (R392, R393): 0 EMPTY, 1 LOADING, 2 READY, 3 FAULTED. -/
def PART_STATUS_STATE : Field := ⟨.part, 0x4, 30, 2, .ro, 0⟩
/-- PART_STATUS_DEGRADED (R392, R393): 1: APPLY met a lasting fault (R387). -/
def PART_STATUS_DEGRADED : Field := ⟨.part, 0x4, 29, 1, .ro, 0⟩
/-- PART_STATUS_BENCHES (R392, R393): benches assigned, 0–2,560. -/
def PART_STATUS_BENCHES : Field := ⟨.part, 0x4, 0, 12, .ro, 0⟩
/-- PART_CFG_VALID (R392, R393): 1: partition defined by the whole image. -/
def PART_CFG_VALID : Field := ⟨.part, 0x8, 31, 1, .rwg, 0⟩
/-- PART_CFG_HOST_FN (R392, R393): 0 physical function; 1–16 virtual function. -/
def PART_CFG_HOST_FN : Field := ⟨.part, 0x8, 26, 5, .rwg, 0⟩
/-- PART_CFG_KEY_SLOT (R392, R393): key slot for partition images. -/
def PART_CFG_KEY_SLOT : Field := ⟨.part, 0x8, 23, 3, .rwg, 0⟩
/-- PART_CFG_FAB_TAG (R392, R393): fabric partition tag; 0 none. -/
def PART_CFG_FAB_TAG : Field := ⟨.part, 0x8, 0, 12, .rwg, 0⟩
/-- PART_GROUPS_BAR_FIRST (R392, R393): first barrier group. -/
def PART_GROUPS_BAR_FIRST : Field := ⟨.part, 0xC, 24, 8, .rwg, 0⟩
/-- PART_GROUPS_BAR_COUNT (R392, R393): barrier groups. -/
def PART_GROUPS_BAR_COUNT : Field := ⟨.part, 0xC, 16, 8, .rwg, 0⟩
/-- PART_GROUPS_BC_FIRST (R392, R393): first broadcast group, 0–31. -/
def PART_GROUPS_BC_FIRST : Field := ⟨.part, 0xC, 8, 8, .rwg, 0⟩
/-- PART_GROUPS_BC_COUNT (R392, R393): broadcast groups. -/
def PART_GROUPS_BC_COUNT : Field := ⟨.part, 0xC, 0, 8, .rwg, 0⟩
/-- PART_VERSION_VERSION (R392, R393): VERSION of the image that last loaded this partition. -/
def PART_VERSION_VERSION : Field := ⟨.part, 0x10, 0, 32, .ro, 0⟩
/-- PART_WIN_SEL_WIN (R392, R393): window shown. -/
def PART_WIN_SEL_WIN : Field := ⟨.part, 0x14, 0, 3, .rw, 0⟩
/-- PART_WIN_VALID (R392, R393): 1: window in use. -/
def PART_WIN_VALID : Field := ⟨.part, 0x18, 31, 1, .rwg, 0⟩
/-- PART_WIN_WRITE (R392, R393): 1: writes allowed. -/
def PART_WIN_WRITE : Field := ⟨.part, 0x18, 30, 1, .rwg, 0⟩
/-- PART_WIN_BASE (R392, R393): base in GiB, 0–2,047. -/
def PART_WIN_BASE : Field := ⟨.part, 0x18, 11, 11, .rwg, 0⟩
/-- PART_WIN_SIZE (R392, R393): size in GiB − 1. -/
def PART_WIN_SIZE : Field := ⟨.part, 0x18, 0, 11, .rwg, 0⟩
/-- PART_SNAPSHOT_ADDR (R392, R393): tier-A address bits 38:7 of the wait-snapshot area. -/
def PART_SNAPSHOT_ADDR : Field := ⟨.part, 0x1C, 0, 32, .rwg, 0⟩
/-- MEMA_STATUS_STATE (R408): stack or selected package: 0 untrained; 1 up; 2 up with spares exhausted; 3 down (R404). -/
def MEMA_STATUS_STATE : Field := ⟨.mema, 0x0, 30, 2, .ro, 0⟩
/-- MEMB_STATUS_STATE (R408): stack or selected package: 0 untrained; 1 up; 2 up with spares exhausted; 3 down (R404). -/
def MEMB_STATUS_STATE : Field := ⟨.memb, 0x0, 30, 2, .ro, 0⟩
/-- MEMA_STATUS_LASTING (R408): sticky: a lasting event occurred. -/
def MEMA_STATUS_LASTING : Field := ⟨.mema, 0x0, 29, 1, .w1c, 0⟩
/-- MEMB_STATUS_LASTING (R408): sticky: a lasting event occurred. -/
def MEMB_STATUS_LASTING : Field := ⟨.memb, 0x0, 29, 1, .w1c, 0⟩
/-- MEMA_STATUS_TEMP (R408): device temperature, °C, unsigned. -/
def MEMA_STATUS_TEMP : Field := ⟨.mema, 0x0, 16, 8, .ro, 0⟩
/-- MEMB_STATUS_TEMP (R408): device temperature, °C, unsigned. -/
def MEMB_STATUS_TEMP : Field := ⟨.memb, 0x0, 16, 8, .ro, 0⟩
/-- MEMA_STATUS_LAST_FAULT (R408): code of the last MEM fault of this controller; 0 if none since reset. -/
def MEMA_STATUS_LAST_FAULT : Field := ⟨.mema, 0x0, 0, 16, .ro, 0⟩
/-- MEMB_STATUS_LAST_FAULT (R408): code of the last MEM fault of this controller; 0 if none since reset. -/
def MEMB_STATUS_LAST_FAULT : Field := ⟨.memb, 0x0, 0, 16, .ro, 0⟩
/-- MEMA_ERR_CNT_CORR (R408): corrected reads, saturating at 0xFFFF. -/
def MEMA_ERR_CNT_CORR : Field := ⟨.mema, 0x4, 16, 16, .rc, 0⟩
/-- MEMB_ERR_CNT_CORR (R408): corrected reads, saturating at 0xFFFF. -/
def MEMB_ERR_CNT_CORR : Field := ⟨.memb, 0x4, 16, 16, .rc, 0⟩
/-- MEMA_ERR_CNT_TRANSIENT (R408): transient read and write events, saturating at 0xFFFF. -/
def MEMA_ERR_CNT_TRANSIENT : Field := ⟨.mema, 0x4, 0, 16, .rc, 0⟩
/-- MEMB_ERR_CNT_TRANSIENT (R408): transient read and write events, saturating at 0xFFFF. -/
def MEMB_ERR_CNT_TRANSIENT : Field := ⟨.memb, 0x4, 0, 16, .rc, 0⟩
/-- MEMA_ERR_INFO_VALID (R408): 1: KIND, CHAN and ERR_ADDR describe the first lasting event since the last clear. -/
def MEMA_ERR_INFO_VALID : Field := ⟨.mema, 0x8, 31, 1, .w1c, 0⟩
/-- MEMB_ERR_INFO_VALID (R408): 1: KIND, CHAN and ERR_ADDR describe the first lasting event since the last clear. -/
def MEMB_ERR_INFO_VALID : Field := ⟨.memb, 0x8, 31, 1, .w1c, 0⟩
/-- MEMA_ERR_INFO_KIND (R408): 0 read; 1 write; 2 scrub; 3 poison read; 4 target down. -/
def MEMA_ERR_INFO_KIND : Field := ⟨.mema, 0x8, 28, 3, .ro, 0⟩
/-- MEMB_ERR_INFO_KIND (R408): 0 read; 1 write; 2 scrub; 3 poison read; 4 target down. -/
def MEMB_ERR_INFO_KIND : Field := ⟨.memb, 0x8, 28, 3, .ro, 0⟩
/-- MEMA_ERR_INFO_CHAN (R408): MEMA: pseudo-channel 0–63; MEMB: package × 4 + channel, 0–23. -/
def MEMA_ERR_INFO_CHAN : Field := ⟨.mema, 0x8, 22, 6, .ro, 0⟩
/-- MEMB_ERR_INFO_CHAN (R408): MEMA: pseudo-channel 0–63; MEMB: package × 4 + channel, 0–23. -/
def MEMB_ERR_INFO_CHAN : Field := ⟨.memb, 0x8, 22, 6, .ro, 0⟩
/-- MEMA_ERR_INFO_COUNT (R408): lasting events, saturating at 0xFFFF. -/
def MEMA_ERR_INFO_COUNT : Field := ⟨.mema, 0x8, 0, 16, .ro, 0⟩
/-- MEMB_ERR_INFO_COUNT (R408): lasting events, saturating at 0xFFFF. -/
def MEMB_ERR_INFO_COUNT : Field := ⟨.memb, 0x8, 0, 16, .ro, 0⟩
/-- MEMA_ERR_ADDR_LO_ADDR_LO (R408): local address bits 31:0 of the block; a read captures all 43 bits. -/
def MEMA_ERR_ADDR_LO_ADDR_LO : Field := ⟨.mema, 0xC, 0, 32, .ro, 0⟩
/-- MEMB_ERR_ADDR_LO_ADDR_LO (R408): local address bits 31:0 of the block; a read captures all 43 bits. -/
def MEMB_ERR_ADDR_LO_ADDR_LO : Field := ⟨.memb, 0xC, 0, 32, .ro, 0⟩
/-- MEMA_ERR_ADDR_HI_ADDR_HI (R408): bits 42:32 of the captured address. -/
def MEMA_ERR_ADDR_HI_ADDR_HI : Field := ⟨.mema, 0x10, 0, 11, .ro, 0⟩
/-- MEMB_ERR_ADDR_HI_ADDR_HI (R408): bits 42:32 of the captured address. -/
def MEMB_ERR_ADDR_HI_ADDR_HI : Field := ⟨.memb, 0x10, 0, 11, .ro, 0⟩
/-- MEMA_SCRUB_PERIOD (R408): scrub period in hours; 0 acts as 1 (R402). -/
def MEMA_SCRUB_PERIOD : Field := ⟨.mema, 0x14, 24, 8, .rw, 24⟩
/-- MEMB_SCRUB_PERIOD (R408): scrub period in hours; 0 acts as 1 (R402). -/
def MEMB_SCRUB_PERIOD : Field := ⟨.memb, 0x14, 24, 8, .rw, 24⟩
/-- MEMA_SCRUB_PASSES (R408): scrub passes completed since cold start, saturating at 0xFFFF. -/
def MEMA_SCRUB_PASSES : Field := ⟨.mema, 0x14, 0, 16, .ro, 0⟩
/-- MEMB_SCRUB_PASSES (R408): scrub passes completed since cold start, saturating at 0xFFFF. -/
def MEMB_SCRUB_PASSES : Field := ⟨.memb, 0x14, 0, 16, .ro, 0⟩
/-- MEMA_REPAIR_USED (R408): spare rows in use, stack or selected package. -/
def MEMA_REPAIR_USED : Field := ⟨.mema, 0x18, 24, 8, .ro, 0⟩
/-- MEMB_REPAIR_USED (R408): spare rows in use, stack or selected package. -/
def MEMB_REPAIR_USED : Field := ⟨.memb, 0x18, 24, 8, .ro, 0⟩
/-- MEMA_REPAIR_LEFT (R408): spare rows left; MEMA saturates at 255. Reset: 255 in MEMA, 16 in MEMB. -/
def MEMA_REPAIR_LEFT : Field := ⟨.mema, 0x18, 16, 8, .ro, 255⟩
/-- MEMB_REPAIR_LEFT (R408): spare rows left; MEMA saturates at 255. Reset: 255 in MEMA, 16 in MEMB. -/
def MEMB_REPAIR_LEFT : Field := ⟨.memb, 0x18, 16, 8, .ro, 16⟩
/-- MEMA_RD_KIB_COUNT (R408): KiB read or written for requesters, scrub excluded, saturating at 0xFFFF_FFFF. -/
def MEMA_RD_KIB_COUNT : Field := ⟨.mema, 0x1C, 0, 32, .rc, 0⟩
/-- MEMB_RD_KIB_COUNT (R408): KiB read or written for requesters, scrub excluded, saturating at 0xFFFF_FFFF. -/
def MEMB_RD_KIB_COUNT : Field := ⟨.memb, 0x1C, 0, 32, .rc, 0⟩
/-- MEMA_WR_KIB_COUNT (R408): KiB read or written for requesters, scrub excluded, saturating at 0xFFFF_FFFF. -/
def MEMA_WR_KIB_COUNT : Field := ⟨.mema, 0x20, 0, 32, .rc, 0⟩
/-- MEMB_WR_KIB_COUNT (R408): KiB read or written for requesters, scrub excluded, saturating at 0xFFFF_FFFF. -/
def MEMB_WR_KIB_COUNT : Field := ⟨.memb, 0x20, 0, 32, .rc, 0⟩
/-- MEMB_SEL_PKG (R408): package of this annex shown, 0–5; 6 and 7 show zero. -/
def MEMB_SEL_PKG : Field := ⟨.memb, 0x24, 0, 3, .rw, 0⟩
/-- CANE_SEL_CANE (R433): cane of this port die shown, 0–8; 9–15 show zero. -/
def CANE_SEL_CANE : Field := ⟨.cane, 0x0, 0, 4, .rw, 0⟩
/-- CANE_STATUS_STATE (R433): 0 OFF, 1 TRAINING, 2 UP_MGMT, 3 UP, 4 RETRAIN, 5 DOWN, 6 MISWIRED, 7 PARKED (R426). -/
def CANE_STATUS_STATE : Field := ⟨.cane, 0x4, 28, 4, .ro, 0⟩
/-- CANE_STATUS_WIDTH (R433): active lanes, 0–8. -/
def CANE_STATUS_WIDTH : Field := ⟨.cane, 0x4, 24, 4, .ro, 0⟩
/-- CANE_STATUS_FAILS (R433): failed attempts in the current episode, 0–3. -/
def CANE_STATUS_FAILS : Field := ⟨.cane, 0x4, 22, 2, .ro, 0⟩
/-- CANE_STATUS_PREC (R433): 1: precoding in use. -/
def CANE_STATUS_PREC : Field := ⟨.cane, 0x4, 21, 1, .ro, 0⟩
/-- CANE_STATUS_LASTING (R433): sticky: a lasting event occurred. -/
def CANE_STATUS_LASTING : Field := ⟨.cane, 0x4, 20, 1, .w1c, 0⟩
/-- CANE_STATUS_LAST_FAULT (R433): code of the last CANE fault of this cane; 0 if none since reset. -/
def CANE_STATUS_LAST_FAULT : Field := ⟨.cane, 0x4, 0, 16, .ro, 0⟩
/-- CANE_CTRL_TRAIN (R433): 1: full training now, from any state but TRAINING. -/
def CANE_CTRL_TRAIN : Field := ⟨.cane, 0x8, 3, 1, .wo, 0⟩
/-- CANE_CTRL_PARK (R433): 1: send leave; PARKED (R431). -/
def CANE_CTRL_PARK : Field := ⟨.cane, 0x8, 2, 1, .wo, 0⟩
/-- CANE_CTRL_RETRAIN_FULL (R433): 1: retrain episode starting at step 2. -/
def CANE_CTRL_RETRAIN_FULL : Field := ⟨.cane, 0x8, 1, 1, .wo, 0⟩
/-- CANE_CTRL_RETRAIN_FAST (R433): 1: retrain episode (R430). -/
def CANE_CTRL_RETRAIN_FAST : Field := ⟨.cane, 0x8, 0, 1, .wo, 0⟩
/-- CANE_CFG_AUTO_RETRY (R433): seconds between training attempts when DOWN or PARKED; 0 off. -/
def CANE_CFG_AUTO_RETRY : Field := ⟨.cane, 0xC, 24, 8, .rw, 10⟩
/-- CANE_CFG_MIN_LANES (R433): fewest active lanes for service; 0 acts as 1, above 8 as 8. -/
def CANE_CFG_MIN_LANES : Field := ⟨.cane, 0xC, 20, 4, .rw, 4⟩
/-- CANE_CFG_LANE_TH (R433): bad-lane threshold exponent (R429). -/
def CANE_CFG_LANE_TH : Field := ⟨.cane, 0xC, 16, 4, .rw, 14⟩
/-- CANE_PARTNER_VALID (R433): 1: fields hold the partner of the last T4. -/
def CANE_PARTNER_VALID : Field := ⟨.cane, 0x10, 31, 1, .ro, 0⟩
/-- CANE_PARTNER_LOC_VALID (R433): partner's DEV_LOCATION.VALID. -/
def CANE_PARTNER_LOC_VALID : Field := ⟨.cane, 0x10, 30, 1, .ro, 0⟩
/-- CANE_PARTNER_CANE (R433): partner's cane, 0–35. -/
def CANE_PARTNER_CANE : Field := ⟨.cane, 0x10, 24, 6, .ro, 0⟩
/-- CANE_PARTNER_DEVICE (R433): partner's identity. -/
def CANE_PARTNER_DEVICE : Field := ⟨.cane, 0x10, 0, 9, .ro, 0⟩
/-- CANE_EXPECT_VALID (R433): 1: check the partner at T4 (R428). -/
def CANE_EXPECT_VALID : Field := ⟨.cane, 0x14, 31, 1, .rw, 0⟩
/-- CANE_EXPECT_DEVICE (R433): expected partner identity. -/
def CANE_EXPECT_DEVICE : Field := ⟨.cane, 0x14, 0, 9, .rw, 0⟩
/-- CANE_LANES_GOOD (R433): bit n: lane n good at both ends. -/
def CANE_LANES_GOOD : Field := ⟨.cane, 0x18, 8, 8, .ro, 0⟩
/-- CANE_LANES_ACTIVE (R433): bit n: lane n carries symbols. -/
def CANE_LANES_ACTIVE : Field := ⟨.cane, 0x18, 0, 8, .ro, 0⟩
/-- CANE_ERR_CNT_TRANSIENT (R433): transient replays, saturating at 0xFFFF. -/
def CANE_ERR_CNT_TRANSIENT : Field := ⟨.cane, 0x1C, 16, 16, .rc, 0⟩
/-- CANE_ERR_CNT_LASTING (R433): lasting events, saturating at 0xFFFF. -/
def CANE_ERR_CNT_LASTING : Field := ⟨.cane, 0x1C, 0, 16, .rc, 0⟩
/-- CANE_REPLAY_CNT_FLITS (R433): flits replayed, saturating at 0xFFFF. -/
def CANE_REPLAY_CNT_FLITS : Field := ⟨.cane, 0x20, 16, 16, .rc, 0⟩
/-- CANE_REPLAY_CNT_FULL (R433): 2^10-flit intervals with the replay buffer full, saturating at 255. -/
def CANE_REPLAY_CNT_FULL : Field := ⟨.cane, 0x20, 8, 8, .rc, 0⟩
/-- CANE_REPLAY_CNT_LOST (R433): flits discarded when the cane went DOWN or PARKED, saturating at 255. -/
def CANE_REPLAY_CNT_LOST : Field := ⟨.cane, 0x20, 0, 8, .rc, 0⟩
/-- CANE_FEC_CNT_UNCORR (R433): uncorrectable codewords, saturating at 0xFFFF_FFFF. -/
def CANE_FEC_CNT_UNCORR : Field := ⟨.cane, 0x24, 0, 32, .rc, 0⟩
/-- CANE_LANE_SEL_LANE (R433): lane shown. -/
def CANE_LANE_SEL_LANE : Field := ⟨.cane, 0x28, 0, 3, .rw, 0⟩
/-- CANE_LANE_ERR_SYMBOLS (R433): symbols corrected on lane LANE, saturating at 0xFFFF_FFFF. -/
def CANE_LANE_ERR_SYMBOLS : Field := ⟨.cane, 0x2C, 0, 32, .rc, 0⟩
/-- CANE_VC0_CNT_SENT (R433): VC0 flits sent, saturating at 0xFFFF. -/
def CANE_VC0_CNT_SENT : Field := ⟨.cane, 0x30, 16, 16, .rc, 0⟩
/-- CANE_VC0_CNT_DROPPED (R433): VC0 flits for this device arriving on this cane and dropped at the inbox (R425), saturating at 0xFFFF. -/
def CANE_VC0_CNT_DROPPED : Field := ⟨.cane, 0x30, 0, 16, .rc, 0⟩
/-- CANE_TX_KIB_COUNT (R433): payload KiB sent or accepted, replays excluded, saturating at 0xFFFF_FFFF. -/
def CANE_TX_KIB_COUNT : Field := ⟨.cane, 0x34, 0, 32, .rc, 0⟩
/-- CANE_RX_KIB_COUNT (R433): payload KiB sent or accepted, replays excluded, saturating at 0xFFFF_FFFF. -/
def CANE_RX_KIB_COUNT : Field := ⟨.cane, 0x38, 0, 32, .rc, 0⟩
/-- FAB_STATUS_LASTING (R462): sticky: a lasting transaction failure occurred. -/
def FAB_STATUS_LASTING : Field := ⟨.fab, 0x0, 31, 1, .w1c, 0⟩
/-- FAB_STATUS_LAST_FAULT (R462): code of the last FAB fault; 0 if none since reset. -/
def FAB_STATUS_LAST_FAULT : Field := ⟨.fab, 0x0, 0, 16, .ro, 0⟩
/-- FAB_CFG_TMO_MGMT (R462): VC0 timeout 2^TMO_MGMT ns; values are clamped to 16–26. -/
def FAB_CFG_TMO_MGMT : Field := ⟨.fab, 0x4, 5, 5, .rw, 20⟩
/-- FAB_CFG_TMO (R462): timeout 2^TMO ns; values are clamped to 16–26. -/
def FAB_CFG_TMO : Field := ⟨.fab, 0x4, 0, 5, .rw, 22⟩
/-- FAB_XACT_CNT_TRANSIENT (R462): R441, each saturating at 0xFFFF. -/
def FAB_XACT_CNT_TRANSIENT : Field := ⟨.fab, 0x8, 16, 16, .rc, 0⟩
/-- FAB_XACT_CNT_LASTING (R462): R441, each saturating at 0xFFFF. -/
def FAB_XACT_CNT_LASTING : Field := ⟨.fab, 0x8, 0, 16, .rc, 0⟩
/-- FAB_DUP_CNT_DUP (R462): R442, each saturating at 0xFFFF. -/
def FAB_DUP_CNT_DUP : Field := ⟨.fab, 0xC, 16, 16, .rc, 0⟩
/-- FAB_DUP_CNT_BUSY (R462): R442, each saturating at 0xFFFF. -/
def FAB_DUP_CNT_BUSY : Field := ⟨.fab, 0xC, 0, 16, .rc, 0⟩
/-- FAB_REJECT_CNT_TAG (R462): R436, R440, each saturating at 255. -/
def FAB_REJECT_CNT_TAG : Field := ⟨.fab, 0x10, 24, 8, .rc, 0⟩
/-- FAB_REJECT_CNT_GEN (R462): R436, R440, each saturating at 255. -/
def FAB_REJECT_CNT_GEN : Field := ⟨.fab, 0x10, 16, 8, .rc, 0⟩
/-- FAB_REJECT_CNT_AGE (R462): R436, R440, each saturating at 255. -/
def FAB_REJECT_CNT_AGE : Field := ⟨.fab, 0x10, 8, 8, .rc, 0⟩
/-- FAB_REJECT_CNT_TYPE (R462): R436, R440, each saturating at 255. -/
def FAB_REJECT_CNT_TYPE : Field := ⟨.fab, 0x10, 0, 8, .rc, 0⟩
/-- FAB_TID_INUSE_PEAK (R462): most TIDs held at once since the last read, 0–2,048. -/
def FAB_TID_INUSE_PEAK : Field := ⟨.fab, 0x14, 20, 12, .rc, 0⟩
/-- FAB_TID_INUSE_NOW (R462): TIDs held, 0–2,048. -/
def FAB_TID_INUSE_NOW : Field := ⟨.fab, 0x14, 8, 12, .ro, 0⟩
/-- FAB_TID_INUSE_WAIT (R462): 2^10-cycle intervals with a request waiting for a TID, saturating at 255. -/
def FAB_TID_INUSE_WAIT : Field := ⟨.fab, 0x14, 0, 8, .rc, 0⟩
/-- FAB_DETOUR_VALID1 (R462): entry in use. -/
def FAB_DETOUR_VALID1 : Field := ⟨.fab, 0x40, 31, 1, .rw, 0⟩
/-- FAB_DETOUR_VALID0 (R462): entry in use. -/
def FAB_DETOUR_VALID0 : Field := ⟨.fab, 0x40, 15, 1, .rw, 0⟩
/-- FAB_DETOUR_FAILED1 (R462): failed direction, 0–5. -/
def FAB_DETOUR_FAILED1 : Field := ⟨.fab, 0x40, 28, 3, .rw, 0⟩
/-- FAB_DETOUR_FAILED0 (R462): failed direction, 0–5. -/
def FAB_DETOUR_FAILED0 : Field := ⟨.fab, 0x40, 12, 3, .rw, 0⟩
/-- FAB_DETOUR_STEP1 (R462): side-step direction, 0–5; the same dimension as FAILED disables the entry. -/
def FAB_DETOUR_STEP1 : Field := ⟨.fab, 0x40, 25, 3, .rw, 0⟩
/-- FAB_DETOUR_STEP0 (R462): side-step direction, 0–5; the same dimension as FAILED disables the entry. -/
def FAB_DETOUR_STEP0 : Field := ⟨.fab, 0x40, 9, 3, .rw, 0⟩
/-- FAB_TIME_CFG_VALID (R462): R453. -/
def FAB_TIME_CFG_VALID : Field := ⟨.fab, 0x44, 31, 1, .ro, 0⟩
/-- FAB_TIME_CFG_MASTER (R462): 1: this device is the time master. -/
def FAB_TIME_CFG_MASTER : Field := ⟨.fab, 0x44, 30, 1, .rw, 0⟩
/-- FAB_TIME_CFG_SYNC_LOG (R462): period 2^SYNC_LOG ms. -/
def FAB_TIME_CFG_SYNC_LOG : Field := ⟨.fab, 0x44, 26, 4, .rw, 6⟩
/-- FAB_TIME_CFG_OFFSET (R462): last offset, signed ns, saturating. -/
def FAB_TIME_CFG_OFFSET : Field := ⟨.fab, 0x44, 0, 16, .ro, 0⟩
/-- FAB_TIME_LO_TIME_LO (R462): time bits 31:0; a read captures 64 bits; a write is held. -/
def FAB_TIME_LO_TIME_LO : Field := ⟨.fab, 0x48, 0, 32, .rw, 0⟩
/-- FAB_TIME_HI_TIME_HI (R462): bits 63:32 of the captured value; a write commits both halves, on the master only. -/
def FAB_TIME_HI_TIME_HI : Field := ⟨.fab, 0x4C, 0, 32, .rw, 0⟩
/-- FAB_RING_SEL_RING (R462): ring shown; bits 31:4 reserved. -/
def FAB_RING_SEL_RING : Field := ⟨.fab, 0x50, 0, 4, .rw, 0⟩
/-- FAB_RING_CFG_VALID (R462): ring in use. -/
def FAB_RING_CFG_VALID : Field := ⟨.fab, 0x54, 31, 1, .rw, 0⟩
/-- FAB_RING_CFG_PORT (R462): port die running the ring. -/
def FAB_RING_CFG_PORT : Field := ⟨.fab, 0x54, 29, 2, .rw, 0⟩
/-- FAB_RING_CFG_N (R462): members − 1. -/
def FAB_RING_CFG_N : Field := ⟨.fab, 0x54, 20, 9, .rw, 0⟩
/-- FAB_RING_CFG_POS (R462): this device's position. -/
def FAB_RING_CFG_POS : Field := ⟨.fab, 0x54, 11, 9, .rw, 0⟩
/-- FAB_RING_CFG_HEAD (R462): next queue slot (R456). -/
def FAB_RING_CFG_HEAD : Field := ⟨.fab, 0x54, 5, 6, .ro, 0⟩
/-- FAB_RING_PEER_NEXT (R462): device identities. -/
def FAB_RING_PEER_NEXT : Field := ⟨.fab, 0x58, 23, 9, .rw, 0⟩
/-- FAB_RING_PEER_PREV (R462): device identities. -/
def FAB_RING_PEER_PREV : Field := ⟨.fab, 0x58, 14, 9, .rw, 0⟩
/-- FAB_RING_PEER_FTAG (R462): partition tag of the ring. -/
def FAB_RING_PEER_FTAG : Field := ⟨.fab, 0x58, 0, 12, .rw, 0⟩
/-- FAB_RING_Q_BASE (R462): tier-A address bits 38:12 of the queue, which is 4 KiB-aligned (R455). -/
def FAB_RING_Q_BASE : Field := ⟨.fab, 0x5C, 5, 27, .rw, 0⟩
/-- FAB_BAR_SEL_GROUP (R462): barrier group shown; bits 31:8 reserved. -/
def FAB_BAR_SEL_GROUP : Field := ⟨.fab, 0x60, 0, 8, .rw, 0⟩
/-- FAB_BAR_CFG_VALID (R462): entry in use. -/
def FAB_BAR_CFG_VALID : Field := ⟨.fab, 0x64, 31, 1, .rw, 0⟩
/-- FAB_BAR_CFG_D (R462): member devices − 1. -/
def FAB_BAR_CFG_D : Field := ⟨.fab, 0x64, 22, 9, .rw, 0⟩
/-- FAB_BAR_CFG_HOME (R462): home device H. -/
def FAB_BAR_CFG_HOME : Field := ⟨.fab, 0x64, 0, 9, .rw, 0⟩
/-- FAB_BAR_EPOCH_F (R462): expected device-arrival epoch, on H (R454). -/
def FAB_BAR_EPOCH_F : Field := ⟨.fab, 0x68, 0, 32, .ro, 0⟩
/-- PWR_STATUS_MODE (R492 to R494): 0 normal; 1 duty pulsing; 2 clocks stopped, cap unattainable; 3 not used. -/
def PWR_STATUS_MODE : Field := ⟨.pwr, 0x0, 30, 2, .ro, 0⟩
/-- PWR_STATUS_MGR_LOST (R492 to R494): 1: lease expired (R468). -/
def PWR_STATUS_MGR_LOST : Field := ⟨.pwr, 0x0, 29, 1, .ro, 0⟩
/-- PWR_STATUS_SUSTAIN (R492 to R494): 1: sustained limit in force (R469). -/
def PWR_STATUS_SUSTAIN : Field := ⟨.pwr, 0x0, 28, 1, .ro, 0⟩
/-- PWR_STATUS_LAST_FAULT (R492 to R494): code of the last PWR fault; 0 if none since reset. -/
def PWR_STATUS_LAST_FAULT : Field := ⟨.pwr, 0x0, 0, 16, .ro, 0⟩
/-- PWR_CAP_CAP_W (R492 to R494): device cap in W, 0–4,200. -/
def PWR_CAP_CAP_W : Field := ⟨.pwr, 0x4, 16, 16, .rwg, 2800⟩
/-- PWR_CAP_LEASE_S (R492 to R494): lease in s; 0 none. -/
def PWR_CAP_LEASE_S : Field := ⟨.pwr, 0x4, 8, 8, .rwg, 0⟩
/-- PWR_CAP_FAB_CAP (R492 to R494): 1: fabric caps accepted. -/
def PWR_CAP_FAB_CAP : Field := ⟨.pwr, 0x4, 7, 1, .rwg, 0⟩
/-- PWR_CAP_SOURCE (R492 to R494): 0 fallback; 1 rack; 2 fabric. -/
def PWR_CAP_SOURCE : Field := ⟨.pwr, 0x4, 4, 3, .ro, 0⟩
/-- PWR_FALLBACK_FALLBACK_W (R492 to R494): fallback cap in W. -/
def PWR_FALLBACK_FALLBACK_W : Field := ⟨.pwr, 0x8, 16, 16, .rwg, 2800⟩
/-- PWR_FALLBACK_FABRIC_W (R492 to R494): last fabric cap received, W. -/
def PWR_FALLBACK_FABRIC_W : Field := ⟨.pwr, 0x8, 0, 16, .ro, 0⟩
/-- PWR_INPUT_INPUT_W (R492 to R494): input power, 1 ms average, W. -/
def PWR_INPUT_INPUT_W : Field := ⟨.pwr, 0xC, 16, 16, .ro, 0⟩
/-- PWR_INPUT_FLOOR_W (R492 to R494): last measured idle floor, W (R475). -/
def PWR_INPUT_FLOOR_W : Field := ⟨.pwr, 0xC, 0, 16, .ro, 0⟩
/-- PWR_DIE_SEL_DIE (R492 to R494): furnace die shown at 0x14–0x2C. -/
def PWR_DIE_SEL_DIE : Field := ⟨.pwr, 0x10, 0, 4, .rw, 0⟩
/-- PWR_DIE_STATUS_POINT (R492 to R494): current point, 0–7 for P0–P7. -/
def PWR_DIE_STATUS_POINT : Field := ⟨.pwr, 0x14, 29, 3, .ro, 1⟩
/-- PWR_DIE_STATUS_MAX_EFF (R492 to R494): fastest point allowed now. -/
def PWR_DIE_STATUS_MAX_EFF : Field := ⟨.pwr, 0x14, 26, 3, .ro, 1⟩
/-- PWR_DIE_STATUS_LIMIT (R492 to R494): binding limit (R472). -/
def PWR_DIE_STATUS_LIMIT : Field := ⟨.pwr, 0x14, 22, 4, .ro, 0⟩
/-- PWR_DIE_STATUS_FENCED (R492 to R494): 1: die fenced or tripped. -/
def PWR_DIE_STATUS_FENCED : Field := ⟨.pwr, 0x14, 21, 1, .ro, 0⟩
/-- PWR_DIE_STATUS_P0_BARRED (R492 to R494): 1: P0 barred (R488, R489). -/
def PWR_DIE_STATUS_P0_BARRED : Field := ⟨.pwr, 0x14, 20, 1, .ro, 0⟩
/-- PWR_DIE_STATUS_DUTY (R492 to R494): run slots D per window, 0–64. -/
def PWR_DIE_STATUS_DUTY : Field := ⟨.pwr, 0x14, 13, 7, .ro, 64⟩
/-- PWR_DIE_STATUS_BUDGET_W (R492 to R494): die budget in W; 0 none (R470). -/
def PWR_DIE_STATUS_BUDGET_W : Field := ⟨.pwr, 0x14, 0, 13, .ro, 0⟩
/-- PWR_DIE_CFG_MAX_POINT (R492 to R494): fastest point the partitions allow. -/
def PWR_DIE_CFG_MAX_POINT : Field := ⟨.pwr, 0x18, 29, 3, .rwg, 0⟩
/-- PWR_DIE_CFG_P0_ALLOW (R492 to R494): R470. -/
def PWR_DIE_CFG_P0_ALLOW : Field := ⟨.pwr, 0x18, 28, 1, .rwg, 1⟩
/-- PWR_DIE_CFG_REHEAT_EN (R492 to R494): R470. -/
def PWR_DIE_CFG_REHEAT_EN : Field := ⟨.pwr, 0x18, 27, 1, .rwg, 1⟩
/-- PWR_TRANS_GROUP_CYC (R492 to R494): stagger per row in die cycles; 0 off (R477). -/
def PWR_TRANS_GROUP_CYC : Field := ⟨.pwr, 0x1C, 24, 8, .rwg, 64⟩
/-- PWR_TRANS_REHEAT_DECAY_US (R492 to R494): reheat decay in µs; 0 acts as 1 (R478). -/
def PWR_TRANS_REHEAT_DECAY_US : Field := ⟨.pwr, 0x1C, 16, 8, .rwg, 50⟩
/-- PWR_P0_INFO_USED_S (R492 to R494): P0 seconds in the rolling 24 h. Reset: from store. -/
def PWR_P0_INFO_USED_S : Field := ⟨.pwr, 0x20, 18, 14, .ro, 0⟩
/-- PWR_P0_INFO_CONT_MS (R492 to R494): current continuous P0 residency, ms. -/
def PWR_P0_INFO_CONT_MS : Field := ⟨.pwr, 0x20, 13, 5, .ro, 0⟩
/-- PWR_P0_INFO_BAR_MS (R492 to R494): ms of P0 bar remaining. -/
def PWR_P0_INFO_BAR_MS : Field := ⟨.pwr, 0x20, 6, 7, .ro, 0⟩
/-- PWR_P0_INFO_BUDGET_OUT (R492 to R494): 1: wear budget spent. -/
def PWR_P0_INFO_BUDGET_OUT : Field := ⟨.pwr, 0x20, 5, 1, .ro, 0⟩
/-- PWR_BAR_WAIT_FRACTION (R492 to R494): barrier wait, in 1/1,024, device-wide (R490). -/
def PWR_BAR_WAIT_FRACTION : Field := ⟨.pwr, 0x24, 0, 10, .ro, 0⟩
/-- PWR_REHEAT_CNT_COUNT (R492 to R494): reheat passes, or point changes, of the selected die, saturating at 0xFFFF_FFFF. -/
def PWR_REHEAT_CNT_COUNT : Field := ⟨.pwr, 0x28, 0, 32, .rc, 0⟩
/-- PWR_POINT_CNT_COUNT (R492 to R494): reheat passes, or point changes, of the selected die, saturating at 0xFFFF_FFFF. -/
def PWR_POINT_CNT_COUNT : Field := ⟨.pwr, 0x2C, 0, 32, .rc, 0⟩
/-- THERM_SEL_DIE (R492 to R494): 0–15 furnace, 16–19 port, 20–23 annex, 24 control; 25–31 show zero. -/
def THERM_SEL_DIE : Field := ⟨.therm, 0x0, 0, 5, .rw, 0⟩
/-- THERM_STATUS_STATE (R492 to R494): 0 normal; 1 soft throttle; 2 lehr; 3 tripped; 4 blind. -/
def THERM_STATUS_STATE : Field := ⟨.therm, 0x4, 29, 3, .ro, 0⟩
/-- THERM_STATUS_TRIP_LATCH (R492 to R494): 1: trip latched (R486). -/
def THERM_STATUS_TRIP_LATCH : Field := ⟨.therm, 0x4, 28, 1, .ro, 0⟩
/-- THERM_STATUS_TEMP (R492 to R494): die temperature, unsigned, 0.25 °C units. -/
def THERM_STATUS_TEMP : Field := ⟨.therm, 0x4, 16, 12, .ro, 0⟩
/-- THERM_STATUS_LAST_FAULT (R492 to R494): code of the last THERM fault of this die. -/
def THERM_STATUS_LAST_FAULT : Field := ⟨.therm, 0x4, 0, 16, .ro, 0⟩
/-- THERM_CTRL_CLEAR_TRIP (R492 to R494): 1: clear the latch of the selected die (R486); reads 0. -/
def THERM_CTRL_CLEAR_TRIP : Field := ⟨.therm, 0x8, 0, 1, .rwg, 0⟩
/-- THERM_SENSOR_BAD (R492 to R494): bit n: sensor n ignored (R483). -/
def THERM_SENSOR_BAD : Field := ⟨.therm, 0xC, 24, 8, .ro, 0⟩
/-- THERM_COOLANT_INLET (R492 to R494): inlet, 0.25 °C units. -/
def THERM_COOLANT_INLET : Field := ⟨.therm, 0x10, 20, 12, .ro, 0⟩
/-- THERM_COOLANT_OUTLET (R492 to R494): outlet, 0.25 °C units. -/
def THERM_COOLANT_OUTLET : Field := ⟨.therm, 0x10, 8, 12, .ro, 0⟩
/-- THERM_CNT_SOFT (R492 to R494): soft episodes of the selected die, saturating at 0xFFFF. -/
def THERM_CNT_SOFT : Field := ⟨.therm, 0x14, 16, 16, .rc, 0⟩
/-- THERM_CNT_HARD (R492 to R494): hard crossings of the selected die, saturating at 0xFFFF. -/
def THERM_CNT_HARD : Field := ⟨.therm, 0x14, 0, 16, .rc, 0⟩
/-- VR_SEL_PHASE (R492 to R494): phase shown at 0x10, 0–11; 12–15 show zero. -/
def VR_SEL_PHASE : Field := ⟨.vr, 0x0, 4, 4, .rw, 0⟩
/-- VR_SEL_DIE (R492 to R494): furnace rail shown. -/
def VR_SEL_DIE : Field := ⟨.vr, 0x0, 0, 4, .rw, 0⟩
/-- VR_RAIL_VSET (R492 to R494): set voltage, mV. -/
def VR_RAIL_VSET : Field := ⟨.vr, 0x4, 20, 12, .ro, 800⟩
/-- VR_RAIL_VSENSE (R492 to R494): sensed voltage, mV. -/
def VR_RAIL_VSENSE : Field := ⟨.vr, 0x4, 8, 12, .ro, 0⟩
/-- VR_CURRENT_IRAIL (R492 to R494): rail current, A. -/
def VR_CURRENT_IRAIL : Field := ⟨.vr, 0x8, 20, 12, .ro, 0⟩
/-- VR_CURRENT_ILIMIT (R492 to R494): continuous limit, A (R481). -/
def VR_CURRENT_ILIMIT : Field := ⟨.vr, 0x8, 8, 12, .ro, 192⟩
/-- VR_PHASES_LOST (R492 to R494): bit n: phase n lost. -/
def VR_PHASES_LOST : Field := ⟨.vr, 0xC, 20, 12, .ro, 0⟩
/-- VR_PHASES_OK (R492 to R494): phases in service. -/
def VR_PHASES_OK : Field := ⟨.vr, 0xC, 16, 4, .ro, 12⟩
/-- VR_PHASES_LOSSES (R492 to R494): losses since cold start, 0–3. -/
def VR_PHASES_LOSSES : Field := ⟨.vr, 0xC, 14, 2, .ro, 0⟩
/-- VR_PHASE_I_ISENSE (R492 to R494): sensed current of phase PHASE, A. -/
def VR_PHASE_I_ISENSE : Field := ⟨.vr, 0x10, 24, 8, .ro, 0⟩
/-- VR_PHASE_I_ISHARE (R492 to R494): its share of the rail current, A. -/
def VR_PHASE_I_ISHARE : Field := ⟨.vr, 0x10, 16, 8, .ro, 0⟩
/-- VR_INPUT_VIN (R492 to R494): 54 V input, 10 mV units. -/
def VR_INPUT_VIN : Field := ⟨.vr, 0x14, 16, 16, .ro, 0⟩
/-- VR_INPUT_IIN (R492 to R494): input current, 0.1 A units. -/
def VR_INPUT_IIN : Field := ⟨.vr, 0x14, 0, 16, .ro, 0⟩
/-- VR_CNT_TRANSIENT (R492 to R494): phase tests passed on repeat, selected rail, saturating at 0xFFFF. -/
def VR_CNT_TRANSIENT : Field := ⟨.vr, 0x18, 16, 16, .rc, 0⟩
/-- VR_CNT_LASTING (R492 to R494): phases lost, selected rail, saturating at 0xFFFF. -/
def VR_CNT_LASTING : Field := ⟨.vr, 0x18, 0, 16, .rc, 0⟩
/-- BOOT_STATUS_STEP (R520): step running, or 11 when ready. -/
def BOOT_STATUS_STEP : Field := ⟨.boot, 0x0, 28, 4, .ro, 0⟩
/-- BOOT_STATUS_MODE (R520): 0 starting; 1 ready; 2 safe; 3 waiting after FAIL (R512). -/
def BOOT_STATUS_MODE : Field := ⟨.boot, 0x0, 26, 2, .ro, 0⟩
/-- BOOT_STATUS_WARM (R520): 1: this start is warm. -/
def BOOT_STATUS_WARM : Field := ⟨.boot, 0x0, 25, 1, .ro, 0⟩
/-- BOOT_STATUS_DEGRADED (R520): 1: a step ended DEGRADED or SKIPPED. -/
def BOOT_STATUS_DEGRADED : Field := ⟨.boot, 0x0, 24, 1, .ro, 0⟩
/-- BOOT_STATUS_SAFE_STEP (R520): step that caused safe mode; 15 none. -/
def BOOT_STATUS_SAFE_STEP : Field := ⟨.boot, 0x0, 20, 4, .ro, 15⟩
/-- BOOT_STATUS_CAUSE (R520): 0 power-on; 1 host cold; 2 host warm; 3 FAILURE; 4 GAFFER_WDT; 5 MCTP cold; 6 MCTP warm. -/
def BOOT_STATUS_CAUSE : Field := ⟨.boot, 0x0, 16, 4, .ro, 0⟩
/-- BOOT_STATUS_LAST_FAULT (R520): code of the last BOOT or FW fault; 0 if none since the start. -/
def BOOT_STATUS_LAST_FAULT : Field := ⟨.boot, 0x0, 0, 16, .ro, 0⟩
/-- BOOT_CTRL_CMD (R520): 0b001 WARM; 0b010 COLD; 0b011 CLEAR_SAFE; others ignored; writes accepted from the gaffer and the physical function only. -/
def BOOT_CTRL_CMD : Field := ⟨.boot, 0x4, 29, 3, .wo, 0⟩
/-- BOOT_STEP_SEL_STEP (R520): step shown; 12–15 show zero. -/
def BOOT_STEP_SEL_STEP : Field := ⟨.boot, 0x8, 0, 4, .rw, 0⟩
/-- BOOT_STEP_OUTCOME (R520): R511, this start. -/
def BOOT_STEP_OUTCOME : Field := ⟨.boot, 0xC, 29, 3, .ro, 0⟩
/-- BOOT_STEP_ALT (R520): 1: alternate method used. -/
def BOOT_STEP_ALT : Field := ⟨.boot, 0xC, 28, 1, .ro, 0⟩
/-- BOOT_STEP_FAILS (R520): consecutive count (R513). -/
def BOOT_STEP_FAILS : Field := ⟨.boot, 0xC, 26, 2, .ro, 0⟩
/-- BOOT_STEP_NEXT (R520): rule for the next start: 0 normal; 1 alternate; 2 skip; 3 safe mode in the same start, for an S1 FAIL (R514). -/
def BOOT_STEP_NEXT : Field := ⟨.boot, 0xC, 24, 2, .ro, 0⟩
/-- BOOT_STEP_TIME_US (R520): duration in µs, saturating. -/
def BOOT_STEP_TIME_US : Field := ⟨.boot, 0xC, 0, 24, .ro, 0⟩
/-- BOOT_POLICY_MIN_STACKS (R520): stacks S5 requires; 0 acts as 1, above 8 as 8. -/
def BOOT_POLICY_MIN_STACKS : Field := ⟨.boot, 0x10, 28, 4, .rwg, 1⟩
/-- BOOT_POLICY_MIN_PKGS (R520): packages S6 requires; 0 acts as 1, above 24 as 24. -/
def BOOT_POLICY_MIN_PKGS : Field := ⟨.boot, 0x10, 23, 5, .rwg, 1⟩
/-- BOOT_POLICY_LOC_WAIT_S (R520): location wait in s (R515). -/
def BOOT_POLICY_LOC_WAIT_S : Field := ⟨.boot, 0x10, 15, 8, .rwg, 120⟩
/-- BOOT_POLICY_FULL_S7 (R520): 1: every warm restart runs S7 on all dies. -/
def BOOT_POLICY_FULL_S7 : Field := ⟨.boot, 0x10, 14, 1, .rwg, 0⟩
/-- BOOT_POLICY_AUTO_RESTART (R520): R512. -/
def BOOT_POLICY_AUTO_RESTART : Field := ⟨.boot, 0x10, 13, 1, .rwg, 1⟩
/-- BOOT_LEDGER_SEL_BACK (R520): entry shown: 0 this start, n the n-th before it. -/
def BOOT_LEDGER_SEL_BACK : Field := ⟨.boot, 0x14, 8, 8, .rw, 0⟩
/-- BOOT_LEDGER_SEL_WORD (R520): 32-bit word of the entry, 0–15. -/
def BOOT_LEDGER_SEL_WORD : Field := ⟨.boot, 0x14, 0, 4, .rw, 0⟩
/-- BOOT_LEDGER_DATA_DATA (R520): that word, little-endian; zero if the entry does not exist. -/
def BOOT_LEDGER_DATA_DATA : Field := ⟨.boot, 0x18, 0, 32, .ro, 0⟩
/-- BOOT_FW_G_BANK (R520): gaffer bank running: 0 A; 1 B. -/
def BOOT_FW_G_BANK : Field := ⟨.boot, 0x1C, 31, 1, .ro, 0⟩
/-- BOOT_FW_G_PEND (R520): 1: a gaffer bank is pending. -/
def BOOT_FW_G_PEND : Field := ⟨.boot, 0x1C, 30, 1, .ro, 0⟩
/-- BOOT_FW_S_BANK (R520): servitor bank running. -/
def BOOT_FW_S_BANK : Field := ⟨.boot, 0x1C, 29, 1, .ro, 0⟩
/-- BOOT_FW_S_PEND (R520): 1: a servitor bank is pending. -/
def BOOT_FW_S_PEND : Field := ⟨.boot, 0x1C, 28, 1, .ro, 0⟩
/-- BOOT_FW_ROM_GAFFER (R520): 1: the ROM gaffer runs (R514). -/
def BOOT_FW_ROM_GAFFER : Field := ⟨.boot, 0x1C, 27, 1, .ro, 0⟩
/-- BOOT_FW_S_HELD (R520): 1: servitor held (R499). -/
def BOOT_FW_S_HELD : Field := ⟨.boot, 0x1C, 26, 1, .ro, 0⟩
/-- BOOT_GVER_VERSION (R520): VERSION of the running gaffer image; 0 for the ROM gaffer. Reset: from image. -/
def BOOT_GVER_VERSION : Field := ⟨.boot, 0x20, 0, 32, .ro, 0⟩
/-- BOOT_SVER_VERSION (R520): VERSION of the running servitor image. Reset: from image. -/
def BOOT_SVER_VERSION : Field := ⟨.boot, 0x24, 0, 32, .ro, 0⟩
/-- BOOT_KEYS_VALID (R520): bit n: slot n holds a key. Reset: from store. -/
def BOOT_KEYS_VALID : Field := ⟨.boot, 0x28, 24, 8, .ro, 0⟩
/-- BOOT_HEARTBEAT_COUNT (R520): each write by the servitor is a heartbeat (R499); writes by other agents are ignored. -/
def BOOT_HEARTBEAT_COUNT : Field := ⟨.boot, 0x2C, 0, 32, .rw, 0⟩
/-- FLT_STATUS_DEV_COUNT (R543): records in the device ring, 0–4,096. -/
def FLT_STATUS_DEV_COUNT : Field := ⟨.flt, 0x0, 7, 13, .ro, 0⟩
/-- FLT_STATUS_HELD_LOST (R543): records beyond 64 lost before S9 (R531), saturating at 127. -/
def FLT_STATUS_HELD_LOST : Field := ⟨.flt, 0x0, 0, 7, .ro, 0⟩
/-- FLT_FN_SEL_FN (R543): 0 physical function; 1–16 virtual function; 17–31 show zero. -/
def FLT_FN_SEL_FN : Field := ⟨.flt, 0x4, 0, 5, .rw, 0⟩
/-- FLT_RING_LO_ADDR_LO (R543): host address bits 31:12. -/
def FLT_RING_LO_ADDR_LO : Field := ⟨.flt, 0x8, 12, 20, .rw, 0⟩
/-- FLT_RING_HI_ADDR_HI (R543): host address bits 63:32. -/
def FLT_RING_HI_ADDR_HI : Field := ⟨.flt, 0xC, 0, 32, .rw, 0⟩
/-- FLT_RING_CFG_ENABLE (R543): 1: records are written (R529). -/
def FLT_RING_CFG_ENABLE : Field := ⟨.flt, 0x10, 31, 1, .rw, 0⟩
/-- FLT_RING_CFG_SIZE_LOG (R543): ring of 2^SIZE_LOG records; values below 5 act as 5. -/
def FLT_RING_CFG_SIZE_LOG : Field := ⟨.flt, 0x10, 27, 4, .rw, 8⟩
/-- FLT_RING_CFG_VECTOR (R543): MSI-X vector of the function. -/
def FLT_RING_CFG_VECTOR : Field := ⟨.flt, 0x10, 16, 11, .rw, 0⟩
/-- FLT_RING_CFG_COAL_US (R543): interrupt coalescing in µs (R530). -/
def FLT_RING_CFG_COAL_US : Field := ⟨.flt, 0x10, 8, 8, .rw, 10⟩
/-- FLT_RING_HEAD_HEAD (R543): index of the next record to be written. -/
def FLT_RING_HEAD_HEAD : Field := ⟨.flt, 0x14, 0, 16, .ro, 0⟩
/-- FLT_RING_TAIL_TAIL (R543): index of the next record the host will read; a write that leaves (HEAD − TAIL) mod 65,536 above 2^SIZE_LOG is ignored. -/
def FLT_RING_TAIL_TAIL : Field := ⟨.flt, 0x18, 0, 16, .rw, 0⟩
/-- FLT_RING_LOST_COUNT (R543): records not written to this ring, saturating at 0xFFFF_FFFF. -/
def FLT_RING_LOST_COUNT : Field := ⟨.flt, 0x1C, 0, 32, .rc, 0⟩
/-- FLT_DEP_COUNT (R543): counted events since cold start (R535), saturating at 0xFFFF. -/
def FLT_DEP_COUNT : Field := ⟨.flt, 0x20, 16, 16, .ro, 0⟩
/-- FLT_WD_STATUS_STATE (R543): 0 IDLE, 1 DRAIN, 2 STOP, 3 LEAVE, 4 SAFE. -/
def FLT_WD_STATUS_STATE : Field := ⟨.flt, 0x24, 29, 3, .ro, 0⟩
/-- FLT_WD_STATUS_LATCH (R543): 1: latch closed. -/
def FLT_WD_STATUS_LATCH : Field := ⟨.flt, 0x24, 28, 1, .ro, 1⟩
/-- FLT_WD_STATUS_FORCED (R543): 1: the withdraw is forced. -/
def FLT_WD_STATUS_FORCED : Field := ⟨.flt, 0x24, 27, 1, .ro, 0⟩
/-- FLT_WD_STATUS_GRACE_LEFT (R543): seconds of grace remaining. -/
def FLT_WD_STATUS_GRACE_LEFT : Field := ⟨.flt, 0x24, 16, 11, .ro, 0⟩
/-- FLT_WD_CFG_GRACE_S (R543): grace in DRAIN, s; physical function and servitor only. -/
def FLT_WD_CFG_GRACE_S : Field := ⟨.flt, 0x28, 16, 16, .rw, 60⟩
/-- FLT_WD_CFG_REQ (R543): 1: withdraw request, as a button press (R539). -/
def FLT_WD_CFG_REQ : Field := ⟨.flt, 0x28, 0, 1, .wo, 0⟩
/-- HOST_FN_ID_PART_STATE (R565): PART_STATUS.STATE of the function's partition (R393). -/
def HOST_FN_ID_PART_STATE : Field := ⟨.host, 0x0, 30, 2, .ro, 0⟩
/-- HOST_FN_ID_PART (R565): partition owned; 0xFF none. -/
def HOST_FN_ID_PART : Field := ⟨.host, 0x0, 8, 8, .ro, 255⟩
/-- HOST_FN_ID_FN (R565): 0 PF; 1–16 VF. Reset: per function. -/
def HOST_FN_ID_FN : Field := ⟨.host, 0x0, 0, 5, .ro, 0⟩
/-- HOST_Q_SEL_Q (R565): queue pair shown at 0x08–0x1C. -/
def HOST_Q_SEL_Q : Field := ⟨.host, 0x4, 0, 2, .rw, 0⟩
/-- HOST_Q_SQ_LO_ADDR_LO (R565): bus address bits 31:12; writes take effect only with ENABLE = 0. -/
def HOST_Q_SQ_LO_ADDR_LO : Field := ⟨.host, 0x8, 12, 20, .rw, 0⟩
/-- HOST_Q_CQ_LO_ADDR_LO (R565): bus address bits 31:12; writes take effect only with ENABLE = 0. -/
def HOST_Q_CQ_LO_ADDR_LO : Field := ⟨.host, 0x10, 12, 20, .rw, 0⟩
/-- HOST_Q_SQ_HI_ADDR_HI (R565): bus address bits 63:32. -/
def HOST_Q_SQ_HI_ADDR_HI : Field := ⟨.host, 0xC, 0, 32, .rw, 0⟩
/-- HOST_Q_CQ_HI_ADDR_HI (R565): bus address bits 63:32. -/
def HOST_Q_CQ_HI_ADDR_HI : Field := ⟨.host, 0x14, 0, 32, .rw, 0⟩
/-- HOST_Q_CFG_ENABLE (R565): 1: queue pair runs (R560). -/
def HOST_Q_CFG_ENABLE : Field := ⟨.host, 0x18, 31, 1, .rw, 0⟩
/-- HOST_Q_CFG_SIZE_LOG (R565): 2^SIZE_LOG entries; below 4 acts as 4, above 12 as 12. -/
def HOST_Q_CFG_SIZE_LOG : Field := ⟨.host, 0x18, 27, 4, .rw, 8⟩
/-- HOST_Q_CFG_VECTOR (R565): MSI-X vector of the CQ. -/
def HOST_Q_CFG_VECTOR : Field := ⟨.host, 0x18, 16, 11, .rw, 0⟩
/-- HOST_Q_CFG_COAL_US (R565): coalescing in µs (R530). -/
def HOST_Q_CFG_COAL_US : Field := ⟨.host, 0x18, 8, 8, .rw, 10⟩
/-- HOST_Q_STATUS_STATE (R565): 0 OFF; 1 RUN; 2 ERROR. -/
def HOST_Q_STATUS_STATE : Field := ⟨.host, 0x1C, 30, 2, .ro, 0⟩
/-- HOST_Q_STATUS_SQ_HEAD (R565): next entry to fetch. -/
def HOST_Q_STATUS_SQ_HEAD : Field := ⟨.host, 0x1C, 16, 12, .ro, 0⟩
/-- HOST_Q_STATUS_CQ_TAIL (R565): next entry to write. -/
def HOST_Q_STATUS_CQ_TAIL : Field := ⟨.host, 0x1C, 0, 12, .ro, 0⟩
/-- HOST_WIN_SEL_WIN (R565): window shown. -/
def HOST_WIN_SEL_WIN : Field := ⟨.host, 0x20, 0, 3, .rw, 0⟩
/-- HOST_WIN_LO_BASE_LO (R565): bus base bits 31:12. -/
def HOST_WIN_LO_BASE_LO : Field := ⟨.host, 0x24, 12, 20, .rw, 0⟩
/-- HOST_WIN_HI_BASE_HI (R565): bus base bits 63:32. -/
def HOST_WIN_HI_BASE_HI : Field := ⟨.host, 0x28, 0, 32, .rw, 0⟩
/-- HOST_WIN_CFG_VALID (R565): 1: window in use (R554). -/
def HOST_WIN_CFG_VALID : Field := ⟨.host, 0x2C, 31, 1, .rw, 0⟩
/-- HOST_WIN_CFG_WRITE (R565): 1: the device may write through it. -/
def HOST_WIN_CFG_WRITE : Field := ⟨.host, 0x2C, 30, 1, .rw, 0⟩
/-- HOST_WIN_CFG_SIZE (R565): size in 4 KiB units − 1. -/
def HOST_WIN_CFG_SIZE : Field := ⟨.host, 0x2C, 0, 30, .rw, 0⟩
/-- HOST_MBOX_CTRL_GO (R565): 1: run the request in the buffer (R562). -/
def HOST_MBOX_CTRL_GO : Field := ⟨.host, 0x30, 31, 1, .wo, 0⟩
/-- HOST_MBOX_CTRL_VECTOR (R565): MSI-X vector for DONE. -/
def HOST_MBOX_CTRL_VECTOR : Field := ⟨.host, 0x30, 0, 11, .rw, 0⟩
/-- HOST_MBOX_STATUS_BUSY (R565): 1: a request is running. -/
def HOST_MBOX_STATUS_BUSY : Field := ⟨.host, 0x34, 31, 1, .ro, 0⟩
/-- HOST_MBOX_STATUS_DONE (R565): sticky: a request ended. -/
def HOST_MBOX_STATUS_DONE : Field := ⟨.host, 0x34, 30, 1, .w1c, 0⟩
/-- HOST_MBOX_STATUS_RESULT (R565): 0, or the code that ended the request. -/
def HOST_MBOX_STATUS_RESULT : Field := ⟨.host, 0x34, 0, 16, .ro, 0⟩
/-- HOST_LINK_UP (R565): 1: link up. -/
def HOST_LINK_UP : Field := ⟨.host, 0x38, 31, 1, .ro, 0⟩
/-- HOST_LINK_FLIT (R565): 1: FLIT mode. -/
def HOST_LINK_FLIT : Field := ⟨.host, 0x38, 30, 1, .ro, 0⟩
/-- HOST_LINK_RATE (R565): 0 2.5, 1 5, 2 8, 3 16, 4 32, 5 64 GT/s. -/
def HOST_LINK_RATE : Field := ⟨.host, 0x38, 27, 3, .ro, 0⟩
/-- HOST_LINK_WIDTH (R565): lanes, 1–16. -/
def HOST_LINK_WIDTH : Field := ⟨.host, 0x38, 22, 5, .ro, 0⟩
/-- HOST_LINK_DOWN_CNT (R565): link-down events since cold start, saturating at 0xFFFF. -/
def HOST_LINK_DOWN_CNT : Field := ⟨.host, 0x38, 0, 16, .rc, 0⟩
/-- MOD_STATUS_LATCH (R587): 1: latch closed. -/
def MOD_STATUS_LATCH : Field := ⟨.mod, 0x0, 31, 1, .ro, 1⟩
/-- MOD_STATUS_BUTTON (R587): 1: button pressed now. -/
def MOD_STATUS_BUTTON : Field := ⟨.mod, 0x0, 30, 1, .ro, 0⟩
/-- MOD_STATUS_VIN_OK (R587): 1: input within 48.0–58.0 V. -/
def MOD_STATUS_VIN_OK : Field := ⟨.mod, 0x0, 29, 1, .ro, 0⟩
/-- MOD_STATUS_FLOW_OK (R587): 1: no low-flow episode (R575). -/
def MOD_STATUS_FLOW_OK : Field := ⟨.mod, 0x0, 28, 1, .ro, 0⟩
/-- MOD_STATUS_MGMT_ADDR (R587): 1: dynamic address assigned. -/
def MOD_STATUS_MGMT_ADDR : Field := ⟨.mod, 0x0, 27, 1, .ro, 0⟩
/-- MOD_STATUS_CBL_PRSNT (R587): bit k: a cable is present on connector k (R573). -/
def MOD_STATUS_CBL_PRSNT : Field := ⟨.mod, 0x0, 23, 4, .ro, 0⟩
/-- MOD_STATUS_LAST_FAULT (R587): code of the last MOD fault; 0 if none since the start. -/
def MOD_STATUS_LAST_FAULT : Field := ⟨.mod, 0x0, 0, 16, .ro, 0⟩
/-- MOD_COOLANT_FLOW (R587): flow in 0.01 L/min. -/
def MOD_COOLANT_FLOW : Field := ⟨.mod, 0x4, 16, 16, .ro, 0⟩
/-- MOD_LED_IDENTIFY (R587): 1: S blinks white (R583). -/
def MOD_LED_IDENTIFY : Field := ⟨.mod, 0x8, 31, 1, .rw, 0⟩
/-- MOD_LED_S (R587): colour shown: 0 off, 1 red, 2 green, 3 blue, 4 amber, 5 white. -/
def MOD_LED_S : Field := ⟨.mod, 0x8, 12, 3, .ro, 0⟩
/-- MOD_LED_F (R587): as S. -/
def MOD_LED_F : Field := ⟨.mod, 0x8, 9, 3, .ro, 0⟩
/-- MOD_LED_H (R587): as S. -/
def MOD_LED_H : Field := ⟨.mod, 0x8, 6, 3, .ro, 0⟩
/-- MOD_LED_W (R587): as S. -/
def MOD_LED_W : Field := ⟨.mod, 0x8, 3, 3, .ro, 0⟩
/-- MOD_LED_BLINK (R587): bit 2 S, bit 1 F and H, bit 0 W: 1 blinking. -/
def MOD_LED_BLINK : Field := ⟨.mod, 0x8, 0, 3, .ro, 0⟩
/-- MOD_MGMT_EID (R587): MCTP endpoint ID; 0 none. -/
def MOD_MGMT_EID : Field := ⟨.mod, 0xC, 24, 8, .ro, 0⟩
/-- MOD_MGMT_DADDR (R587): I3C dynamic address. -/
def MOD_MGMT_DADDR : Field := ⟨.mod, 0xC, 17, 7, .ro, 0⟩
/-- MOD_MGMT_ERRORS (R587): transactions that failed parity, saturating at 0xFFFF. -/
def MOD_MGMT_ERRORS : Field := ⟨.mod, 0xC, 0, 16, .rc, 0⟩
/-- MOD_CNT_VIN (R587): MOD_VIN_RANGE episodes, saturating at 255. -/
def MOD_CNT_VIN : Field := ⟨.mod, 0x10, 24, 8, .rc, 0⟩
/-- MOD_CNT_FLOW (R587): low-flow episodes, saturating at 255. -/
def MOD_CNT_FLOW : Field := ⟨.mod, 0x10, 16, 8, .rc, 0⟩
/-- MOD_CNT_BUS (R587): bus resets (R581), saturating at 255. -/
def MOD_CNT_BUS : Field := ⟨.mod, 0x10, 8, 8, .rc, 0⟩
/-- MOD_CNT_PRESS (R587): button presses of 0.5 s or more, saturating at 255. -/
def MOD_CNT_PRESS : Field := ⟨.mod, 0x10, 0, 8, .rc, 0⟩
/-- PAR_REF_CNT_TRANSIENT (R175): transient reference events (R160). -/
def PAR_REF_CNT_TRANSIENT : Field := ⟨.par, 0x20, 16, 16, .rc, 0⟩
/-- PAR_REF_CNT_LASTING (R175): lasting reference events (R160). -/
def PAR_REF_CNT_LASTING : Field := ⟨.par, 0x20, 0, 16, .rc, 0⟩
/-- PAR_CAL_CNT_COMMITTED (R175): committed calibrations. -/
def PAR_CAL_CNT_COMMITTED : Field := ⟨.par, 0x24, 16, 16, .rc, 0⟩
/-- PAR_CAL_CNT_REJECTED (R175): rejected attempts. -/
def PAR_CAL_CNT_REJECTED : Field := ⟨.par, 0x24, 0, 16, .rc, 0⟩

/-- The fields of block `dev`. -/
def devFields : List Field :=
  [ DEV_ID_PART_CODE, DEV_ID_STEP_LETTER, DEV_ID_STEP_DIGIT, DEV_SERIAL_LO_SERIAL_BCD_LO, DEV_SERIAL_HI_SERIAL_BCD_HI, DEV_ARCH_ARCH_MAJOR, DEV_ARCH_ARCH_MINOR, DEV_DIES_GRID_ROWS, DEV_DIES_GRID_COLS, DEV_DIES_FURNACE, DEV_DIES_PORT, DEV_DIES_ANNEX, DEV_DIES_CONTROL, DEV_BENCH_BENCH_ROWS, DEV_BENCH_BENCH_COLS, DEV_BENCH_BENCHES] ++
  [ DEV_POT_POTS, DEV_POT_SPARSE_FIRST, DEV_POT_SPARSE_COUNT, DEV_POT_SEGMENTS, DEV_POT_GEOM_ROWS, DEV_POT_GEOM_DATA_COLS, DEV_POT_COLS_ROW_GROUP, DEV_POT_COLS_WITNESS, DEV_POT_COLS_SPARE, DEV_PAR_ROWS, DEV_PAR_COL_PAIRS, DEV_PAR_ACTIVE_ROWS, DEV_SPAD_BANKS, DEV_SPAD_SLOT_KIB, DEV_SPAD_SLOTS, DEV_SEQ_IMEM] ++
  [ DEV_SEQ_INFLIGHT, DEV_SEQ_LOOP_REGS, DEV_MEM_HBM_STACKS, DEV_MEM_TIERB_PKGS, DEV_MEM_SIZE_TIERB_GIB, DEV_MEM_SIZE_TIERA_GIB, DEV_FABRIC_CANES, DEV_FABRIC_LANES, DEV_FABRIC_MAX_DEVICES, DEV_INFLIGHT_REMOTE, DEV_INFLIGHT_DMA_PER_DIE, DEV_LOCATION_VALID, DEV_LOCATION_X, DEV_LOCATION_Y, DEV_LOCATION_Z]

/-- The fields of block `boot`. -/
def bootFields : List Field :=
  [ BOOT_STATUS_STEP, BOOT_STATUS_MODE, BOOT_STATUS_WARM, BOOT_STATUS_DEGRADED, BOOT_STATUS_SAFE_STEP, BOOT_STATUS_CAUSE, BOOT_STATUS_LAST_FAULT, BOOT_CTRL_CMD, BOOT_STEP_SEL_STEP, BOOT_STEP_OUTCOME, BOOT_STEP_ALT, BOOT_STEP_FAILS, BOOT_STEP_NEXT, BOOT_STEP_TIME_US, BOOT_POLICY_MIN_STACKS, BOOT_POLICY_MIN_PKGS] ++
  [ BOOT_POLICY_LOC_WAIT_S, BOOT_POLICY_FULL_S7, BOOT_POLICY_AUTO_RESTART, BOOT_LEDGER_SEL_BACK, BOOT_LEDGER_SEL_WORD, BOOT_LEDGER_DATA_DATA, BOOT_FW_G_BANK, BOOT_FW_G_PEND, BOOT_FW_S_BANK, BOOT_FW_S_PEND, BOOT_FW_ROM_GAFFER, BOOT_FW_S_HELD, BOOT_GVER_VERSION, BOOT_SVER_VERSION, BOOT_KEYS_VALID, BOOT_HEARTBEAT_COUNT]

/-- The fields of block `batch`. -/
def batchFields : List Field :=
  [ BATCH_CTRL_GO, BATCH_CTRL_OP, BATCH_CTRL_PART, BATCH_SRC_LO_ADDR_LO, BATCH_SRC_HI_ADDR_HI, BATCH_LEN_LEN, BATCH_STATUS_STATE, BATCH_STATUS_DONE, BATCH_STATUS_RESULT, BATCH_ERR_INFO_OFFSET, BATCH_VERSION_VERSION]

/-- The fields of block `part`. -/
def partFields : List Field :=
  [ PART_SEL_PART, PART_STATUS_STATE, PART_STATUS_DEGRADED, PART_STATUS_BENCHES, PART_CFG_VALID, PART_CFG_HOST_FN, PART_CFG_KEY_SLOT, PART_CFG_FAB_TAG, PART_GROUPS_BAR_FIRST, PART_GROUPS_BAR_COUNT, PART_GROUPS_BC_FIRST, PART_GROUPS_BC_COUNT, PART_VERSION_VERSION, PART_WIN_SEL_WIN, PART_WIN_VALID, PART_WIN_WRITE] ++
  [ PART_WIN_BASE, PART_WIN_SIZE, PART_SNAPSHOT_ADDR]

/-- The fields of block `pwr`. -/
def pwrFields : List Field :=
  [ PWR_STATUS_MODE, PWR_STATUS_MGR_LOST, PWR_STATUS_SUSTAIN, PWR_STATUS_LAST_FAULT, PWR_CAP_CAP_W, PWR_CAP_LEASE_S, PWR_CAP_FAB_CAP, PWR_CAP_SOURCE, PWR_FALLBACK_FALLBACK_W, PWR_FALLBACK_FABRIC_W, PWR_INPUT_INPUT_W, PWR_INPUT_FLOOR_W, PWR_DIE_SEL_DIE, PWR_DIE_STATUS_POINT, PWR_DIE_STATUS_MAX_EFF, PWR_DIE_STATUS_LIMIT] ++
  [ PWR_DIE_STATUS_FENCED, PWR_DIE_STATUS_P0_BARRED, PWR_DIE_STATUS_DUTY, PWR_DIE_STATUS_BUDGET_W, PWR_DIE_CFG_MAX_POINT, PWR_DIE_CFG_P0_ALLOW, PWR_DIE_CFG_REHEAT_EN, PWR_TRANS_GROUP_CYC, PWR_TRANS_REHEAT_DECAY_US, PWR_P0_INFO_USED_S, PWR_P0_INFO_CONT_MS, PWR_P0_INFO_BAR_MS, PWR_P0_INFO_BUDGET_OUT, PWR_BAR_WAIT_FRACTION, PWR_REHEAT_CNT_COUNT, PWR_POINT_CNT_COUNT]

/-- The fields of block `therm`. -/
def thermFields : List Field :=
  [ THERM_SEL_DIE, THERM_STATUS_STATE, THERM_STATUS_TRIP_LATCH, THERM_STATUS_TEMP, THERM_STATUS_LAST_FAULT, THERM_CTRL_CLEAR_TRIP, THERM_SENSOR_BAD, THERM_COOLANT_INLET, THERM_COOLANT_OUTLET, THERM_CNT_SOFT, THERM_CNT_HARD]

/-- The fields of block `vr`. -/
def vrFields : List Field :=
  [ VR_SEL_PHASE, VR_SEL_DIE, VR_RAIL_VSET, VR_RAIL_VSENSE, VR_CURRENT_IRAIL, VR_CURRENT_ILIMIT, VR_PHASES_LOST, VR_PHASES_OK, VR_PHASES_LOSSES, VR_PHASE_I_ISENSE, VR_PHASE_I_ISHARE, VR_INPUT_VIN, VR_INPUT_IIN, VR_CNT_TRANSIENT, VR_CNT_LASTING]

/-- The fields of block `flt`. -/
def fltFields : List Field :=
  [ FLT_STATUS_DEV_COUNT, FLT_STATUS_HELD_LOST, FLT_FN_SEL_FN, FLT_RING_LO_ADDR_LO, FLT_RING_HI_ADDR_HI, FLT_RING_CFG_ENABLE, FLT_RING_CFG_SIZE_LOG, FLT_RING_CFG_VECTOR, FLT_RING_CFG_COAL_US, FLT_RING_HEAD_HEAD, FLT_RING_TAIL_TAIL, FLT_RING_LOST_COUNT, FLT_DEP_COUNT, FLT_WD_STATUS_STATE, FLT_WD_STATUS_LATCH, FLT_WD_STATUS_FORCED] ++
  [ FLT_WD_STATUS_GRACE_LEFT, FLT_WD_CFG_GRACE_S, FLT_WD_CFG_REQ]

/-- The fields of block `host`. -/
def hostFields : List Field :=
  [ HOST_FN_ID_PART_STATE, HOST_FN_ID_PART, HOST_FN_ID_FN, HOST_Q_SEL_Q, HOST_Q_SQ_LO_ADDR_LO, HOST_Q_CQ_LO_ADDR_LO, HOST_Q_SQ_HI_ADDR_HI, HOST_Q_CQ_HI_ADDR_HI, HOST_Q_CFG_ENABLE, HOST_Q_CFG_SIZE_LOG, HOST_Q_CFG_VECTOR, HOST_Q_CFG_COAL_US, HOST_Q_STATUS_STATE, HOST_Q_STATUS_SQ_HEAD, HOST_Q_STATUS_CQ_TAIL, HOST_WIN_SEL_WIN] ++
  [ HOST_WIN_LO_BASE_LO, HOST_WIN_HI_BASE_HI, HOST_WIN_CFG_VALID, HOST_WIN_CFG_WRITE, HOST_WIN_CFG_SIZE, HOST_MBOX_CTRL_GO, HOST_MBOX_CTRL_VECTOR, HOST_MBOX_STATUS_BUSY, HOST_MBOX_STATUS_DONE, HOST_MBOX_STATUS_RESULT, HOST_LINK_UP, HOST_LINK_FLIT, HOST_LINK_RATE, HOST_LINK_WIDTH, HOST_LINK_DOWN_CNT]

/-- The fields of block `mod`. -/
def modFields : List Field :=
  [ MOD_STATUS_LATCH, MOD_STATUS_BUTTON, MOD_STATUS_VIN_OK, MOD_STATUS_FLOW_OK, MOD_STATUS_MGMT_ADDR, MOD_STATUS_CBL_PRSNT, MOD_STATUS_LAST_FAULT, MOD_COOLANT_FLOW, MOD_LED_IDENTIFY, MOD_LED_S, MOD_LED_F, MOD_LED_H, MOD_LED_W, MOD_LED_BLINK, MOD_MGMT_EID, MOD_MGMT_DADDR] ++
  [ MOD_MGMT_ERRORS, MOD_CNT_VIN, MOD_CNT_FLOW, MOD_CNT_BUS, MOD_CNT_PRESS]

/-- The fields of block `cane`. -/
def caneFields : List Field :=
  [ CANE_SEL_CANE, CANE_STATUS_STATE, CANE_STATUS_WIDTH, CANE_STATUS_FAILS, CANE_STATUS_PREC, CANE_STATUS_LASTING, CANE_STATUS_LAST_FAULT, CANE_CTRL_TRAIN, CANE_CTRL_PARK, CANE_CTRL_RETRAIN_FULL, CANE_CTRL_RETRAIN_FAST, CANE_CFG_AUTO_RETRY, CANE_CFG_MIN_LANES, CANE_CFG_LANE_TH, CANE_PARTNER_VALID, CANE_PARTNER_LOC_VALID] ++
  [ CANE_PARTNER_CANE, CANE_PARTNER_DEVICE, CANE_EXPECT_VALID, CANE_EXPECT_DEVICE, CANE_LANES_GOOD, CANE_LANES_ACTIVE, CANE_ERR_CNT_TRANSIENT, CANE_ERR_CNT_LASTING, CANE_REPLAY_CNT_FLITS, CANE_REPLAY_CNT_FULL, CANE_REPLAY_CNT_LOST, CANE_FEC_CNT_UNCORR, CANE_LANE_SEL_LANE, CANE_LANE_ERR_SYMBOLS, CANE_VC0_CNT_SENT, CANE_VC0_CNT_DROPPED] ++
  [ CANE_TX_KIB_COUNT, CANE_RX_KIB_COUNT]

/-- The fields of block `fab`. -/
def fabFields : List Field :=
  [ FAB_STATUS_LASTING, FAB_STATUS_LAST_FAULT, FAB_CFG_TMO_MGMT, FAB_CFG_TMO, FAB_XACT_CNT_TRANSIENT, FAB_XACT_CNT_LASTING, FAB_DUP_CNT_DUP, FAB_DUP_CNT_BUSY, FAB_REJECT_CNT_TAG, FAB_REJECT_CNT_GEN, FAB_REJECT_CNT_AGE, FAB_REJECT_CNT_TYPE, FAB_TID_INUSE_PEAK, FAB_TID_INUSE_NOW, FAB_TID_INUSE_WAIT, FAB_DETOUR_VALID1] ++
  [ FAB_DETOUR_VALID0, FAB_DETOUR_FAILED1, FAB_DETOUR_FAILED0, FAB_DETOUR_STEP1, FAB_DETOUR_STEP0, FAB_TIME_CFG_VALID, FAB_TIME_CFG_MASTER, FAB_TIME_CFG_SYNC_LOG, FAB_TIME_CFG_OFFSET, FAB_TIME_LO_TIME_LO, FAB_TIME_HI_TIME_HI, FAB_RING_SEL_RING, FAB_RING_CFG_VALID, FAB_RING_CFG_PORT, FAB_RING_CFG_N, FAB_RING_CFG_POS] ++
  [ FAB_RING_CFG_HEAD, FAB_RING_PEER_NEXT, FAB_RING_PEER_PREV, FAB_RING_PEER_FTAG, FAB_RING_Q_BASE, FAB_BAR_SEL_GROUP, FAB_BAR_CFG_VALID, FAB_BAR_CFG_D, FAB_BAR_CFG_HOME, FAB_BAR_EPOCH_F]

/-- The fields of block `memb`. -/
def membFields : List Field :=
  [ MEMB_STATUS_STATE, MEMB_STATUS_LASTING, MEMB_STATUS_TEMP, MEMB_STATUS_LAST_FAULT, MEMB_ERR_CNT_CORR, MEMB_ERR_CNT_TRANSIENT, MEMB_ERR_INFO_VALID, MEMB_ERR_INFO_KIND, MEMB_ERR_INFO_CHAN, MEMB_ERR_INFO_COUNT, MEMB_ERR_ADDR_LO_ADDR_LO, MEMB_ERR_ADDR_HI_ADDR_HI, MEMB_SCRUB_PERIOD, MEMB_SCRUB_PASSES, MEMB_REPAIR_USED, MEMB_REPAIR_LEFT] ++
  [ MEMB_RD_KIB_COUNT, MEMB_WR_KIB_COUNT, MEMB_SEL_PKG]

/-- The fields of block `noc`. -/
def nocFields : List Field :=
  [ NOC_STATUS_LASTING, NOC_STATUS_HOMED, NOC_STATUS_LAST_FAULT, NOC_ERR_CNT_CORR, NOC_ERR_CNT_TRANSIENT, NOC_LINK_INFO_VALID, NOC_LINK_INFO_NODE, NOC_LINK_INFO_DIR, NOC_LINK_INFO_COUNT, NOC_BAR_SEL_GROUP, NOC_BAR_CFG_HOME, NOC_BAR_CFG_SPANS, NOC_BAR_CFG_ARRIVED, NOC_BAR_CFG_MEMBERS, NOC_BAR_EPOCH_EXPECT]

/-- The fields of block `pkg`. -/
def pkgFields : List Field :=
  [ PKG_LINK_SEL_EDGE, PKG_LINK_STATUS_STATE, PKG_LINK_STATUS_DETOUR, PKG_LINK_STATUS_FAILS, PKG_LINK_STATUS_LAST_FAULT, PKG_LINK_CNT_TRANSIENT, PKG_LINK_CNT_LASTING, PKG_REPLAY_CNT_COUNT]

/-- The fields of block `dreg`. -/
def dregFields : List Field :=
  [ DMA_REG_SEL_PART, DMA_REG_CFG_POOL, DMA_REG_CFG_SHARE, DMA_REG_CFG_READ, DMA_REG_CFG_WRITE, DMA_REG_CFG_REMOTE]

/-- The fields of block `mema`. -/
def memaFields : List Field :=
  [ MEMA_STATUS_STATE, MEMA_STATUS_LASTING, MEMA_STATUS_TEMP, MEMA_STATUS_LAST_FAULT, MEMA_ERR_CNT_CORR, MEMA_ERR_CNT_TRANSIENT, MEMA_ERR_INFO_VALID, MEMA_ERR_INFO_KIND, MEMA_ERR_INFO_CHAN, MEMA_ERR_INFO_COUNT, MEMA_ERR_ADDR_LO_ADDR_LO, MEMA_ERR_ADDR_HI_ADDR_HI, MEMA_SCRUB_PERIOD, MEMA_SCRUB_PASSES, MEMA_REPAIR_USED, MEMA_REPAIR_LEFT] ++
  [ MEMA_RD_KIB_COUNT, MEMA_WR_KIB_COUNT]

/-- The fields of block `bench`. -/
def benchFields : List Field :=
  [ BENCH_PRNG_SEL_SUBSTREAM, BENCH_PRNG_STATE_LO_STATE_LO, BENCH_PRNG_STATE_HI_STATE_HI, BENCH_PRNG_ID_LOGICAL, BENCH_ST_CTRL_REQ, BENCH_ST_CTRL_POT, BENCH_ST_STATUS_BUSY, BENCH_ST_STATUS_POT, BENCH_ST_STATUS_WINDOW_OK, BENCH_ST_WAIT_COUNT, BENCH_WAIT_STATUS_STUCK, BENCH_WAIT_STATUS_OUTSIDE, BENCH_WAIT_STATUS_UNIT, BENCH_WAIT_STATUS_CAUSE, BENCH_WAIT_STATUS_OBJECT, BENCH_WAIT_CYC_CYCLES]

/-- The fields of block `par`. -/
def parFields : List Field :=
  [ PAR_CFG_STALE_POLICY, PAR_CFG_CAL_DTEMP, PAR_CFG_CAL_PERIOD, PAR_STATUS_BUSY, PAR_STATUS_FAULT_HOLD, PAR_STATUS_CAL_VALID, PAR_STATUS_CAL_STALE, PAR_STATUS_CAL_ACTIVE, PAR_STATUS_SETTLE_LEFT, PAR_STATUS_REMAPS, PAR_STATUS_DEAD, PAR_STATUS_LAST_FAULT, PAR_CTRL_CAL_REQ, PAR_CAL_INFO_TEMP, PAR_CAL_INFO_AGE, PAR_CAL_INFO_RESULT] ++
  [ PAR_TRIM_SEL, PAR_TRIM_BAD, PAR_TRIM_TRIM, PAR_REMAP_TBL_SEL, PAR_REMAP_TBL_VALID, PAR_REMAP_TBL_PAIR, PAR_CMP_CNT_COUNT, PAR_SETTLE_CNT_COUNT, PAR_CAL_WAIT_COUNT, PAR_STALL_COUNT, PAR_LIVE_CNT_COUNT, PAR_REF_CNT_TRANSIENT, PAR_REF_CNT_LASTING, PAR_CAL_CNT_COMMITTED, PAR_CAL_CNT_REJECTED]

/-- The fields of block `pot`. -/
def potFields : List Field :=
  [ POT_CFG_ROLE, POT_CFG_SPARSE_CAP, POT_CFG_XPOSE_CAP, POT_CFG_VALID, POT_CFG_WFMT, POT_STATUS_BUSY, POT_STATUS_FAULT_HOLD, POT_STATUS_POOL_CNT, POT_STATUS_SAT, POT_STATUS_FLUSH, POT_STATUS_CLAMP, POT_STATUS_LAST_FAULT, POT_CTRL_POOL_ABORT, POT_FLUSH_CNT_COUNT, POT_FRZ_FEED_COUNT, POT_FRZ_BACK_COUNT] ++
  [ POT_FRZ_RETRY_COUNT, POT_MASK_WAIT_COUNT, POT_PASS_CNT_COUNT, POT_STEP_CNT_COUNT, POT_INTEG_SUSPECT, POT_INTEG_RETIRED, POT_INTEG_SHADOW_OK, POT_INTEG_ST_ACTIVE, POT_INTEG_ST_KIND, POT_INTEG_ST_PENDING, POT_INTEG_CULLET_USED, POT_INTEG_NFF, POT_WIT_CNT_TRANSIENT, POT_WIT_CNT_UNCHECKED, POT_WIT_INFO_LASTING, POT_WIT_INFO_MODE] ++
  [ POT_WIT_INFO_SEGMENT, POT_WIT_INFO_GROUP, POT_WIT_INFO_STEP, POT_WIT_INFO_EXPECT, POT_WIT_INFO_SEEN, POT_WIT_INFO_LEVEL, POT_WIT_INFO_SWEEP, POT_WIT_INFO_ROW, POT_CULLET_SEL, POT_CULLET_VALID, POT_CULLET_SEGMENT, POT_CULLET_COLUMN, POT_CULLET_SPARE, POT_CULLET_MARGINAL, POT_SHADOW_ADDR, POT_ST_INFO_AGE] ++
  [ POT_ST_INFO_DEFERRALS, POT_ST_INFO_RESULT]

/-- The fields of block `sparse`. -/
def sparseFields : List Field :=
  [ POT_SP_CFG_TILED, POT_SP_CFG_BLOCKS, POT_SP_CFG_RG_DENSE, POT_SP_CFG_RG_LANE, POT_SP_CFG_RG_SUB, POT_SP_CFG_RG_VOID, POT_SP_TILE_SEL, POT_SP_TILE_CLASS, POT_SP_TILE_BLOCK, POT_SP_CNT_META_TRANSIENT, POT_SP_CNT_CRC_TRANSIENT, POT_SP_CMP_WAIT_COUNT, POT_SP_STEPS_COUNT, POT_SP_COST_COUNT]

/-- The fields of block `upd`. -/
def updFields : List Field :=
  [ POT_UPD_STATUS_ACTIVE, POT_UPD_STATUS_RUN, POT_UPD_STATUS_NEXT_ROW, POT_UPD_STATUS_RUN_NEXT, POT_UPD_STATUS_WLOSS, POT_UPD_STATUS_WSAT, POT_UPD_STATUS_DLOSS, POT_UPD_RUN_ADDR, POT_UPD_CLAMP_WEIGHT, POT_UPD_CLAMP_RESIDUE, POT_UPD_ROWS_COUNT]

/-- The fields of block `jack`. -/
def jackFields : List Field :=
  [ JACK_STATUS_BUSY, JACK_STATUS_FAULT_HOLD, JACK_STATUS_CHAIN, JACK_STATUS_RLOSS, JACK_STATUS_FLUSH, JACK_STATUS_NANF, JACK_STATUS_VSAT, JACK_STATUS_QCLAMP, JACK_STATUS_LAST_FAULT, JACK_FAULT_POS_TILE, JACK_FAULT_POS_ROW, JACK_SLICE_CNT_COUNT, JACK_VEC_CNT_COUNT, JACK_STALL_IN_COUNT, JACK_STALL_OUT_COUNT, JACK_FLUSH_CNT_COUNT] ++
  [ JACK_RES_CNT_COUNT]

/-- The fields of block `spad`. -/
def spadFields : List Field :=
  [ SPAD_STATUS_BUSY, SPAD_STATUS_FAULT_HOLD, SPAD_STATUS_REMOTE_HELD, SPAD_STATUS_POISONED, SPAD_STATUS_LAST_FAULT, SPAD_TAG_CTRL_GO, SPAD_TAG_CTRL_VALUE, SPAD_TAG_CTRL_COUNT, SPAD_TAG_CTRL_FIRST_SLOT, SPAD_ECC_CNT_CORR, SPAD_ECC_CNT_TRANSIENT, SPAD_POISON_INFO_VALID, SPAD_POISON_INFO_COUNT, SPAD_POISON_INFO_GRANULE, SPAD_RD_CONF_COUNT, SPAD_WR_CONF_COUNT] ++
  [ SPAD_REMOTE_RD_COUNT, SPAD_REMOTE_WR_COUNT, SPAD_TAG_WAIT_RD_COUNT, SPAD_TAG_WAIT_WR_COUNT, SPAD_BANK_SEL_BANK, SPAD_BANK_CONF_RD, SPAD_BANK_CONF_WR]

/-- The fields of block `seq`. -/
def seqFields : List Field :=
  [ SEQ_STATUS_STATE, SEQ_STATUS_DRAINED, SEQ_STATUS_MULTI, SEQ_STATUS_CMD_REJECT, SEQ_STATUS_INFLIGHT, SEQ_STATUS_LAST_FAULT, SEQ_CTRL_CMD, SEQ_PC_PC, SEQ_CFG_BAR_LIMIT, SEQ_FAULT_CODE, SEQ_FAULT_PC, SEQ_FAULT_POS_UNIT, SEQ_FAULT_POS_ITER, SEQ_CYCLES_LO_CYC_LO, SEQ_CYCLES_HI_CYC_HI, SEQ_STALL_WINDOW_COUNT] ++
  [ SEQ_STALL_SCALAR_COUNT, SEQ_STALL_BARRIER_COUNT, SEQ_STALL_FAULT_COUNT, SEQ_STALL_FETCH_COUNT, SEQ_HOLD_SCORE_COUNT, SEQ_HOLD_UNIT_COUNT, SEQ_WAIT_REMOTE_COUNT, SEQ_EMPTY_CNT_COUNT, SEQ_BAR_SEL_CTX, SEQ_BAR_ARRIVE_EPOCH, SEQ_BAR_RELEASE_EPOCH, SEQ_BAR_INFO_OUTSTANDING, SEQ_BAR_INFO_WAITING, SEQ_BAR_INFO_GROUP, SEQ_BAR_INFO_STALE, SEQ_WALK_SEL_TABLE] ++
  [ SEQ_WALK_DIR_LEVEL, SEQ_WALK_DIR_BASE, SEQ_WALK_DIR_LEN, SEQ_SREG_SEL_REG, SEQ_SREG_LO_VAL_LO, SEQ_SREG_HI_VAL_HI]

/-- The fields of block `dma`. -/
def dmaFields : List Field :=
  [ DMA_STATUS_BUSY, DMA_STATUS_FAULT_HOLD, DMA_STATUS_FENCE, DMA_STATUS_INFLIGHT, DMA_STATUS_LAST_FAULT, DMA_CFG_CAP, DMA_CFG_QUOTA, DMA_CFG_TMO, DMA_FAULT_ADDR_LO_ADDR_LO, DMA_FAULT_ADDR_HI_ADDR_HI, DMA_XFER_CNT_COUNT, DMA_MERGE_CNT_COUNT, DMA_RETRY_CNT_COUNT, DMA_WAIT_TRACK_COUNT, DMA_WAIT_REG_COUNT, DMA_WAIT_SLOT_COUNT] ++
  [ DMA_KIB_RD_COUNT, DMA_KIB_WR_COUNT]

/-- The fields of block `pq`. -/
def pqFields : List Field :=
  [ PQ_STATUS_OUT_HOLD, PQ_STATUS_IN_HOLD, PQ_STATUS_OUT_Q, PQ_STATUS_IN_Q, PQ_STATUS_LAST_FAULT, PQ_OUT_ROUTE_VALID, PQ_OUT_ROUTE_DEVICE, PQ_OUT_ROUTE_BENCH, PQ_OUT_CREDIT_HSLOTS, PQ_OUT_CREDIT_ALLOT, PQ_OUT_CREDIT_CREDIT, PQ_OUT_CREDIT_SEQ, PQ_IN_RING_RING_FIRST, PQ_IN_RING_RING_COUNT, PQ_IN_RING_PRODUCERS, PQ_IN_SEL_PROD] ++
  [ PQ_IN_PROD_BASE, PQ_IN_PROD_ALLOT, PQ_IN_PROD_EXPECT, PQ_IN_PROD_OUT, PQ_IN_PROD_VALID, PQ_PUT_CNT_COUNT, PQ_GET_CNT_COUNT, PQ_CREDIT_WAIT_COUNT, PQ_GET_WAIT_COUNT, PQ_DUP_CNT_COUNT, PQ_KIB_COUNT]

end Reg

/-- Every field of a block. -/
def Blk.fields : Blk → List Field
  | .dev => Reg.devFields
  | .boot => Reg.bootFields
  | .batch => Reg.batchFields
  | .part => Reg.partFields
  | .pwr => Reg.pwrFields
  | .therm => Reg.thermFields
  | .vr => Reg.vrFields
  | .flt => Reg.fltFields
  | .host => Reg.hostFields
  | .mod => Reg.modFields
  | .cane => Reg.caneFields
  | .fab => Reg.fabFields
  | .memb => Reg.membFields
  | .noc => Reg.nocFields
  | .pkg => Reg.pkgFields
  | .dreg => Reg.dregFields
  | .mema => Reg.memaFields
  | .bench => Reg.benchFields
  | .par => Reg.parFields
  | .pot => Reg.potFields
  | .sparse => Reg.sparseFields
  | .upd => Reg.updFields
  | .jack => Reg.jackFields
  | .spad => Reg.spadFields
  | .seq => Reg.seqFields
  | .dma => Reg.dmaFields
  | .pq => Reg.pqFields

end Sys2Proof
end

