-- ==== Sys2Proof/Machine/State.lean ====
section
/-! DEFINITION. The state of the block, as plain data: every register field of the register maps in one sparse map, and
what the spec gives the block beside its registers. -/

namespace Sys2Proof.Machine

open Sys2Proof

/-- What the block sends or signals, as an observer outside sees it. -/
inductive OutMsg where
  /-- a barrier arrival towards the home of its group: bench, group, epoch (R315) -/
  | arrival (gb group epoch : Nat)
  /-- a release towards every member of a group, carrying the old E (R364) -/
  | release (group epoch : Nat)
  /-- a device arrival towards the home device of a spanning group: group, F (R454) -/
  | devArrival (group epoch : Nat)
  /-- an MSI-X message of a function (R530, R559) -/
  | msix (fn vector : Nat)
  /-- a punty handle with its payload, towards a device and bench (R338) -/
  | handle (device bench : Nat) (word : DWord) (payload : List Byte)
  /-- a delivery completion towards the out-port of a device and bench (R339) -/
  | delivered (device bench sq : Nat)
  /-- a credit towards the out-port of a device and bench (R340) -/
  | credit (device bench : Nat)
  /-- a fabric message that the transport hands to this device itself (R445) -/
  | fabHere (m : FabMsg)
  /-- a data flit on a cane (R416) -/
  | flit (cane : Nat) (f : CaneFlit)
  /-- the payload of an accepted flit of a cane, towards the switch (R422) -/
  | taken (cane ch : Nat) (payload : List Byte)
  /-- a leave flit on a cane (R431) -/
  | leave (cane : Nat)
  /-- a flit on a package link, from the end at a die's edge: sent anew (R362) -/
  | pkgFlit (die edge : Nat) (f : PkgFlit)
  /-- the pieces of an accepted flit of a package link, towards the die's crossbar (R361) -/
  | pkgTaken (die edge : Nat) (f : PkgFlit)
  /-- a flit of the replay buffer of a link that went down, its messages sent on the detour (R363) -/
  | pkgDetour (die edge : Nat) (f : PkgFlit)
  /-- a flit of such a buffer without a detour, its messages answered with error responses (R363) -/
  | pkgRefused (die edge : Nat) (f : PkgFlit)
  /-- an error response to a register access (R360) -/
  | regError (die : Nat)
  /-- a management message handed to the servitor, or its outcome: type, peer, cause or status (R450, R451) -/
  | servitor (typ peer value : Nat)
  /-- the PLDM sensors as published: sensor and value (R490, R579) -/
  | sensors (vs : List (Nat × Nat))
  /-- a PLDM completion code, or the data of a vendor-defined answer, to the rack manager (R578, R580) -/
  | pldm (code : Nat)
  | mctp (bs : List Byte)
  /-- a PLDM event collected: sensor and value (R577) -/
  | pldmEvent (sensor value : Nat)
  /-- the answer to a host access of a BAR: a value, or Completer Abort (R552) -/
  | hostRead (fn value : Nat)
  | hostAbort (fn : Nat)
  deriving DecidableEq, Repr

/-- A hardware loop register (R262). -/
structure Loop where
  active : Bool := false
  trip : Nat := 0
  idx : Nat := 0
  start : Nat := 0
  fin : Nat := 0
  wreg : Nat := 0
  table : Nat := 0
  /-- the loop walks `table` (R276) -/
  walk : Bool := false
  deriving DecidableEq, Repr

/-- The progress of a window entry: not issued, issued to its unit, stopped there on a fault, complete. -/
inductive Phase where
  | waiting | issued | faulted | done
  deriving DecidableEq, Repr

/-- One entry of the window (R262): the instruction, its scalar operands captured at dispatch (R266) and the descriptor
words read at issue (R100). -/
structure Entry where
  /-- the entry's number in program order, of the model's own making -/
  id : Nat
  pc : Nat
  word : DWord
  /-- the registers that the format names first to fourth: DREG, AREG or FREG; RREG, BREG or REG; SREG; IREG -/
  va : DWord
  vb : DWord
  vc : DWord
  vd : DWord
  /-- the registers that the selectors BK and BN name -/
  vbk : DWord
  vbn : DWord
  phase : Phase := .waiting
  /-- descriptor words 0 to 3, as read at issue -/
  desc : List DWord := []
  /-- rem of each selector as read at issue, none where the selector names none (R270) -/
  remK : Option Int := none
  remN : Option Int := none
  /-- the iteration to run next (R273) -/
  iter : Nat := 0
  /-- the code and granule of a protection fault met by the descriptor or bound-word read -/
  bad : Option (Nat × Nat) := none
  /-- the steps of the iteration that are complete -/
  stage : Nat := 0
  /-- the mask that a pass runs under: read at issue with the descriptor, or taken from the pot's mask slot (R112) -/
  live : Option (BitVec 256) := none
  /-- the code and granule of a protection fault met by that read -/
  liveBad : Option (Nat × Nat) := none
  /-- bytes that the executing unit has read and still needs -/
  kept : List Byte := []
  /-- writes that the executing unit has computed: first scratchpad byte and bytes, in order -/
  outs : List (Nat × List Byte) := []
  /-- the sweep's target was the pot's shadow at issue (R217) -/
  inPlace : Bool := false
  /-- the end of what a load has requested of its source in tier A, 0 before its first request (R321) -/
  asked : Nat := 0
  /-- the runs of that source whose transfer failed lasting: address, length, code and INFO0 (R302, R333) -/
  lost : List (Nat × Nat × Nat × Nat) := []
  deriving DecidableEq, Repr

/-- What a sequencer holds beside its registers (R262). The loop stack lists the active loop registers, innermost first. -/
structure Seq where
  loops : List Loop := List.replicate 8 {}
  stack : List Nat := []
  window : List Entry := []
  nextId : Nat := 0
  /-- dispatch has passed address 4,095 (R263) -/
  past : Bool := false
  /-- an END has been dispatched and the window is not yet empty (R314) -/
  ending : Bool := false
  /-- the fault that stands was raised at dispatch, outside the window (R291) -/
  dispFault : Bool := false
  /-- SEQ_BAR_LONG was reported for the wait that stands (R281) -/
  barLong : Bool := false
  /-- run gate closed by stagger after a release (R477) -/
  gate : Bool := false
  deriving DecidableEq, Repr

/-- The states of a sequencer (R289). -/
inductive SeqState where
  | idle | run | drain | halted | fault | ended
  deriving DecidableEq, Repr

/-- SEQ_STATUS.STATE (R289). -/
def SeqState.num : SeqState → Nat
  | .idle => 0 | .run => 1 | .drain => 2 | .halted => 3 | .fault => 4 | .ended => 5

/-- The state that SEQ_STATUS.STATE names; 6 and 7 are not used. -/
def SeqState.ofNum : Nat → SeqState
  | 1 => .run | 2 => .drain | 3 => .halted | 4 => .fault | 5 => .ended | _ => .idle

/-- A fault record as the collector holds it (R523). SEQ and OVERFLOW belong to the ring that a copy is written to. -/
structure FaultRec where
  code : Nat
  cls : Nat
  dep : Bool
  timeLocal : Bool
  held : Bool
  part : Nat
  source : Nat
  unit : Nat
  rpt : Nat
  time : Nat
  info0 : Nat
  info1 : Nat
  deriving DecidableEq, Repr

/-- The last record of a CODE and SOURCE in one ring, and the reports suppressed since (R526). -/
structure Repeat where
  ring : Nat
  code : Nat
  source : Nat
  time : Nat
  count : Nat
  deriving DecidableEq, Repr

/-- The chain that a pot's accumulators hold (R61). -/
structure Chain where
  eb : Nat
  mode : Nat
  wfmt : Nat
  deriving DecidableEq, Repr

/-- An open pooling window: the fields every member must carry, and the members held (R119). -/
structure PoolWin where
  pool : Nat
  n : Nat
  outFirst : Nat
  count : Nat
  held : Nat
  deriving DecidableEq, Repr

/-- A mask record as the parison delivers it (R162): 256 live bits and the record's marks. -/
structure MaskRec where
  live : BitVec 256
  settle : Bool := false
  suspect : Bool := false
  stale : Bool := false
  dead : Bool := false
  deriving DecidableEq, Repr

/-- Why a pot waits for or runs a slice (R139, R144, R149: ST_KIND). -/
inductive SliceKind where
  | inService | targeted | boot
  deriving DecidableEq, Repr

/-- What a pot holds beside its cells, accumulators, buffers and registers. -/
structure PotX where
  /-- the chain, none where the pot holds none (R61) -/
  chain : Option Chain := none
  /-- the accumulators, gated marks and pool buffer hold no usable value (R124) -/
  undef : Bool := false
  pool : Option PoolWin := none
  /-- a POOL_ABORT written while the pot is BUSY (R123) -/
  poolAbort : Bool := false
  /-- the one-entry mask slot (R112) -/
  mask : Option MaskRec := none
  /-- class of each row group, the tile table (R182) -/
  classes : List Nat := List.replicate 32 0
  /-- bit steps since reset, for the epochs of R137 -/
  steps : Nat := 0
  stormEpoch : Nat := 0
  stormCount : Nat := 0
  /-- the segment of the transient that made a storm (R137) -/
  stormSeg : Nat := 0
  /-- segments that a targeted slice is to test (R139) -/
  suspects : List Nat := []
  /-- a metadata slice is due (R198) -/
  metaDue : Bool := false
  /-- the slice requested or deferred (R145, R146) -/
  want : Option SliceKind := none
  /-- an instruction is held because 1 s passed without an idle cycle (R146) -/
  forced : Bool := false
  /-- the slice that is due has been deferred (R145) -/
  deferred : Bool := false
  /-- the running slice is that of the metadata RAM and tile table (R198) -/
  metaRun : Bool := false
  /-- a shadow reload is due (R142) -/
  reload : Bool := false
  /-- POT_ST_OVERDUE was reported since the last completed slice (R147) -/
  overdue : Bool := false
  /-- the time from which POT_ST_INFO.AGE goes on counting (R147) -/
  ageAt : Nat := 0
  deriving DecidableEq, Repr

/-- What a parison holds beside its sketch and registers. -/
structure ParX where
  /-- θ and row window of the preceding comparison (R157) -/
  prev : Option (Int × Nat) := none
  /-- a record computed and not yet presented, with the live bits that PAR_LIVE_CNT is to count (R162) -/
  computed : Option (MaskRec × Nat) := none
  /-- the undelivered record, with the pots that have yet to receive it (R162) -/
  record : Option (MaskRec × Nat) := none
  /-- a calibration waits for the next boundary between comparisons (R169) -/
  calDue : Bool := false
  /-- ms since the last committed or lasting-failed calibration (R169) -/
  calAge : Nat := 0
  /-- dead data pairs (R167) -/
  dead : List Nat := []
  /-- PAR_NOT_CAL was reported for the conditions that hold (R168) -/
  notCalSaid : Bool := false
  deriving DecidableEq, Repr

/-- What a jack holds beside its accumulator banks and registers. -/
structure JackX where
  /-- the bank of the previous MM (R232) -/
  bank : Nat := 0
  /-- what the previous MM left for CONT: its DTYPE, M and EB (R232) -/
  kept : Option (Nat × Nat × Nat) := none
  /-- the DTYPE, elements and column scales of the tile left in the buffer last used, where its MM had KT = 1 (R229) -/
  tile : Option (Nat × List Byte × List Byte) := none
  /-- retired by a jack slice until the next cold start (R533) -/
  retired : Bool := false
  deriving DecidableEq, Repr

/-- What a transfer of a front end moves (R321): a GET inwards, a PUT outwards, an emission of an update sweep. -/
inductive XKind where
  | get | put | emit | load
  deriving DecidableEq, Repr

/-- How far a transfer has come: its pieces still merge (R329), it waits for its slot, its fence or a tracker entry (R322,
R328, R332, R334), it holds an entry and waits for its bucket (R330), it is requested, its data is staged and checked (R333). -/
inductive XPhase where
  | merging | queued | held | requested | staged
  deriving DecidableEq, Repr

/-- What the far end has answered to a requested transfer (R331, R333): data for a GET, a write completion, an error of a tier
controller with its code, a refusal, a poisoned granule, a lasting failure of the fabric. -/
inductive XResp where
  | data (bs : List Byte)
  | ack
  | memError (code : Nat)
  | denied
  | poison
  | failed
  deriving DecidableEq, Repr

/-- One piece of a transfer: the window entry it belongs to (none for an emission), its scratchpad bytes, its place in the
transfer, its tag action, the tile of a walk it belongs to, the pot that emits it or loads it, and an emission's bytes. -/
structure Piece where
  entry : Option Nat
  spad : Nat
  off : Nat
  len : Nat
  act : Nat
  tile : Nat
  pot : Option Nat := none
  data : List Byte := []
  deriving DecidableEq, Repr

/-- One transfer (R321): its bench, kind, target as TGT names it, regulator class (R323: 0 read, 1 write, 2 remote), external
address, length, remote tag action, pieces, and the data it carries outwards or has staged inwards. -/
structure Xfer where
  id : Nat
  gb : Nat
  kind : XKind
  tgt : Nat
  cls : Nat
  ext : Nat
  len : Nat
  rtag : Nat
  pieces : List Piece
  data : List Byte
  phase : XPhase
  /-- the one further request of R333 has been made -/
  retried : Bool := false
  /-- the pot of an emission's first piece -/
  pot : Nat := 0
  /-- its place in the order in which the front end made its transfers, where another transfer was split into it (R333) -/
  after : Option Nat := none
  /-- the answer under way to the front end -/
  resp : Option XResp := none
  /-- the benches that have acknowledged a broadcast (R367) -/
  acks : List Nat := []
  deriving DecidableEq, Repr

/-- A handle in an out-port (R338): its word, the TAGI action of its slots, the address of its PQ_PUT, and how far it has come:
0 queued, 1 with a credit and a SEQ, 2 sent. -/
structure OutHandle where
  word : DWord
  act : Nat
  pc : Nat
  stage : Nat := 0
  deriving DecidableEq, Repr

/-- A handle that an in-port has accepted from producer `prod` and that waits there for its ring slots, with its payload and what a
partial write of it meets (R339, R347). -/
structure InWait where
  prod : Nat
  word : DWord
  payload : List Byte
  ecc : List (Nat × Ecc)
  deriving DecidableEq, Repr

/-- What a punty in-port holds beside its registers (R339, R340): the handles queued for PQ_GET, every handle delivered and not
yet released, the producer of a handle that came ahead of the expected SEQ (R343), and the handles accepted and not yet stored. -/
structure InPort where
  queue : List DWord := []
  owned : List DWord := []
  lack : Option Nat := none
  waiting : List InWait := []
  deriving DecidableEq, Repr

/-- A 64-bit handle's fields (R336). -/
structure Handle where
  device : Nat
  bench : Nat
  first : Nat
  count : Nat
  sq : Nat
  empty : Bool
  user : Nat
  deriving DecidableEq, Repr

/-- The requester of a fabric transaction (R438): a transfer, a piece of a handle's payload or a handle of a bench's out-port, a
collective message or the atomic of a ring, a device arrival or release of a barrier group, a management message. -/
inductive TxnOwner where
  | xfer (id : Nat)
  | hdlData (gb sq : Nat)
  | hdl (gb sq : Nat)
  | coll (ring : Nat)
  | atomic (ring : Nat)
  | barrier (group : Nat)
  | mgmt
  deriving DecidableEq, Repr

/-- A transaction that holds its TID (R438): its request, its owner, whether the retry of R441 was sent, and whether a BUSY
resend is due (R437). -/
structure Txn where
  msg : FabMsg
  owner : TxnOwner
  retried : Bool := false
  busy : Bool := false
  deriving DecidableEq, Repr

/-- An entry of a completion cache (R442): reserved while `resp` is none. -/
structure CacheEnt where
  src : Nat
  tid : Nat
  tag : Nat
  resp : Option FabMsg
  time : Nat
  deriving DecidableEq, Repr

/-- What a cane holds beside its registers (R417 to R423): the next SEQ, the last ACK received, the SEQ expected, whether NAK is
set, the replay buffer, the ACK that the replay under judgement names, the credits of channels 0 to 8 and of the pool, the last
counts received, the own running counts of freed buffers, the messages that wait for a flit, by channel, the lanes above the
threshold in the window before, and the state before a retrain episode. -/
structure CaneX where
  nextSeq : Nat := 0
  ack : Nat := 4095
  expected : Nat := 0
  nak : Bool := false
  buffer : List CaneFlit := []
  judged : Option Nat := none
  credit : List Nat := [8, 16, 16, 16, 16, 16, 16, 16, 16, 888]
  seen : List Nat := List.replicate 10 0
  freed : List Nat := List.replicate 10 0
  egress : List (Nat × List Byte) := []
  hot : List Nat := []
  former : Nat := 0
  /-- the channels in the order in which their counts were last sent (R415) -/
  turn : List Nat := [0, 1, 2, 3, 4, 5, 6, 7, 8, 9]
  /-- the VC0 tokens held, and the flit slots since the last was earned (R425) -/
  tokens : Nat := 8
  slots : Nat := 0
  /-- the retrain episode sets the credits afresh (R423) -/
  afresh : Bool := false
  /-- the retrain episode begins with full training (R433, RETRAIN_FULL) -/
  fullFirst : Bool := false
  /-- the training is an automatic one and reports no failures (R431) -/
  quiet : Bool := false
  deriving DecidableEq, Repr

/-- What one end of a package link holds beside its registers (R361, R362): the SEQ it sends next, the SEQ it expects, whether it
sends NAK, its replay buffer, and the SEQ at which its last replay began. -/
structure PkgX where
  nextSeq : Nat := 0
  expected : Nat := 0
  nak : Bool := false
  buffer : List PkgFlit := []
  judged : Option Nat := none
  deriving DecidableEq, Repr

/-- A collective command as read from its slot (R456). -/
structure CollCmd where
  op : Nat
  inF : Nat
  outF : Nat
  wire : Nat
  eb : Nat
  count : Nat
  cseq : Nat
  src : Nat
  dst : Nat
  notify : Nat
  target : Nat
  operands : List Byte
  aop : Nat
  deriving DecidableEq, Repr

/-- What the collective unit holds for a ring (R456 to R460): the command that runs, the CSEQ last started, the receive step, the
blocks received of its chunk, the messages sent and not yet answered, the status once the command has ended, its flags and the
result of an atomic. -/
structure RingX where
  cmd : Option CollCmd := none
  cur : Option Nat := none
  step : Nat := 0
  got : List Nat := []
  unacked : Nat := 0
  status : Option Nat := none
  flush : Bool := false
  loss : Bool := false
  result : Nat := 0
  deriving DecidableEq, Repr

/-- A child's time exchange (R452): the parent, the times t1, t2 and t3 known so far, whether the period's exchange is complete, the
periods without one, and the correction still to be slewed. -/
structure TimeX where
  parent : Nat := 0
  t1 : Option Nat := none
  t2 : Option Nat := none
  t3 : Option Nat := none
  complete : Bool := true
  missed : Nat := 0
  slew : Int := 0
  deriving DecidableEq, Repr

/-- A record of a batch image (R375): TYPE, PART, its offset in the image, its value's bytes and the value they spell. -/
structure ImgRec where
  typ : Nat
  part : Nat
  off : Nat
  body : List Byte
  val : ImgVal
  deriving DecidableEq, Repr

/-- A batch image that has passed its checks (R374, R377). -/
structure Image where
  kind : Nat
  part : Nat
  version : Nat
  recs : List ImgRec
  digest : Nat
  deriving DecidableEq, Repr

/-- A load under way (R382): BATCH_CTRL.OP, PART, the requesting function, whether its mailbox asked for it, the bytes copied,
whether the copy was repeated for its CRC (R383), and the image once it is checked. -/
structure LoadX where
  op : Nat
  part : Nat
  fn : Nat
  mbox : Bool
  bytes : List Byte := []
  again : Bool := false
  img : Option Image := none
  deriving DecidableEq, Repr

/-- A partition's POWER record (R377, R470). -/
structure PowerRec where
  maxPoint : Nat := 0
  p0 : Bool := true
  reheat : Bool := true
  share : Option Nat := none
  deriving DecidableEq, Repr

/-- What a die, numbered as THERM_SEL numbers it, holds beside its registers: the point that a change leads to (R466), the fastest
points that the soft throttle and the ramp after lehr allow, with the ms and ticks towards their next step (R484, R485), whether a
soft episode stands, the sensors reported (R483), whether a phase loss holds the die at P3 until the next tick (R481), the ticks of
continuous P0 and of its bar left (R488), the P0 ticks of the current minute and of the minutes before it, newest first (R489). -/
structure DieX where
  change : Option Nat := none
  soft : Bool := false
  softCap : Nat := 0
  softMs : Nat := 0
  ramp : Nat := 0
  rampTicks : Nat := 0
  said : Nat := 0
  phaseHold : Bool := false
  p0Ticks : Nat := 0
  p0Bar : Nat := 0
  minute : Nat := 0
  bins : List Nat := []
  out : Bool := false
  /-- when the die's last boot self-test ended (R147, R517) -/
  s7At : Nat := 0
  deriving DecidableEq, Repr

/-- A firmware bank (R501, R506): whether it holds an image, with its SVN, VERSION and measurement. -/
structure Bank where
  full : Bool := false
  svn : Nat := 0
  version : Nat := 0
  digest : Nat := 0
  deriving DecidableEq, Repr

/-- A ledger entry (R518); the consecutive counts are those at the entry's last update, S0 first. -/
structure LedgerEnt where
  startNo : Nat := 0
  kind : Nat := 0
  cause : Nat := 0
  safeStep : Nat := 255
  steps : List Nat := List.replicate 12 0
  life : Nat := 0
  fault : Nat := 0
  fenced : Nat := 0
  links : Nat := 0
  stackSet : Nat := 0
  pkgs : Nat := 0
  canes : Nat := 0
  retired : Nat := 0
  counts : List Nat := List.replicate 12 0
  deriving DecidableEq, Repr

/-- A command of a host queue (R557): its fields, and how far it has come: 0 fetched, 1 running, 2 ended with STATUS and INFO. -/
structure HostCmd where
  opcode : Nat
  fence : Bool
  noint : Bool
  cid : Nat
  host : Nat
  loc : Nat
  len : Nat
  pc : Nat
  sel : Nat
  phase : Nat := 0
  status : Nat := 0
  info : Nat := 0
  deriving DecidableEq, Repr

/-- What a queue pair holds beside its registers (R556, R559): the SQ tail and the CQ head as the doorbells gave them, the commands
fetched and not yet completed, in order, and PHASE. -/
structure QueueX where
  tail : Nat := 0
  head : Nat := 0
  cmds : List HostCmd := []
  pass : Bool := true
  deriving DecidableEq, Repr

/-- Why a step stops with a fault. Every fault of the spec is a record, a register and a held unit in a next state. -/
inductive Fault where
  /-- the command names a bench, die, cane, partition, function or operand value that the device does not have (R15, R16); raised by `okIf`; safe -/
  | noSuchUnit
  deriving DecidableEq, Repr

/-- Why a command has no meaning. -/
inductive Refusal where
  /-- raised by the dispatcher for a command without a meaning yet; safe -/
  | notModelled (mnemonic : String)
  deriving DecidableEq, Repr

/-- The state of the block. -/
structure State where
  /-- what each end of a package link holds beside its registers, by 4 die + edge (R362) -/
  pkgEnds : SMap PkgX
  /-- lasting errors of tier blocks that no row repair has mended: 1 since the last whole write, 2 before it, by byte address / 64 (R403) -/
  tierErr : SMap Nat
  /-- tier blocks with a corrected read not yet written back, by byte address / 64 (R399) -/
  tierWb : SMap Bool
  /-- spare rows in use, by stack and then by 8 + package, recorded by the gaffer (R403) -/
  tierSpares : SMap Nat
  /-- blocks read in the current scrub pass, by controller: stacks 0 to 7, annex dies 8 to 11 (R402) -/
  scrubPos : SMap Nat
  /-- requests that wait for a TID, with their owners and the dies they start from, oldest first (R438) -/
  fabWait : List (TxnOwner × FabMsg × Nat)
  /-- devices counted for the expected epoch F of a spanning group, by group (R454) -/
  barSrc : SMap (List Nat)
  /-- the time exchange with the parent (R452) -/
  timeX : TimeX
  /-- what the collective unit holds, by ring (R456) -/
  rings : SMap RingX
  /-- the commands that wait, first in, first out (the block's queue) -/
  pending : List Instr
  /-- the number of free values drawn so far (the model's own; DESIGN CHOICE, assumption log 5) -/
  freeCtr : Nat
  /-- nanoseconds since the beginning of the current start (R525) -/
  timeNs : Nat
  /-- the nanoseconds of the starts before this one since the last cold start, over which ages go on (R516) -/
  pastNs : Nat
  /-- every register field whose value differs from its reset value (R18 and the register maps) -/
  regs : SMap Nat
  /-- 64-bit values captured by the read of a low half, by field (R76) -/
  capt : SMap DWord
  /-- low halves held for the write of their high half, by field (R76, R289) -/
  heldLo : SMap Nat
  /-- scratchpads, instruction memories, tier A and tier B, by global byte address (R350 to R353) -/
  mem : List Host.Cell
  /-- poisoned scratchpad granules, by byte address / 32 (R258) -/
  poison : SMap Bool
  /-- slot tags, true for full, by 384 gb + slot (R248) -/
  tags : SMap Bool
  /-- scalar registers, by 32 gb + number (R262) -/
  sregs : SMap DWord
  /-- walk memories, by 1,024 gb + entry (R275) -/
  walkRam : SMap DWord
  /-- loops and windows, by bench (R262) -/
  seqs : SMap Seq
  /-- logical index plus one where a batch image gave it, by bench (R73) -/
  logical : SMap Nat
  /-- rounding substreams, by 17 gb + k (R72) -/
  prng : SMap DWord
  /-- partition of each bench plus one, 0 for none (R373) -/
  owner : SMap Nat
  /-- the device ring, oldest first (R527) -/
  devRing : List FaultRec
  /-- records written to the device ring so far (R523: SEQ) -/
  devSeq : Nat
  /-- whether step S9 has created the device ring (R527) -/
  ringReady : Bool
  /-- records held by the gaffer before step S9, oldest first (R531) -/
  heldRecs : List FaultRec
  /-- the latest record of each CODE and SOURCE in each ring (R526) -/
  repeats : List Repeat
  /-- whether records for a function ring were lost since its last record, by function (R529) -/
  ringOvf : SMap Bool
  /-- host memory as the device has written it, by host address -/
  hostMem : List Host.Cell
  /-- what the block has sent or signalled, newest first (the model's own output trace; DESIGN CHOICE, assumption log 6) -/
  outbox : List OutMsg
  /-- the value that the last read command returned (the model's own; DESIGN CHOICE, assumption log 6) -/
  readData : Nat
  /-- the wait that a unit stands in, cause and object, by 32 gb + unit (R344) -/
  waits : SMap (Option (Nat × Nat))
  /-- scratchpad granules with a corrected error not yet written back, by byte address / 32 (R258) -/
  writeback : SMap Bool
  /-- pot rows: the 1,024 data columns of a row, by 1,024 gp + row, with gp = 16 gb + pot (R51, R86) -/
  cells : SMap (BitVec 1024)
  /-- accumulators, by 1,024 gp + index (R89) -/
  accs : SMap Int
  /-- gated marks, by 1,024 gp + output (R115) -/
  gated : SMap Bool
  /-- pool buffers, by 1,024 gp + output (R116) -/
  poolBuf : SMap Int
  /-- finish input buffers, by 1,024 gp + output (R116) -/
  finBuf : SMap Int
  /-- metadata memories, by 1,024 gp + 32 row group + word (R182) -/
  metaRam : SMap DWord
  /-- what each pot holds beside these, by gp -/
  pots : SMap PotX
  /-- parison rows: bit 2m is p and bit 2m + 1 is n of pair m, pairs 256 to 263 the redundant pairs, by 512 gb + row (R151, R152) -/
  sketch : SMap (BitVec 528)
  /-- what each parison holds beside these, by bench -/
  pars : SMap ParX
  /-- accumulator banks of the jacks, by 16,384 gb + 8,192 bank + 32 row + column (R228) -/
  jackAcc : SMap (BitVec 32)
  /-- what each jack holds beside these, by bench -/
  jacks : SMap JackX
  /-- the transfers of every front end, in order of their making (R321) -/
  xfers : List Xfer
  /-- the number of the next transfer (the model's own) -/
  nextXfer : Nat
  /-- the bytes of each regulator bucket, by 4,096 die + 4 partition + class (R330) -/
  buckets : SMap Nat
  /-- the tracker's pointer, by die (R322) -/
  trackPtr : SMap Nat
  /-- the bytes counted beyond the last whole KiB of a KiB counter, by counter and instance (the model's own) -/
  kibRem : SMap Nat
  /-- remote requests held in wait entries, at the port's head and behind it, in arrival order, by bench (R257) -/
  remoteWait : SMap (List Nat)
  /-- the handles of a punty out-port, oldest first, by bench (R338) -/
  pqOut : SMap (List OutHandle)
  /-- what a punty in-port holds, by bench (R339) -/
  pqIn : SMap InPort
  /-- device and bench of each producer of an in-port plus one, 0 for none, by 16 gb + producer (R337) -/
  producers : SMap Nat
  /-- the next sub-ring position of each producer, by 16 gb + producer (R339) -/
  ringPos : SMap Nat
  /-- poisoned tier blocks, by byte address / 64 (R399) -/
  tierPoison : SMap Bool
  /-- whether a bench's clock is stopped (R32, R34) -/
  clockOff : SMap Bool
  /-- whether a bench's divider is 8, as the batch image marks idle benches (R32, R390) -/
  slowClock : SMap Bool
  /-- cycle counters of the sequencers (R262) -/
  cycleCtr : SMap DWord
  /-- whether STREAM_CLOCK_WAIT or PQ_REMOTE_LONG was reported for the wait of a unit that stands, by 32 gb + unit (R345) -/
  longSaid : SMap Bool
  /-- the benches of each broadcast group (R365) -/
  bcGroups : SMap (List Nat)
  /-- the transactions that hold a TID (R438) -/
  txns : List Txn
  /-- responses received and not yet reported to their targets, oldest first: peer and TID, by port die (R442) -/
  rtidQ : SMap (List (Nat × Nat))
  /-- the completion caches, by home port die (R442) -/
  cache : SMap (List CacheEnt)
  /-- the generation last accepted plus one, 0 for none, by 512 tag + source (R443) -/
  genSeen : SMap Nat
  /-- the expected FSEQ of each flow, by 4,096 (512 tag + source) + bench (R442) -/
  fseqIn : SMap Nat
  /-- payload pieces received ahead of their handle, keyed as fseqIn (R338) -/
  hdlData : SMap (List Byte)
  /-- the next FSEQ of each bench's flow (R442) -/
  fseqOut : SMap Nat
  /-- destinations that FAB_UNREACHABLE was reported for (R449) -/
  fabUnreach : SMap Bool
  /-- pairs of dies that PKG_UNREACHABLE was reported for, by 16 first + second (R363) -/
  pkgUnreach : SMap Bool
  /-- context generations, kept in the non-volatile store (R443) -/
  partGen : SMap Nat
  /-- what each cane holds beside its registers (R417) -/
  canes : SMap CaneX
  /-- flits in the management inbox (R425) -/
  inbox : Nat
  /-- pots that BENCH_CFG disables, by 16 gb + pot (R378) -/
  potOff : SMap Bool
  /-- package links that the batch image excludes, by 4 die + edge (R377: PKG_EXCLUDE) -/
  pkgExcl : SMap Bool
  /-- QUOTA_SUM of a partition on a die, by 16 die + partition (R377) -/
  quotaSum : SMap Nat
  /-- the seed S of each partition, of its PART_PARAMS (R73, R377) -/
  partSeed : SMap DWord
  /-- POWER records, by partition (R377, R470) -/
  power : SMap PowerRec
  /-- the load under way (R382) -/
  load : Option LoadX
  /-- measurements of the whole image and of the last image of each partition, by 16 for the whole image (R509: M4 to M20) -/
  imgDigest : SMap Nat
  /-- public keys plus one, 0 for an empty slot, by key slot (R502) -/
  keys : SMap Nat
  /-- MIN_VERSION of each key slot (R502) -/
  keyMin : SMap Nat
  /-- the key counter (R502) -/
  keyCounter : Nat
  /-- firmware banks, by 2 kind + bank, 0 gaffer and 1 servitor (R501) -/
  banks : SMap Bank
  /-- the active bank of each firmware kind (R501, R508) -/
  activeBank : SMap Nat
  /-- the firmware kinds that take their other bank at the next start (R510) -/
  altBanks : List Nat
  /-- whether step S8 waits for the location (R515) -/
  s8Wait : Bool
  /-- MIN_SVN of each firmware kind (R501) -/
  minSvn : SMap Nat
  /-- firmware image pieces received over MCTP, by byte offset (R580) -/
  fwPieces : SMap Byte
  /-- ledger entries, this start's first (R518) -/
  ledger : List LedgerEnt
  /-- a restart that is due: whether it is warm, and its cause (R516) -/
  restart : Option (Bool × Nat)
  /-- times of the servitor restarts within the last hour (R499) -/
  svRestarts : List Nat
  /-- whether the start has been ready, step S11 (R512, R541) -/
  ready : Bool
  /-- the withdraw flag of the store (R541) -/
  wdFlag : Bool
  /-- whether the start before this one had been ready (R541) -/
  wasReady : Bool
  /-- controller ticks of the current withdraw grace (R538) -/
  graceAt : Nat
  /-- PLDM events not yet collected, oldest first: sensor and value (R577, R579) -/
  pldmEvents : List (Nat × Nat)
  /-- a location that has come and is not yet written (R515) -/
  locWait : Option Nat
  /-- the rack cap in W, none while the fallback is in force, and the last fabric cap in W (R467) -/
  rackCap : Option Nat
  fabCap : Option Nat
  /-- what each die holds beside its registers, as THERM_SEL numbers it -/
  dies : SMap DieX
  /-- whether an inlet, an input and a flow episode stand (R487, R569, R575) -/
  inletHigh : Bool
  vinOut : Bool
  flowLow : Bool
  /-- whether the hot-swap switch is open (R569) -/
  swOpen : Bool
  /-- the mailbox buffers, by function (R562) -/
  mbox : SMap (List Byte)
  /-- what each queue pair holds, by 4 function + queue (R556) -/
  queues : SMap QueueX
  /-- MSI-X table words, by 256 function + word (R553) -/
  msixTab : SMap Nat
  /-- MSI-X pending bits, by 2,048 function + vector (R561) -/
  msixPend : SMap Bool
  deriving DecidableEq, Repr

/-- The state right after reset: every register field at its reset value, every memory with nothing listed, and every other
item as its line of INVENTORY.md says. -/
def State.reset : State :=
  { pkgEnds := []
    tierErr := []
    tierWb := []
    tierSpares := []
    scrubPos := []
    fabWait := []
    barSrc := []
    timeX := {}
    rings := []
    pending := []
    freeCtr := 0
    timeNs := 0
    pastNs := 0
    regs := []
    capt := []
    heldLo := []
    mem := []
    poison := []
    tags := []
    sregs := []
    walkRam := []
    seqs := []
    logical := []
    prng := []
    owner := []
    devRing := []
    devSeq := 0
    ringReady := false
    heldRecs := []
    repeats := []
    ringOvf := []
    hostMem := []
    outbox := []
    readData := 0
    waits := []
    writeback := []
    cells := []
    accs := []
    gated := []
    poolBuf := []
    finBuf := []
    metaRam := []
    pots := []
    sketch := []
    pars := []
    jackAcc := []
    jacks := []
    xfers := []
    nextXfer := 0
    buckets := []
    trackPtr := []
    kibRem := []
    remoteWait := []
    pqOut := []
    pqIn := []
    producers := []
    ringPos := []
    tierPoison := []
    clockOff := []
    slowClock := []
    cycleCtr := []
    longSaid := []
    bcGroups := []
    txns := []
    rtidQ := []
    cache := []
    genSeen := []
    fseqIn := []
    hdlData := []
    fseqOut := []
    fabUnreach := []
    pkgUnreach := []
    partGen := []
    partSeed := []
    canes := []
    inbox := 0
    potOff := []
    pkgExcl := []
    quotaSum := []
    power := []
    load := none
    imgDigest := []
    keys := []
    keyMin := []
    keyCounter := 0
    banks := [(0, { full := true }), (2, { full := true })]
    activeBank := []
    altBanks := []
    s8Wait := false
    minSvn := []
    fwPieces := []
    ledger := [{}]
    restart := none
    svRestarts := []
    ready := false
    wdFlag := false
    wasReady := false
    graceAt := 0
    pldmEvents := []
    locWait := none
    rackCap := none
    fabCap := none
    dies := []
    inletHigh := false
    vinOut := false
    flowLow := false
    swOpen := false
    mbox := []
    queues := []
    msixTab := []
    msixPend := [] }

end Sys2Proof.Machine
end

