-- ==== Sys2Proof/Machine/Ops.lean ====
section
/-! DEFINITION. The named operations over registers, memory and records that the meanings share. -/

namespace Sys2Proof.Machine

open Sys2Proof

/-- The outcome of a command whose unit exists (R16: 2,560 benches, 16 furnace dies and so on); a command for a unit that
does not exist stops. -/
def okIf (p : Bool) (s : State) : Host.Outcome State Fault Refusal :=
  if p then .next s else .fault .noSuchUnit

/-! ### Register fields -/

/-- Field `f` of instance `i`, entry `j`. -/
def State.rd (s : State) (f : Field) (i : Nat) (j : Nat := 0) : Nat := s.regs.get f.rst (f.key i j)

/-- The state with field `f` of instance `i`, entry `j` at `v`, cut to the field's width. -/
def State.wr (s : State) (f : Field) (i : Nat) (v : Nat) (j : Nat := 0) : State :=
  { s with regs := s.regs.put f.rst (f.key i j) (v % 2 ^ f.w) }

/-- The state with a counter field advanced by `n`, saturating at its largest value (R125). -/
def State.bump (s : State) (f : Field) (i : Nat) (n : Nat := 1) (j : Nat := 0) : State :=
  s.wr f i (min (s.rd f i j + n) (2 ^ f.w - 1)) j

/-- Whether a one-bit field is set. -/
def State.on (s : State) (f : Field) (i : Nat) (j : Nat := 0) : Bool := s.rd f i j ≠ 0

/-- The state with a one-bit field set to `b`. -/
def State.flag (s : State) (f : Field) (i : Nat) (b : Bool) (j : Nat := 0) : State := s.wr f i (if b then 1 else 0) j

/-- The state with every field of a block instance, all entries, at its reset value. -/
def State.resetFields (s : State) (fs : List Field) (i : Nat) : State :=
  { s with regs := s.regs.clearIf (fun k => fs.any (fun f => f.base == k / 1099511627776) &&
      k / 1048576 % 1048576 == i % 1048576) }

/-- A free value and the state that has drawn it. -/
def State.free (s : State) : DWord × State :=
  (Config.freeWord s.freeCtr, { s with freeCtr := s.freeCtr + 1 })

/-- The state with one more message sent. -/
def State.emit (s : State) (m : OutMsg) : State := { s with outbox := m :: s.outbox }

/-! ### Memory -/

/-- The byte at a global address. A byte that nothing has written reads as zero (DESIGN CHOICE, assumption log 4). -/
def State.byte (s : State) (a : Nat) : Byte := SMap.get 0#8 a s.mem

/-- The state with one byte stored. -/
def State.store (s : State) (a : Nat) (b : Byte) : State := { s with mem := SMap.put 0#8 a b s.mem }

/-- The bytes of a stretch of memory. -/
def State.bytes (s : State) (a n : Nat) : List Byte := (List.range n).map (fun i => s.byte (a + i))

/-- The state with a byte string stored from an address on. -/
def State.storeBytes (s : State) (a : Nat) : List Byte → State
  | [] => s
  | b :: r => (s.store a b).storeBytes (a + 1) r

/-- A little-endian number of n bytes. -/
def State.num (s : State) (a n : Nat) : Nat := ofBytes (s.bytes a n)

/-- The state with a little-endian number of n bytes stored. -/
def State.storeNum (s : State) (a n v : Nat) : State := s.storeBytes a (leBytes n v)

/-- The state with host memory written from an address on. -/
def State.hostStore (s : State) (a : Nat) : List Byte → State
  | [] => s
  | b :: r => ({ s with hostMem := SMap.put 0#8 a b s.hostMem } : State).hostStore (a + 1) r

/-- The global address of byte 0 of a bench's scratchpad (R352, R353). -/
def spadBase (gb : Nat) : Nat := 0x20000000000 + gb / 160 * 0x100000000 + gb % 160 * 0x400000

/-- The global address of instruction 0 of a bench (R353). -/
def imemBase (gb : Nat) : Nat := spadBase gb + 0x100000

/-- Instruction `pc` of a bench (R291). -/
def State.instr (s : State) (gb pc : Nat) : DWord := BitVec.ofNat 64 (s.num (imemBase gb + 8 * pc) 8)

/-- Scalar register r of a bench; s0 reads 0 (R262). -/
def State.sreg (s : State) (gb r : Nat) : DWord :=
  if r % 32 = 0 then 0#64 else s.sregs.get 0#64 (32 * gb + r % 32)

/-- The state with scalar register r written; writes to s0 are discarded (R262). -/
def State.setSreg (s : State) (gb r : Nat) (v : DWord) : State :=
  if r % 32 = 0 then s else { s with sregs := s.sregs.put 0#64 (32 * gb + r % 32) v }

/-- The sequencer of a bench. -/
def State.seq (s : State) (gb : Nat) : Seq := s.seqs.get {} gb

/-- The state with the sequencer of a bench replaced. -/
def State.setSeq (s : State) (gb : Nat) (q : Seq) : State := { s with seqs := s.seqs.put {} gb q }

/-- The gate stops the clock of a bench: it is held stopped with its die or by duty pulsing, or by the stagger after a barrier
release (R32, R474, R477). -/
def State.clockStopped (s : State) (gb : Nat) : Bool := s.clockOff.get false gb || (s.seq gb).gate

/-- SEQ_STATUS.STATE of a bench. -/
def State.seqState (s : State) (gb : Nat) : SeqState := SeqState.ofNum (s.rd Reg.SEQ_STATUS_STATE gb)

/-- The state with SEQ_STATUS.STATE of a bench replaced. -/
def State.setSeqState (s : State) (gb : Nat) (t : SeqState) : State := s.wr Reg.SEQ_STATUS_STATE gb t.num

/-- The logical index L of a bench (R73). -/
def State.logicalOf (s : State) (gb : Nat) : Nat := s.logical.get (gb + 1) gb - 1

/-- Substream k of a bench; before any load, seeded with a partition seed of 0 (R73, DESIGN CHOICE, assumption log 7). -/
def State.prngOf (s : State) (gb k : Nat) : DWord := s.prng.get (prngSeed 0#64 gb k) (17 * gb + k)

/-- The state with a substream replaced; zero is stored as 1 (R77). -/
def State.setPrng (s : State) (gb k : Nat) (x : DWord) : State :=
  { s with prng := s.prng.put (prngSeed 0#64 gb k) (17 * gb + k) (if x = 0#64 then 1#64 else x) }

/-- The partition of a bench, 0xFF for none. -/
def State.partOf (s : State) (gb : Nat) : Nat := (s.owner.get 0 gb + 255) % 256

/-- A partition is in APPLY (R382, R385). -/
def State.applying (s : State) (p : Nat) : Bool :=
  s.rd Reg.BATCH_STATUS_STATE 0 == 5 && s.rd Reg.PART_STATUS_STATE 0 p == 1

/-! ### Slot tags -/

/-- Whether a slot is full. -/
def State.tag (s : State) (gb slot : Nat) : Bool := s.tags.get false (384 * gb + slot)

/-- The state with a slot's tag set. -/
def State.setTag (s : State) (gb slot : Nat) (v : Bool) : State :=
  { s with tags := s.tags.put false (384 * gb + slot) v }

/-- The tags of `n` slots from `first` on set to `v`. -/
def State.fillTags (s : State) (gb first : Nat) (v : Bool) : Nat → State
  | 0 => s
  | n + 1 => ((s.fillTags gb first v n).setTag gb (first + n) v)

/-- A bench makes progress (R344): it is not stuck, and its count starts again. -/
def State.progress (s : State) (gb : Nat) : State :=
  (s.flag Reg.BENCH_WAIT_STATUS_STUCK gb false).wr Reg.BENCH_WAIT_CYC_CYCLES gb 0

/-- The state with the tags of `n` slots from `first` on set to `v`: a tag change is progress (R344). -/
def State.setTags (s : State) (gb first : Nat) (v : Bool) (n : Nat) : State :=
  if n = 0 then s else (s.fillTags gb first v n).progress gb

/-! ### Fault records -/

/-- The code of R532 that is DEP = 1 of itself (R534, left column, its first two and its last rows apart). -/
def depCodes : List Nat :=
  [0x0504, 0x0410, 0x0430, 0x0603, 0x0806, 0x0708, 0x0709, 0x1003, 0x0E06, 0x0F14]

/-- The current TIME and whether it is local (R525). -/
def State.stamp (s : State) : Nat × Bool :=
  if s.on Reg.FAB_TIME_CFG_VALID 0 then
    (s.rd Reg.FAB_TIME_HI_TIME_HI 0 * 2 ^ 32 + s.rd Reg.FAB_TIME_LO_TIME_LO 0, false)
  else (s.timeNs, true)

/-- The 32 bytes of a record in a ring, with the ring's SEQ and OVERFLOW (R523). -/
def FaultRec.bytes (r : FaultRec) (ovf : Bool) (sq : Nat) : List Byte :=
  let b2 := r.cls % 8 + (if r.dep then 8 else 0) + (if r.timeLocal then 16 else 0) + (if ovf then 32 else 0) +
    (if r.held then 64 else 0)
  let front := leBytes 2 r.code ++ leBytes 1 b2 ++ leBytes 1 r.part ++ leBytes 2 r.source ++ leBytes 1 (r.unit % 32) ++
    leBytes 1 (min r.rpt 255) ++ leBytes 8 r.time ++ leBytes 8 r.info0 ++ leBytes 4 r.info1 ++ leBytes 2 sq
  front ++ leBytes 2 (crc32c front)

/-- The function ring's own number in `repeats`; the device ring is 100. -/
def devRingNo : Nat := 100

/-- The suppressed count that a record for a ring carries, or none where R526 suppresses the record there. -/
def State.suppress (s : State) (ring : Nat) (r : FaultRec) : Option Nat :=
  match s.repeats.find? (fun e => e.ring == ring && e.code == r.code && e.source == r.source) with
  | some e => if r.cls = 0 ∧ s.timeNs < e.time + 1000000 then none else some e.count
  | none => some 0

/-- The state that remembers a record of a ring, written (its suppressed count starts again) or suppressed (R526). -/
def State.noteRepeat (s : State) (ring : Nat) (r : FaultRec) (written : Bool) : State :=
  let mine := fun e : Repeat => e.ring == ring && e.code == r.code && e.source == r.source
  if written then
    { s with repeats := { ring := ring, code := r.code, source := r.source, time := s.timeNs, count := 0 } ::
        s.repeats.filter (fun e => !mine e) }
  else
    { s with repeats := s.repeats.map (fun e => if mine e then { e with count := e.count + 1 } else e) }

/-- The record enters the device ring; when it is full the oldest record is overwritten (R527). -/
def State.toDevRing (s : State) (r : FaultRec) : State :=
  match s.suppress devRingNo r with
  | none => s.noteRepeat devRingNo r false
  | some n =>
    let s1 := s.noteRepeat devRingNo r true
    let ring := s1.devRing ++ [{ r with rpt := n }]
    let s2 := { s1 with devRing := if ring.length > 4096 then ring.drop 1 else ring, devSeq := s1.devSeq + 1 }
    s2.wr Reg.FLT_STATUS_DEV_COUNT 0 s2.devRing.length

/-- The records that a function ring holds (R529): a SIZE_LOG below 5 acts as 5 (R543). -/
def State.ringSize (s : State) (fn : Nat) : Nat := 2 ^ max 5 (s.rd Reg.FLT_RING_CFG_SIZE_LOG 0 fn)

/-- The record enters a function ring, or is lost there (R529). -/
def State.toFnRing (s : State) (r : FaultRec) (fn : Nat) : State :=
  match s.suppress fn r with
  | none => s.noteRepeat fn r false
  | some n =>
    let size := s.ringSize fn
    let head := s.rd Reg.FLT_RING_HEAD_HEAD 0 fn
    let tail := s.rd Reg.FLT_RING_TAIL_TAIL 0 fn
    if s.on Reg.FLT_RING_CFG_ENABLE 0 fn = false ∨ (head + 65536 - tail) % 65536 = size then
      { s.bump Reg.FLT_RING_LOST_COUNT 0 1 fn with ringOvf := s.ringOvf.put false fn true }
    else
      let s1 := s.noteRepeat fn r true
      let base := s.rd Reg.FLT_RING_HI_ADDR_HI 0 fn * 2 ^ 32 + s.rd Reg.FLT_RING_LO_ADDR_LO 0 fn * 4096
      let s2 := s1.hostStore (base + 32 * (head % size)) ({ r with rpt := n }.bytes (s.ringOvf.get false fn) head)
      let s3 := { s2 with ringOvf := s2.ringOvf.put false fn false }
      s3.wr Reg.FLT_RING_HEAD_HEAD 0 (head + 1) fn

/-- The record to every function ring of a list. -/
def State.toFnRings (s : State) (r : FaultRec) : List Nat → State
  | [] => s
  | fn :: rest => (s.toFnRing r fn).toFnRings r rest

/-- A record goes to its rings (R527, R528), or is held by the gaffer before step S9 (R531); FLT_DEP counts it where it
counts (R535). -/
def State.record (s : State) (r0 : FaultRec) (fns : List Nat) : State :=
  let r := { r0 with time := s.stamp.1, timeLocal := s.stamp.2 }
  let s := if r.dep then s.bump Reg.FLT_DEP_COUNT 0 else s
  if s.ringReady then (s.toDevRing r).toFnRings r fns
  else if s.heldRecs.length < 64 then { s with heldRecs := s.heldRecs ++ [{ r with held := true }] }
  else s.bump Reg.FLT_STATUS_HELD_LOST 0

/-- The function ring of a partition: its HOST_FN; the physical function's where no partition is concerned (R528). -/
def State.ringOf (s : State) (part : Nat) : List Nat :=
  if part = 255 then [0] else [s.rd Reg.PART_CFG_HOST_FN 0 part]

/-- A record with the given contents. -/
def mkRec (code cls : Nat) (part source unit info0 info1 : Nat) (dep : Bool := depCodes.contains code) : FaultRec :=
  { code := code, cls := cls, dep := dep, timeLocal := false, held := false, part := part, source := source, unit := unit,
    rpt := 0, time := 0, info0 := info0, info1 := info1 }

/-- A report raised outside the benches, for the physical function's ring (class 0). -/
def State.devReport (s : State) (source code info0 : Nat) (info1 : Nat := 0) (dep : Bool := depCodes.contains code) : State :=
  s.record (mkRec code 0 255 source 31 info0 info1 dep) [0]

/-- A partition fault's record: the ring of the partition and, where a die caused it, the physical function's (R528). -/
def State.partReport (s : State) (p source unit code info0 : Nat) (dieCause : Bool) : State :=
  s.record (mkRec code 2 p source unit info0 0)
    (if dieCause && s.ringOf p != [0] then s.ringOf p ++ [0] else s.ringOf p)

/-- A load result's record, for the requesting function's ring (class 3). -/
def State.loadReport (s : State) (fn source code info0 : Nat) : State :=
  s.record (mkRec code 3 255 source 31 info0 0) [fn]

/-- The vectors of a function's MSI-X table (R553). -/
def msixVectors (fn : Nat) : Nat := if fn = 0 then 64 else 8

/-- An interrupt source of a function signals its vector; one at or above the table's size masks the source, and its pending bit is
set (R561). -/
def State.signal (s : State) (fn vector : Nat) : State :=
  if vector < msixVectors fn then s.emit (.msix fn vector)
  else { s with msixPend := s.msixPend.put false (2048 * fn + vector) true }

/-! ### Instruction faults -/

/-- The register that holds a unit's FAULT_HOLD, with its instance (R125, R175, R243, R260, R348). -/
def holdField (gb unit : Nat) : Field × Nat :=
  if unit < 16 then (Reg.POT_STATUS_FAULT_HOLD, 16 * gb + unit)
  else match unit with
    | 16 => (Reg.PAR_STATUS_FAULT_HOLD, gb)
    | 17 => (Reg.JACK_STATUS_FAULT_HOLD, gb)
    | 18 => (Reg.SPAD_STATUS_FAULT_HOLD, gb)
    | 19 => (Reg.DMA_STATUS_FAULT_HOLD, gb)
    | 20 => (Reg.PQ_STATUS_IN_HOLD, gb)
    | _ => (Reg.PQ_STATUS_OUT_HOLD, gb)

/-- The register that holds a unit's LAST_FAULT, with its instance. -/
def lastFaultField (gb unit : Nat) : Field × Nat :=
  if unit < 16 then (Reg.POT_STATUS_LAST_FAULT, 16 * gb + unit)
  else match unit with
    | 16 => (Reg.PAR_STATUS_LAST_FAULT, gb)
    | 17 => (Reg.JACK_STATUS_LAST_FAULT, gb)
    | 18 => (Reg.SPAD_STATUS_LAST_FAULT, gb)
    | 19 => (Reg.DMA_STATUS_LAST_FAULT, gb)
    | 20 => (Reg.PQ_STATUS_LAST_FAULT, gb)
    | 21 => (Reg.PQ_STATUS_LAST_FAULT, gb)
    | _ => (Reg.SEQ_STATUS_LAST_FAULT, gb)

/-- LAST_FAULT of the raising unit, and of the scratchpad or the sequencer where the code is theirs (R260, R289). -/
def State.noteFault (s : State) (gb unit code : Nat) : State :=
  let s := if unit < 23 ∧ ¬(unit = 18 ∧ code / 256 ≠ 5) then s.wr (lastFaultField gb unit).1 (lastFaultField gb unit).2 code else s
  let s := if code / 256 = 5 then s.wr Reg.SPAD_STATUS_LAST_FAULT gb code else s
  if code / 256 = 6 then s.wr Reg.SEQ_STATUS_LAST_FAULT gb code else s

/-- A report raised by a bench unit (class 0, R522, R524). -/
def State.benchReport (s : State) (gb unit code info0 : Nat) (dep : Bool := depCodes.contains code) : State :=
  (s.noteFault gb unit code).record (mkRec code 0 (s.partOf gb) gb unit info0 0 dep) (s.ringOf (s.partOf gb))

/-- Whether a unit holds FAULT_HOLD; the sequencer itself holds none. -/
def State.held (s : State) (gb unit : Nat) : Bool :=
  unit < 22 && s.on (holdField gb unit).1 (holdField gb unit).2

/-- The state with a unit's FAULT_HOLD set or cleared. -/
def State.setHold (s : State) (gb unit : Nat) (b : Bool) : State :=
  if unit < 22 then s.flag (holdField gb unit).1 (holdField gb unit).2 b else s

/-- Taking an instruction fault (R282): the unit holds, the sequencer enters FAULT and records the first fault since the last
resume, a further one sets MULTI, and the record goes to the rings. Two faults of one cycle come as two commands, in the order of
R288 and R318 (DEDUCED, assumption log 86). -/
def State.raise (s : State) (gb unit code pc iter info0 : Nat) (dep : Bool := depCodes.contains code) : State :=
  let s := s.noteFault gb unit code
  let s := s.setHold gb unit true
  let s :=
    if s.seqState gb = .fault then s.flag Reg.SEQ_STATUS_MULTI gb true
    else
      let s := s.setSeqState gb .fault
      let s := s.wr Reg.SEQ_FAULT_CODE gb code
      let s := s.wr Reg.SEQ_FAULT_PC gb pc
      let s := s.wr Reg.SEQ_FAULT_POS_UNIT gb unit
      s.wr Reg.SEQ_FAULT_POS_ITER gb iter
  s.record (mkRec code 1 (s.partOf gb) gb unit info0 (pc % 4096 + iter % 131072 * 4096) dep) (s.ringOf (s.partOf gb))

/-- Halted in the sense of R263 and R280: IDLE, HALTED or END. -/
def State.stopped (s : State) (gb : Nat) : Bool :=
  match s.seqState gb with
  | .idle => true
  | .halted => true
  | .ended => true
  | _ => false

/-! ### Sorting -/

/-- x put into a sorted list before the first element that it may precede. -/
def insertBy {α : Type} (le : α → α → Bool) (x : α) : List α → List α
  | [] => [x]
  | y :: r => if le x y then x :: y :: r else y :: insertBy le x r

/-- A list sorted, equal elements in their own order. -/
def sortBy {α : Type} (le : α → α → Bool) : List α → List α
  | [] => []
  | x :: r => insertBy le x (sortBy le r)

/-! ### Running a unit -/

/-- Why a unit stops inside an instruction: a fault with its code and INFO0, or a wait with its cause and object (R344). -/
inductive Stop where
  | fault (code info0 : Nat)
  | wait (cause obj : Nat)
  deriving DecidableEq, Repr

/-- A unit's actions: they change the state and may stop. What was done before a stop stands (R252). -/
abbrev Act (α : Type) := ExceptT Stop (StateM State) α

/-- Raises a fault. -/
def Act.fault {α : Type} (code : Nat) (info0 : Nat := 0) : Act α := throw (.fault code info0)

/-- Waits. -/
def Act.wait {α : Type} (cause obj : Nat) : Act α := throw (.wait cause obj)

/-- Raises a fault where `p` holds. -/
def Act.check (p : Bool) (code : Nat) (info0 : Nat := 0) : Act Unit := if p then throw (.fault code info0) else pure ()

/-- Changes the state. -/
def Act.upd (f : State → State) : Act Unit := modify f

end Sys2Proof.Machine
end

