-- ==== Sys2Proof/Machine/Address.lean ====
section
/-! DEFINITION. The device-local address map (R350 to R355, R365). -/

namespace Sys2Proof.Machine

open Sys2Proof

/-- What a device-local address names: tier A or B; a byte of a bench's scratchpad, instruction memory or register block; a byte of
a die's register block; an offset of a bench window under a broadcast selection; a byte of the control die's blocks, of a port
die's CANE (0) or FAB (1) block, of an annex die's block; nothing. -/
inductive Place where
  | tierA
  | tierB
  | spad (gb off : Nat)
  | imem (gb off : Nat)
  | benchReg (gb off : Nat)
  | dieReg (die off : Nat)
  | bcast (sel off : Nat)
  | control (off : Nat)
  | port (k blk off : Nat)
  | annex (k off : Nat)
  | unmapped
  deriving DecidableEq, Repr

/-- What an offset of a bench window names (R353). -/
def benchPlace (gb o : Nat) : Place :=
  if o < 0x60000 then .spad gb o
  else if 0x100000 ≤ o ∧ o < 0x108000 then .imem gb (o - 0x100000)
  else if 0x200000 ≤ o ∧ o < 0x201000 then .benchReg gb (o - 0x200000)
  else .unmapped

/-- What a device-local address names (R350, R352, R355, R365). -/
def placeOf (a : Nat) : Place :=
  if a < 0x8000000000 then .tierA
  else if a < 0x20000000000 then .tierB
  else if a < 0x21000000000 then
    let d := (a - 0x20000000000) / 0x100000000
    let o := a % 0x100000000
    if o < 0x28000000 then benchPlace (160 * d + o / 0x400000) (o % 0x400000)
    else if 0xF0000000 ≤ o ∧ o < 0xF0010000 then .dieReg d (o - 0xF0000000)
    else .unmapped
  else if a < 0x30000000000 then .unmapped
  else if a < 0x34000000000 then
    let sel := (a - 0x30000000000) / 0x100000000
    let o := a % 0x100000000
    if 0x400000 ≤ o ∨ (0x10 < sel ∧ sel < 0x20) then .unmapped else .bcast sel o
  else if a < 0x7F000000000 then .unmapped
  else if a < 0x7F00000A000 then .control (a - 0x7F000000000)
  else if a < 0x7F100000000 then .unmapped
  else if a < 0x7F200000000 then
    let k := (a - 0x7F100000000) / 0x1000000
    let o := a % 0x1000000
    if 4 ≤ k then .unmapped
    else if o < 0x1000 then .port k 0 o
    else if 0x100000 ≤ o ∧ o < 0x101000 then .port k 1 (o - 0x100000)
    else .unmapped
  else if a < 0x7F204000000 then
    if a % 0x1000000 < 0x1000 then .annex ((a - 0x7F200000000) / 0x1000000) (a % 0x1000000) else .unmapped
  else .unmapped

/-- The benches that a broadcast selection names (R365); a group's benches are those the batch image gave it. -/
def State.selected (s : State) (sel : Nat) : List Nat :=
  if sel < 0x10 then upFrom (160 * sel) 160
  else if sel = 0x10 then List.range 2560
  else s.bcGroups.get [] (sel - 0x20)

/-- A byte of a tier lies in a memory window of partition p, one with WRITE for a write, and outside the staging area
(R325, R383, R389). -/
def State.inWindow (s : State) (p a : Nat) (write : Bool) : Bool :=
  !(decide (0x1FFF0000000 ≤ a) && decide (a < 0x20000000000)) && decide (p < 16) &&
  (List.range 8).any (fun w => s.on Reg.PART_WIN_VALID 0 (8 * p + w) &&
    decide (s.rd Reg.PART_WIN_BASE 0 (8 * p + w) * 2 ^ 30 ≤ a) &&
    decide (a < (s.rd Reg.PART_WIN_BASE 0 (8 * p + w) + s.rd Reg.PART_WIN_SIZE 0 (8 * p + w) + 1) * 2 ^ 30) &&
    (!write || s.on Reg.PART_WIN_WRITE 0 (8 * p + w)))

/-- The first and the last byte of a stretch of a tier, of less than 1 GiB, lie in windows of a bench's partition (R389). -/
def State.tierOk (s : State) (gb a n : Nat) (write : Bool) : Bool :=
  s.inWindow (s.partOf gb) a write && s.inWindow (s.partOf gb) (a + n - 1) write

/-- KiB counted from bytes: the remainder below 1 KiB is kept for the next count. -/
def State.bumpKib (s : State) (f : Field) (i n : Nat) (j : Nat := 0) : State :=
  let k := f.key i j
  let t := s.kibRem.get 0 k + n
  ({ s with kibRem := s.kibRem.put 0 k (t % 1024) } : State).bump f i (t / 1024) j

end Sys2Proof.Machine
end

