-- ==== Sys2Proof/Machine/Paths.lean ====
section
/-! DEFINITION. Paths: the package network between dies (R23, R363), where the tiers' addresses lie (R396, R397), the routes of
the fabric (R444 to R449), what a cane sends (R415 to R422), and the start of a fabric transaction (R438). -/

namespace Sys2Proof.Machine

open Sys2Proof

/-! ### The package network -/

/-- The corner furnace die beside a port or annex die (R24). -/
def cornerDie (k : Nat) : Nat := [0, 3, 12, 15].getD k 0

/-- The furnace die that owns a stack (R24). -/
def stackDie (t : Nat) : Nat := [1, 2, 4, 7, 8, 11, 13, 14].getD t 0

/-- The die beside die d over an edge, 0 north, 1 east, 2 south, 3 west (R23, R371). -/
def beside (d edge : Nat) : Nat :=
  match edge with
  | 0 => d - 4
  | 1 => d + 1
  | 2 => d + 4
  | _ => d - 1

/-- The links of a route that goes along grid x and then along grid y, or along y first, as dies and edges left (R363). -/
def dieRoute (xFirst : Bool) (a b : Nat) : Nat → List (Nat × Nat)
  | 0 => []
  | fuel + 1 =>
    if a = b then []
    else
      let xEdge := if a % 4 < b % 4 then 1 else 3
      let yEdge := if a / 4 < b / 4 then 2 else 0
      let e := if a % 4 = b % 4 then yEdge else if a / 4 = b / 4 then xEdge else if xFirst then xEdge else yEdge
      (a, e) :: dieRoute xFirst (beside a e) b fuel

/-- A furnace die is fenced or tripped. -/
def State.dieFenced (s : State) (d : Nat) : Bool := s.on Reg.PWR_DIE_STATUS_FENCED 0 d

/-- A package link is down as either of its ends shows it (R362), or excluded by the batch image (R377). -/
def State.linkDown (s : State) (d edge : Nat) : Bool :=
  s.pkgExcl.get false (4 * d + edge) || s.pkgExcl.get false (4 * beside d edge + (edge + 2) % 4) ||
  s.rd Reg.PKG_LINK_STATUS_STATE d edge == 3 || s.rd Reg.PKG_LINK_STATUS_STATE (beside d edge) ((edge + 2) % 4) == 3

/-- A route between two dies is clear of down links: the x-first one or the y-first one (R363). -/
def State.reachable (s : State) (a b : Nat) : Bool :=
  (dieRoute true a b 8).all (fun l => !s.linkDown l.1 l.2) || (dieRoute false a b 8).all (fun l => !s.linkDown l.1 l.2)

/-- The path between a die and the control die, which the host's DMA path takes too, is cut: it enters the package network through
furnace die 0 (R25, R482). -/
def State.hostPathCut (s : State) (d : Nat) : Bool := s.dieFenced 0 || !s.reachable d 0

/-- The staging area (R383). -/
def stagingBase : Nat := 0x1FFF0000000

/-- PKG_UNREACHABLE, once for each pair (R363). -/
def State.reportUnreachable (s : State) (a b : Nat) : State :=
  if s.pkgUnreach.get false (16 * a + b) then s
  else ({ s with pkgUnreach := s.pkgUnreach.put false (16 * a + b) true } : State).devReport (0x1000 + a) 0x0912 b

/-! ### Tier addresses -/

/-- The stack of a tier-A address, its offset in its half of the stack, and its pseudo-channel (R396). -/
def stackOf (a : Nat) : Nat := if a < 0x4000000000 then bits a 12 10 else (a - 0x4000000000) / 2 ^ 35
def stackOffset (a : Nat) : Nat :=
  if a < 0x4000000000 then a / 8192 * 1024 + a % 1024 else (a - 0x4000000000) % 2 ^ 35
def pseudoChannel (a : Nat) : Nat := stackOffset a / 1024 % 64

/-- The package of a tier-B address, its offset there and its channel (R397). -/
def pkgOf (a : Nat) : Nat := (a - 0x8000000000) / 4096 % 24
def pkgOffset (a : Nat) : Nat := (a - 0x8000000000) / 4096 / 24 * 4096 + a % 4096
def pkgChannel (a : Nat) : Nat := (a - 0x8000000000) / 4096 / 24 % 4

/-- The furnace die at which a device-local address is reached over the package network. -/
def dieAt (a : Nat) : Nat :=
  match placeOf a with
  | .tierA => stackDie (stackOf a)
  | .tierB => cornerDie (pkgOf a / 6)
  | .spad gb _ => gb / 160
  | .imem gb _ => gb / 160
  | _ => 0

/-- The local end of a copy between the host and a device-local address is out of reach: the copy engine enters through furnace die 0
(R25, R482). -/
def State.copyCut (s : State) (a : Nat) : Bool := s.dieFenced 0 || !s.reachable 0 (dieAt a)

/-- The same for the first `n` bytes of the staging area, spread over the packages page by page (R383, R397). -/
def State.stageCut (s : State) (n : Nat) : Bool :=
  (List.range (min 24 ((n + 4095) / 4096))).any (fun k => s.copyCut (stagingBase + 4096 * k))

/-! ### Routes of the fabric -/

/-- The device's identity (R47). -/
def State.devId (s : State) : Nat :=
  s.rd Reg.DEV_LOCATION_X 0 * 64 + s.rd Reg.DEV_LOCATION_Y 0 * 8 + s.rd Reg.DEV_LOCATION_Z 0

/-- Coordinate `dim` of an identity: 0 x, 1 y, 2 z (R444). -/
def coord (n dim : Nat) : Nat := n / 8 ^ (2 - dim) % 8

/-- The first direction towards `dst`, in dimension order (R411, R444); none at `dst` itself. -/
def dirTo (own dst : Nat) : Option Nat :=
  ([0, 1, 2].find? (fun k => coord own k != coord dst k)).map
    (fun k => if (coord dst k + 8 - coord own k) % 8 ≤ 4 then 2 * k else 2 * k + 1)

/-- The virtual channel of a message type (R436). -/
def vcOf (typ : Nat) : Nat :=
  match typ with
  | 0x01 => 1
  | 0x02 => 1
  | 0x03 => 1
  | 0x04 => 3
  | 0x05 => 3
  | 0x06 => 4
  | 0x18 => 2
  | 0x19 => 2
  | _ => 0

/-- The first cane in state UP of a direction's bundle, for a message from `src` to `dst` (R447). A VC0 message for which the bundle
has none takes the first cane in UP_MGMT, which carries VC0 (R426; R447 names no cane then: DESIGN CHOICE, assumption log 80). -/
def State.caneFor (s : State) (dir vc src dst : Nat) : Option Nat :=
  let bundle := (List.range 6).map (fun t => 6 * dir + ((src + dst) % 6 + t) % 6)
  let inState := fun (n c : Nat) => s.rd Reg.CANE_STATUS_STATE (c / 9) (c % 9) == n
  (bundle.find? (inState 3)).or (if vc = 0 then bundle.find? (inState 2) else none)

/-- The cane a message takes in a direction, none where the direction has failed for it: no cane carries its channel, or the crossing
from the die `die` to the cane's port die is unreachable (R447, R448). -/
def State.wayOut (s : State) (die dir : Nat) (m : FabMsg) : Option Nat :=
  match s.caneFor dir (vcOf m.typ) m.src m.dst with
  | some c => if s.reachable die (cornerDie (c / 9)) then some c else none
  | none => none

/-- The side-step direction of the first FAB_DETOUR entry for a failed direction (R449, R461). -/
def State.sideStep (s : State) (dir : Nat) : Option Nat :=
  let ent := fun (v f t : Field) =>
    if s.on v 0 ∧ s.rd f 0 = dir ∧ s.rd t 0 / 2 ≠ s.rd f 0 / 2 ∧ s.rd t 0 ≤ 5 then some (s.rd t 0) else none
  (ent Reg.FAB_DETOUR_VALID0 Reg.FAB_DETOUR_FAILED0 Reg.FAB_DETOUR_STEP0).or
    (ent Reg.FAB_DETOUR_VALID1 Reg.FAB_DETOUR_FAILED1 Reg.FAB_DETOUR_STEP1)

/-- Where a message goes next. -/
inductive Hop where
  /-- this device -/
  | here
  /-- a cane, with the DLC and DTRS that the message leaves with -/
  | out (cane dlc dtrs : Nat)
  | unreach
  deriving DecidableEq, Repr

/-- The hop crosses the dateline of its dimension: the wrap link between coordinates 7 and 0 (R446). -/
def dateline (own dir : Nat) : Bool := coord own (dir / 2) == (if dir % 2 = 0 then 7 else 0)

/-- The next hop of a message that stands at die `die`, having come in direction `inDir` if from a cane (R444 to R449). -/
def State.hop (s : State) (m : FabMsg) (die : Nat) (inDir : Option Nat) : Hop :=
  match dirTo s.devId m.dst with
  | none => .here
  | some dir =>
    match s.wayOut die dir m with
    | some c =>
      let kept := if inDir.map (· / 2) = some (dir / 2) then m.dlc else 0
      .out c (if dateline s.devId dir then 1 else kept) m.dtrs
    | none =>
      match s.sideStep dir with
      | none => .unreach
      | some st =>
        if 2 ≤ m.dtrs then .unreach
        else match s.wayOut die st m with
          | some c => .out c 1 (m.dtrs + 1)
          | none => .unreach

/-- The cane channel of a virtual channel and a dateline class (R421). -/
def chOf (vc dlc : Nat) : Nat := if vc = 0 then 0 else 2 * vc - 1 + dlc

/-- The bytes of a message (R435). -/
def fabBytes (m : FabMsg) : List Byte :=
  let head := leBytes 1 m.typ ++ leBytes 1 ((if m.retx then 1 else 0) + m.dlc % 2 * 2 + m.dtrs % 4 * 4) ++ leBytes 2 (m.dst % 512) ++
    leBytes 2 (m.src % 512) ++ leBytes 2 (m.tid % 8192) ++ leBytes 2 (m.ftag % 4096 + m.status % 16 * 4096) ++ leBytes 2 (m.len % 2048) ++
    leBytes 4 m.gen ++ leBytes 6 (m.addr % 2 ^ 43) ++ leBytes 1 (m.rtag % 4 + m.aop % 16 * 4) ++ leBytes 1 0 ++ leBytes 4 m.aux ++
    leBytes 4 m.stamp ++ leBytes 2 (match m.rtid with | some t => t % 8192 + 32768 | none => 0) ++ leBytes 2 0
  head ++ leBytes 4 (crc32c (head ++ m.payload)) ++ m.payload

/-! ### Canes -/

/-- What cane c holds beside its registers. -/
def State.cane (s : State) (c : Nat) : CaneX := s.canes.get {} c

/-- The state with a cane's own part replaced. -/
def State.setCane (s : State) (c : Nat) (x : CaneX) : State := { s with canes := s.canes.put {} c x }

/-- CANE_STATUS.STATE of a cane. -/
def State.caneState (s : State) (c : Nat) : Nat := s.rd Reg.CANE_STATUS_STATE (c / 9) (c % 9)

/-- The credit that a channel has: none, its own, or one of the pool (R422). -/
def CaneX.can (x : CaneX) (ch : Nat) : Option Bool :=
  if 1 ≤ x.credit.getD ch 0 then some false
  else if ch ≠ 0 ∧ 1 ≤ x.credit.getD 9 0 then some true else none

/-- A channel other than VC0 has a piece and a credit waiting (R425). -/
def CaneX.dataWaits (x : CaneX) (mgmtOnly : Bool) : Bool :=
  !mgmtOnly && x.egress.any (fun p => p.1 != 0 && (x.can p.1).isSome)

/-- The flit slot of a flit on channel `ch`: one sent on VC0 while data waits spends a token, and every eighth slot earns one
(R425). -/
def CaneX.slot (x : CaneX) (ch : Nat) (contended : Bool) : CaneX :=
  let n := if ch = 0 ∧ contended = true then x.tokens - 1 else x.tokens
  if x.slots + 1 < 8 then { x with tokens := n, slots := x.slots + 1 } else { x with tokens := min 8 (n + 1), slots := 0 }

/-- The waiting piece that a cane sends next: VC0 first within its budget (R424, R425), and otherwise the oldest piece that is the
first of its channel and has a credit; with whether it takes a pool buffer (R422). -/
def CaneX.pick (x : CaneX) (mgmtOnly : Bool) : Option (Nat × Bool) :=
  let firstOf := fun (i : Nat) => match x.egress[i]? with
    | some p => (x.egress.take i).all (fun q => q.1 != p.1)
    | none => false
  let idx := List.range x.egress.length
  let ok := fun (i : Nat) => match x.egress[i]? with
    | some p => firstOf i && (x.can p.1).isSome && (if p.1 = 0 then decide (1 ≤ x.tokens) || !x.dataWaits mgmtOnly else !mgmtOnly)
    | none => false
  let zero := idx.find? (fun i => ok i && (x.egress[i]?.map Prod.fst == some 0))
  (zero.or (idx.find? ok)).map (fun i => (i, match x.egress[i]? with
    | some p => (x.can p.1).getD false
    | none => false))

/-- A flit as it leaves: the current ACK, NAK and the counts of the two channels whose turn it is (R415). -/
def State.caneEmit (s : State) (c : Nat) (f : CaneFlit) : State :=
  let x := s.cane c
  let a := x.turn.getD 0 0
  let b := x.turn.getD 1 0
  let g := { f with ack := (x.expected + 4095) % 4096, nak := x.nak, cntA := x.freed.getD a 0, chA := a, cntB := x.freed.getD b 0, chB := b }
  (s.setCane c { x with turn := x.turn.drop 2 ++ x.turn.take 2 }).emit (.flit c g)

/-- Sends waiting pieces while a credit and a place in the replay buffer allow (R417, R422). -/
def State.caneDrain (s : State) (c : Nat) : Nat → State
  | 0 => s
  | fuel + 1 =>
    let x := s.cane c
    if (s.caneState c ≠ 3 ∧ s.caneState c ≠ 2) ∨ 512 ≤ x.buffer.length then s
    else match x.pick (s.caneState c == 2) with
      | none => s
      | some (i, pool) =>
        match x.egress[i]? with
        | none => s
        | some (ch, bs) =>
          let f : CaneFlit := { sq := x.nextSeq, ch := ch, pool := pool, used := bs.length, payload := bs }
          let cr := if pool then 9 else ch
          let y := { x with nextSeq := (x.nextSeq + 1) % 4096, buffer := x.buffer ++ [f],
                            credit := x.credit.set cr (x.credit.getD cr 0 - 1), egress := x.egress.eraseIdx i }
          let s := (s.setCane c (y.slot ch (x.dataWaits (s.caneState c == 2)))).caneEmit c f
          let s := if ch = 0 then s.bump Reg.CANE_VC0_CNT_SENT (c / 9) 1 (c % 9) else s
          (s.bumpKib Reg.CANE_TX_KIB_COUNT (c / 9) bs.length (c % 9)).caneDrain c fuel

/-- A byte string cut into pieces of at most n bytes. -/
def chunks (n : Nat) (bs : List Byte) : Nat → List (List Byte)
  | 0 => []
  | fuel + 1 => if bs.isEmpty then [] else bs.take n :: chunks n (bs.drop n) fuel

/-- A message handed to a cane: its bytes in flits of its own (DESIGN CHOICE, assumption log 40), queued behind those of its channel. -/
def State.caneSend (s : State) (c ch : Nat) (m : FabMsg) : State :=
  let x := s.cane c
  (s.setCane c { x with egress := x.egress ++ (chunks 242 (fabBytes m) 8).map (fun p => (ch, p)) }).caneDrain c 1024

/-! ### Transactions -/

/-- The current value of FAB_TIME (R452). -/
def State.fabTime (s : State) : Nat := s.rd Reg.FAB_TIME_HI_TIME_HI 0 * 2 ^ 32 + s.rd Reg.FAB_TIME_LO_TIME_LO 0

/-- A transport report (R463); `k` is the port die whose FAB_STATUS notes it. -/
def State.fabReport (s : State) (k code peer tid : Nat) : State :=
  let s := s.wr Reg.FAB_STATUS_LAST_FAULT k code
  s.devReport 0x10FF code (peer % 512 + tid * 65536)

/-- FAB_UNREACHABLE, once per destination (R449). -/
def State.fabUnreachable (s : State) (k dst : Nat) : State :=
  if s.fabUnreach.get false dst then s
  else ({ s with fabUnreach := s.fabUnreach.put false dst true } : State).fabReport k 0x0C02 dst 0

/-- A message leaves from die `die`; the second component is false where it has no route. -/
def State.sendMsg (s : State) (m : FabMsg) (die : Nat) (inDir : Option Nat := none) : State × Bool :=
  match s.hop m die inDir with
  | .here => (s.emit (.fabHere m), true)
  | .out c dlc dtrs => (s.caneSend c (chOf (vcOf m.typ) dlc) { m with dlc := dlc, dtrs := dtrs }, true)
  | .unreach => (s.fabUnreachable 0 m.dst, false)

/-- The port die that sends a request's first hop; 0 where the device itself is the destination (DESIGN CHOICE, assumption log 41). -/
def State.firstPort (s : State) (m : FabMsg) (die : Nat) : Option Nat :=
  match s.hop m die none with
  | .here => some 0
  | .out c _ _ => some (c / 9)
  | .unreach => none

/-- What became of a request. -/
inductive Sent where
  | sent (tid : Nat)
  | noTid
  | unreach
  deriving DecidableEq, Repr

/-- The lowest free TID of a port die (R438). -/
def State.freeTid (s : State) (k : Nat) : Option Nat :=
  (upFrom (2048 * k) 2048).find? (fun t => s.txns.all (fun x => x.msg.tid != t))

/-- FAB_TID_INUSE.NOW of a port die, and PEAK with it (R462). -/
def State.countTids (s : State) (k : Nat) : State :=
  let n := (s.txns.filter (fun x => x.msg.tid / 2048 == k)).length
  (s.wr Reg.FAB_TID_INUSE_NOW k n).wr Reg.FAB_TID_INUSE_PEAK k (max (s.rd Reg.FAB_TID_INUSE_PEAK k) n)

/-- A request starts its transaction: the first hop's port die gives it a free TID and the oldest response to report, and it
leaves (R438, R442). Before the location is valid a device starts no transaction but those of VC0 (R47); others wait as for a TID
(DESIGN CHOICE, assumption log 81). -/
def State.request (s : State) (owner : TxnOwner) (m0 : FabMsg) (die : Nat) : State × Sent :=
  let m1 := { m0 with src := s.devId, stamp := s.fabTime / 1024 % 2 ^ 32 }
  if vcOf m0.typ ≠ 0 ∧ s.on Reg.DEV_LOCATION_VALID 0 = false then (s, .noTid)
  else match s.firstPort m1 die with
  | none => (s.fabUnreachable 0 m1.dst, .unreach)
  | some k =>
    match s.freeTid k with
    | none => (s.bump Reg.FAB_TID_INUSE_WAIT k, .noTid)
    | some t =>
      let q := s.rtidQ.get [] k
      let told := q.find? (fun e => e.1 == m1.dst)
      let m := { m1 with tid := t, rtid := told.map Prod.snd }
      let left := match told with
        | some e => q.erase e
        | none => q
      let s : State := { s with txns := s.txns ++ [{ msg := m, owner := owner }], rtidQ := s.rtidQ.put [] k left }
      (((s.countTids k).sendMsg m die).1, .sent t)

end Sys2Proof.Machine
end

