-- ==== Sys2Proof/Machine/Operands.lean ====
section
/-! DEFINITION. The operand forms: the fields of an instruction word (R291 to R316), the registers that a format names, and
the decode checks made at dispatch. -/

namespace Sys2Proof.Machine

open Sys2Proof

/-- Bits hi to lo of an instruction word or a descriptor word. -/
def fld (w : DWord) (hi lo : Nat) : Nat := bits w.toNat hi lo

/-- The opcode (R291). -/
def opc (w : DWord) : Nat := fld w 63 56

/-- The opcodes of the E format (R293). -/
def isE (w : DWord) : Bool := [0x10, 0x11, 0x18, 0x1C, 0x28].contains (opc w)

/-- The opcodes that enter the window, ARRIVE and WAIT among them (R292). -/
def isWindowed (w : DWord) : Bool :=
  [0x0C, 0x0D, 0x10, 0x11, 0x12, 0x18, 0x1C, 0x20, 0x21, 0x22, 0x28, 0x30, 0x31, 0x32, 0x38, 0x39].contains (opc w)

/-- The unit that executes a windowed instruction, numbered as SEQ_FAULT_POS.UNIT (R265, R289, R292). -/
def unitOf (w : DWord) : Nat :=
  match opc w with
  | 0x10 => fld w 55 52
  | 0x11 => fld w 55 52
  | 0x12 => fld w 55 52
  | 0x18 => 16
  | 0x1C => 17
  | 0x28 => 19
  | 0x30 => 21
  | 0x31 => 20
  | 0x32 => 20
  | 0x38 => 22
  | 0x39 => 22
  | _ => 18

/-- The BK selector of an instruction, 0 where its format has none (R293, R306, R316). -/
def bkSel (w : DWord) : Nat :=
  if isE w then fld w 32 27
  else match opc w with
    | 0x20 => fld w 31 26
    | 0x21 => fld w 31 26
    | 0x30 => fld w 32 27
    | 0x31 => fld w 32 27
    | 0x32 => fld w 32 27
    | _ => 0

/-- The BN selector of an instruction, 0 where its format has none. -/
def bnSel (w : DWord) : Nat :=
  if isE w then fld w 26 21
  else match opc w with
    | 0x30 => fld w 26 21
    | 0x31 => fld w 26 21
    | 0x32 => fld w 26 21
    | _ => 0

/-- The input and the output tag action of an instruction (R293, R302, R306, R308, R316). -/
def tagIn (w : DWord) : Nat :=
  if isE w then fld w 20 19
  else match opc w with
    | 0x12 => fld w 21 20
    | 0x20 => fld w 25 24
    | 0x21 => fld w 25 24
    | 0x0C => fld w 45 44
    | 0x30 => fld w 20 19
    | 0x31 => fld w 20 19
    | 0x32 => fld w 20 19
    | _ => 0

def tagOut (w : DWord) : Nat :=
  if isE w then fld w 18 17
  else match opc w with
    | 0x20 => fld w 23 22
    | 0x21 => fld w 23 22
    | 0x0D => fld w 45 44
    | 0x30 => fld w 18 17
    | 0x31 => fld w 18 17
    | 0x32 => fld w 18 17
    | _ => 0

/-- The first register field of a windowed format: DREG, AREG or FREG. -/
def regA (w : DWord) : Nat :=
  if isE w then fld w 51 47
  else match opc w with
    | 0x12 => fld w 26 22
    | 0x20 => fld w 55 51
    | 0x21 => fld w 55 51
    | 0x22 => fld w 55 51
    | 0x0C => fld w 50 46
    | 0x0D => fld w 50 46
    | _ => 0

/-- The second: RREG, BREG, or the register that ST, PQ_PUT and PQ_REL send. -/
def regB (w : DWord) : Nat :=
  if isE w then fld w 15 11
  else match opc w with
    | 0x20 => fld w 50 46
    | 0x21 => fld w 50 46
    | 0x0D => fld w 55 51
    | 0x30 => fld w 51 47
    | 0x32 => fld w 51 47
    | _ => 0

/-- SREG and IREG of the E format. -/
def regC (w : DWord) : Nat := if isE w then fld w 10 6 else 0
def regD (w : DWord) : Nat := if isE w then fld w 5 1 else 0

/-- The scalar register that a windowed instruction writes when it completes: LD and PQ_GET (R308, R316). -/
def loadTarget (w : DWord) : Nat :=
  match opc w with
  | 0x0C => fld w 55 51
  | 0x31 => fld w 51 47
  | _ => 0

/-- The registers that an instruction reads at dispatch (R266, R318). -/
def regsRead (w : DWord) : List Nat :=
  let sel := fun n : Nat => if n = 0 then [] else [n % 32]
  match opc w with
  | 0x03 => [fld w 51 47, fld w 46 42]
  | 0x04 => if fld w 52 52 = 1 then [fld w 51 47] else []
  | 0x08 => [fld w 46 42, fld w 41 37]
  | 0x09 => [fld w 46 42]
  | 0x0A => if fld w 55 52 = 1 then [fld w 51 47] else []
  | _ => [regA w, regB w, regC w, regD w] ++ sel (bkSel w) ++ sel (bnSel w)

/-- The opcode is defined, and the sub-code within it (R291, R292, R309 to R312). -/
def opcodeOk (w : DWord) : Bool :=
  match opc w with
  | 0x08 => fld w 55 52 ≠ 15
  | 0x09 => fld w 55 52 ≠ 15
  | 0x0A => fld w 55 52 ≤ 1
  | 0x0B => fld w 43 42 ≤ 1
  | 0x03 => fld w 55 52 ≤ 5
  | n => [0x00, 0x01, 0x02, 0x04, 0x05].contains n || isWindowed w

/-- Every reserved field is zero and no field has a forbidden value (R291, R293, R302, R306 to R316). -/
def reservedOk (w : DWord) : Bool :=
  if isE w then
    fld w 0 0 == 0 && ([0x10, 0x11].contains (opc w) || fld w 55 52 == 0) &&
      (fld w 16 16 == 1 || (fld w 15 11 == 0 && fld w 10 6 == 0))
  else match opc w with
    | 0x00 => fld w 55 0 = 0
    | 0x01 => fld w 55 0 = 0
    | 0x02 => fld w 55 12 = 0
    | 0x03 => fld w 41 12 = 0
    | 0x04 => fld w 46 38 = 0
    | 0x05 => fld w 52 47 = 0 ∧ fld w 25 0 = 0
    | 0x08 => fld w 36 0 = 0
    | 0x09 => fld w 41 32 = 0
    | 0x0A => fld w 46 32 = 0
    | 0x0B => fld w 55 52 = 0 ∧ fld w 41 0 = 0
    | 0x0C => fld w 43 16 = 0
    | 0x0D => fld w 43 16 = 0
    | 0x12 => fld w 19 0 = 0
    | 0x20 => fld w 21 0 = 0 ∧ fld w 25 24 = 0
    | 0x21 => fld w 21 0 = 0
    | 0x22 => fld w 31 0 = 0
    | 0x38 => fld w 55 2 = 0
    | 0x39 => fld w 55 2 = 0
    | 0x31 => fld w 55 52 = 0 ∧ fld w 46 33 = 0 ∧ fld w 16 0 = 0 ∧ fld w 51 47 ≠ 0
    | _ => fld w 55 52 = 0 ∧ fld w 46 33 = 0 ∧ fld w 16 0 = 0

/-- The repeat is allowed at dispatch, with the count that the repeat register holds (R273, R297). -/
def repeatOk (w : DWord) (count : DWord) : Bool :=
  !isE w || fld w 16 16 == 0 || (!([0x11, 0x28].contains (opc w)) && decide (fld count 16 0 ≤ 65536))

/-- The bound selectors stand on axes that R271 gives the opcode (R271, R295, R341). -/
def boundOk (w : DWord) : Bool :=
  match opc w with
  | 0x11 => bkSel w = 0
  | 0x18 => bnSel w = 0
  | 0x30 => bkSel w = 0
  | 0x31 => bkSel w = 0 ∧ bnSel w = 0
  | 0x32 => bkSel w = 0 ∧ bnSel w = 0
  | _ => true

/-- A sequencer fault code. -/
def SEQ_OPCODE : Nat := 0x0601
def SEQ_PC_RANGE : Nat := 0x0602
def SEQ_IMEM_ECC : Nat := 0x0603
def SEQ_LOOP : Nat := 0x0604
def SEQ_WALK : Nat := 0x0605
def SEQ_BOUND_USE : Nat := 0x0606
def SEQ_REPEAT : Nat := 0x0607
def SEQ_EPOCH_FAR : Nat := 0x0608
def SEQ_EPOCH_AHEAD : Nat := 0x0609
def SEQ_BAR_LONG : Nat := 0x060A
def SEQ_RESERVED : Nat := 0x060B
def SEQ_SCALAR_ADDR : Nat := 0x060C
def SEQ_PRNG_BUSY : Nat := 0x0630

/-- The active loops of a sequencer, innermost first. -/
def Seq.activeLoops (q : Seq) : List Loop := q.stack.map (fun l => q.loops.getD l {})

/-- The loop checks of a LOOP or LOOPW at address p (R268, R313). -/
def loopOk (q : Seq) (w : DWord) (p : Nat) : Bool :=
  fld w 37 26 != 0 && decide (p + fld w 37 26 ≤ 4095) && !(q.loops.getD (fld w 55 53) {}).active &&
    q.activeLoops.all (fun l => decide (p + fld w 37 26 ≤ l.fin))

/-- The walk check of a LOOPW: the table is assigned and its LEVEL is not 3 (R276). -/
def walkOk (s : State) (gb : Nat) (t : Nat) : Bool :=
  s.rd Reg.SEQ_WALK_DIR_LEN gb t != 0 && s.rd Reg.SEQ_WALK_DIR_LEVEL gb t != 3

/-- The first dispatch fault of an instruction word at address p, in the order of R291. -/
def decodeFault (s : State) (gb p : Nat) (w : DWord) : Option Nat :=
  if !opcodeOk w then some SEQ_OPCODE
  else if !reservedOk w then some SEQ_RESERVED
  else if !repeatOk w (s.sreg gb (regB w)) then some SEQ_REPEAT
  else if !boundOk w then some SEQ_BOUND_USE
  else if (opc w = 0x04 ∨ opc w = 0x05) ∧ loopOk (s.seq gb) w p = false then some SEQ_LOOP
  else if opc w = 0x05 ∧ walkOk s gb (fld w 46 43) = false then some SEQ_WALK
  else none

/-! ### Halted benches -/

/-- An issued instruction that its unit holds behind a faulted one of its own and has not begun: it is not in flight. -/
def Seq.heldBehind (q : Seq) (e : Entry) : Bool :=
  e.phase == .issued && e.stage == 0 && e.iter == 0 && e.asked == 0 && e.kept.isEmpty && e.outs.isEmpty &&
    q.window.any (fun x => x.phase == .faulted && unitOf x.word == unitOf e.word && decide (x.id < e.id))

/-- DRAINED: no issued instruction is in flight (R283, R289). A faulted one is held and not in flight, and neither is one that waits
behind it in its unit (DEDUCED, assumption log 86). -/
def Seq.drained (q : Seq) : Bool :=
  q.window.all (fun e => e.phase == .waiting || e.phase == .faulted || q.heldBehind e)

/-- Halted in the sense of R285. -/
def State.halted (s : State) (gb : Nat) : Bool :=
  match s.seqState gb with
  | .idle => true
  | .halted => true
  | .ended => true
  | .fault => (s.seq gb).drained
  | _ => false

end Sys2Proof.Machine
end

