-- ==== Sys2Proof/Machine/Sequencer.lean ====
section
/-! DEFINITION. The sequencer's dispatch: fetch, decode checks, loops and the instructions that execute at dispatch
(R263, R264, R267 to R269, R276, R309 to R314). -/

namespace Sys2Proof.Machine

open Sys2Proof

/-- The state with the next dispatch address of a bench set; an address past 4,095 is remembered as such (R263). -/
def State.setPc (s : State) (gb pc : Nat) : State :=
  (s.setSeq gb { s.seq gb with past := decide (4096 ≤ pc) }).wr Reg.SEQ_PC_PC gb pc

/-- The address of the next dispatch. -/
def State.pc (s : State) (gb : Nat) : Nat := s.rd Reg.SEQ_PC_PC gb

/-- The state after entry `idx` of the table that a walking loop names is written into its register (R276). -/
def State.walkWrite (s : State) (gb : Nat) (l : Loop) : State :=
  if l.walk then
    s.setSreg gb l.wreg (s.walkRam.get 0#64 (1024 * gb + (s.rd Reg.SEQ_WALK_DIR_BASE gb l.table + l.idx) % 1024))
  else s

/-- Dispatch passes address p in sequence, `stack` being the active loops not yet tested: the innermost loop that ends there
takes its back edge or becomes inactive, and then the enclosing loop is tested (R268, R313). -/
def State.passEnd (s : State) (gb p : Nat) : List Nat → State
  | [] => (s.setSeq gb { s.seq gb with stack := [] }).setPc gb (p + 1)
  | l :: rest =>
    let q := s.seq gb
    let lp := q.loops.getD l {}
    if lp.fin = p then
      if lp.idx + 1 < lp.trip then
        let lp' := { lp with idx := lp.idx + 1 }
        ((s.setSeq gb { q with loops := q.loops.set l lp', stack := l :: rest }).walkWrite gb lp').setPc gb lp.start
      else
        (s.setSeq gb { q with loops := q.loops.set l { lp with active := false } }).passEnd gb p rest
    else (s.setSeq gb { q with stack := l :: rest }).setPc gb (p + 1)

/-- Dispatch continues in sequence after address p. -/
def State.advance (s : State) (gb p : Nat) : State := s.passEnd gb p (s.seq gb).stack

/-- The loops that a branch to t leaves active, of a stack given innermost first: those inside no loop that t leaves (R269). -/
def keepLoops (q : Seq) (t : Nat) : List Nat → List Nat
  | [] => []
  | l :: r =>
    if (l :: r).all (fun k => decide ((q.loops.getD k {}).start ≤ t) && decide (t ≤ (q.loops.getD k {}).fin)) then l :: r
    else keepLoops q t r

/-- The sequencer with the loops outside `keep` inactive. -/
def Seq.endLoops (q : Seq) (keep : List Nat) : Seq :=
  { q with stack := keep, loops := q.loops.mapIdx (fun i l => if keep.contains i then l else { l with active := false }) }

/-- A taken branch to t (R267, R269). -/
def State.branch (s : State) (gb t : Nat) : State :=
  let q := s.seq gb
  (s.setSeq gb (q.endLoops (keepLoops q t q.stack))).setPc gb t

/-- Whether an instruction that the window holds has yet to write a register that the word reads (R264, R267, R316). -/
def Seq.awaits (q : Seq) (w : DWord) : Bool :=
  q.window.any (fun e => loadTarget e.word != 0 && e.phase != Phase.done && (regsRead w).contains (loadTarget e.word))

/-- A WAIT stands on some barrier context whose arrival is OUTSTANDING (R278). -/
def State.barrierWait (s : State) (gb : Nat) : Bool :=
  [0, 1, 2, 3].any (fun c => s.on Reg.SEQ_BAR_INFO_WAITING gb c && s.on Reg.SEQ_BAR_INFO_OUTSTANDING gb c)

/-- Dispatch may take the word: the four conditions of R264; no END has been dispatched, and the clock
of the bench runs (R32, R477). -/
def State.mayDispatch (s : State) (gb : Nat) (w : DWord) : Bool :=
  decide (s.seqState gb = .run) && !(s.seq gb).ending && !s.clockStopped gb && decide ((s.seq gb).window.length < 64) &&
    !(s.seq gb).awaits w && !s.barrierWait gb

/-- A fault raised at dispatch: the instruction stays outside the window and UNIT is 22 (R291). -/
def State.dispatchFault (s : State) (gb code : Nat) : State :=
  (s.setSeq gb { s.seq gb with dispFault := true }).raise gb 22 code (s.pc gb) 0 0

/-- The fetch at PC: a correctable error costs nothing, an uncorrectable one a reread, and a lasting one faults (R263). -/
def State.fetched (s : State) (gb : Nat) (ecc : Option Ecc) : State :=
  match ecc with
  | some .transient => s.bump Reg.SEQ_STALL_FETCH_COUNT gb
  | some .lasting => s.bump Reg.SEQ_STALL_FETCH_COUNT gb
  | _ => s

/-- The dispatch of the instruction at PC, where it is one of `ops`: the checks of R291 in their order, then `eff` with the
word and its address. Where dispatch may not take it, or it is another instruction, nothing happens (DESIGN CHOICE, assumption log 2). -/
def State.dispatch (s : State) (gb : Nat) (ecc : Option Ecc) (ops : List Nat) (eff : State → DWord → Nat → State) : State :=
  let p := s.pc gb
  let w := s.instr gb p
  if !s.mayDispatch gb w then s
  else if (s.seq gb).past then s.dispatchFault gb SEQ_PC_RANGE
  else if ecc = some .lasting then (s.fetched gb ecc).dispatchFault gb SEQ_IMEM_ECC
  else match decodeFault s gb p w with
    | some c => (s.fetched gb ecc).dispatchFault gb c
    | none => if ops.contains (opc w) then eff (s.fetched gb ecc) w p else s

/-- The scalar operation FUNC (R309). -/
def aluOp (f : Nat) (a b : DWord) : DWord :=
  let n := b.toNat % 64
  match f with
  | 0x0 => a + b
  | 0x1 => a - b
  | 0x2 => a &&& b
  | 0x3 => a ||| b
  | 0x4 => a ^^^ b
  | 0x5 => a <<< n
  | 0x6 => a >>> n
  | 0x7 => a.sshiftRight n
  | 0x8 => a * b
  | 0x9 => if a.slt b then a else b
  | 0xA => if a.slt b then b else a
  | 0xB => if a.ult b then a else b
  | 0xC => if a.ult b then b else a
  | 0xD => if a.slt b then 1#64 else 0#64
  | _ => if a.ult b then 1#64 else 0#64

/-- The condition COND (R312). -/
def condOp (c : Nat) (a b : DWord) : Bool :=
  match c with
  | 0 => a == b
  | 1 => a != b
  | 2 => a.slt b
  | 3 => !a.slt b
  | 4 => a.ult b
  | _ => !a.ult b

/-- The 32-bit immediate sign-extended (R309, R310). -/
def simm32 (w : DWord) : DWord := (w.setWidth 32).signExtend 64

/-- NOP (R311). -/
def execNop (gb : Nat) (fetch : Option Ecc) (s : State) : Host.Outcome State Fault Refusal :=
  okIf (gb < 2560) (s.dispatch gb fetch [0x00] (fun s _ p => s.advance gb p))

/-- END (R314): dispatch stops; END is entered by END_REACHED once the window is empty. -/
def execEndProg (gb : Nat) (fetch : Option Ecc) (s : State) : Host.Outcome State Fault Refusal :=
  okIf (gb < 2560) (s.dispatch gb fetch [0x01] (fun s _ p =>
    (s.setSeq gb { s.seq gb with ending := true }).setPc gb (p + 1)))

/-- END_REACHED (R284, R314): the window is empty after an END. -/
def execEndReached (gb : Nat) (s : State) : Host.Outcome State Fault Refusal :=
  okIf (gb < 2560)
    (if s.seqState gb = .run ∧ (s.seq gb).ending = true ∧ (s.seq gb).window = [] ∧ s.clockStopped gb = false then
      (s.setSeq gb { s.seq gb with ending := false }).setSeqState gb .ended
    else s)

/-- BR (R312, R269). -/
def execBr (gb : Nat) (fetch : Option Ecc) (s : State) : Host.Outcome State Fault Refusal :=
  okIf (gb < 2560) (s.dispatch gb fetch [0x02] (fun s w _ => s.branch gb (fld w 11 0)))

/-- BRC (R312, R269). -/
def execBrc (gb : Nat) (fetch : Option Ecc) (s : State) : Host.Outcome State Fault Refusal :=
  okIf (gb < 2560) (s.dispatch gb fetch [0x03] (fun s w p =>
    if condOp (fld w 55 52) (s.sreg gb (fld w 51 47)) (s.sreg gb (fld w 46 42)) then s.branch gb (fld w 11 0)
    else s.advance gb p))

/-- A loop register is activated at address p, or its body skipped where the count is 0 (R268). -/
def State.startLoop (s : State) (gb : Nat) (w : DWord) (p count : Nat) (walk : Bool) : State :=
  let q := s.seq gb
  let l := fld w 55 53
  let lp : Loop := { active := decide (count ≠ 0), trip := count, idx := 0, start := p + 1, fin := p + fld w 37 26,
                     wreg := fld w 42 38, table := fld w 46 43, walk := walk }
  if count = 0 then (s.setSeq gb { q with loops := q.loops.set l lp }).advance gb lp.fin
  else ((s.setSeq gb { q with loops := q.loops.set l lp, stack := l :: q.stack }).walkWrite gb lp).setPc gb (p + 1)

/-- LOOP (R268, R313). -/
def execLoop (gb : Nat) (fetch : Option Ecc) (s : State) : Host.Outcome State Fault Refusal :=
  okIf (gb < 2560) (s.dispatch gb fetch [0x04] (fun s w p =>
    s.startLoop gb w p (if fld w 52 52 = 1 then fld (s.sreg gb (fld w 51 47)) 31 0 else fld w 25 0) false))

/-- LOOPW (R276, R313). -/
def execLoopw (gb : Nat) (fetch : Option Ecc) (s : State) : Host.Outcome State Fault Refusal :=
  okIf (gb < 2560) (s.dispatch gb fetch [0x05] (fun s w p =>
    s.startLoop gb w p (s.rd Reg.SEQ_WALK_DIR_LEN gb (fld w 46 43)) true))

/-- ALU (R309). -/
def execAlu (gb : Nat) (fetch : Option Ecc) (s : State) : Host.Outcome State Fault Refusal :=
  okIf (gb < 2560) (s.dispatch gb fetch [0x08] (fun s w p =>
    (s.setSreg gb (fld w 51 47) (aluOp (fld w 55 52) (s.sreg gb (fld w 46 42)) (s.sreg gb (fld w 41 37)))).advance gb p))

/-- ALUI (R309). -/
def execAlui (gb : Nat) (fetch : Option Ecc) (s : State) : Host.Outcome State Fault Refusal :=
  okIf (gb < 2560) (s.dispatch gb fetch [0x09] (fun s w p =>
    (s.setSreg gb (fld w 51 47) (aluOp (fld w 55 52) (s.sreg gb (fld w 46 42)) (simm32 w))).advance gb p))

/-- MOVI (R310). -/
def execMovi (gb : Nat) (fetch : Option Ecc) (s : State) : Host.Outcome State Fault Refusal :=
  okIf (gb < 2560) (s.dispatch gb fetch [0x0A] (fun s w p =>
    (s.setSreg gb (fld w 51 47)
      (if fld w 55 52 = 0 then simm32 w
       else BitVec.ofNat 64 (fld w 31 0 * 2 ^ 32 + fld (s.sreg gb (fld w 51 47)) 31 0))).advance gb p))

/-- MOVL (R311). -/
def execMovl (gb : Nat) (fetch : Option Ecc) (s : State) : Host.Outcome State Fault Refusal :=
  okIf (gb < 2560) (s.dispatch gb fetch [0x0B] (fun s w p =>
    let l := (s.seq gb).loops.getD (fld w 46 44) {}
    (s.setSreg gb (fld w 51 47) (BitVec.ofNat 64 (if fld w 43 42 = 0 then l.idx else l.trip))).advance gb p))

end Sys2Proof.Machine
end

