-- ==== Sys2Proof/Machine/Units.lean ====
section
/-! DEFINITION. What the 22 units of a bench share: their place in the window (R265), scratchpad regions with tag actions
(R249 to R253), protected reads and writes (R247, R258), bounds (R270 to R272) and the run of an issued instruction. -/

namespace Sys2Proof.Machine

open Sys2Proof

/-! ### Window entries -/

/-- The window with the entry numbered `id` changed. -/
def Seq.modEntry (q : Seq) (id : Nat) (f : Entry → Entry) : Seq :=
  { q with window := q.window.map (fun e => if e.id = id then f e else e) }

/-- The state with an entry of a bench's window changed. -/
def State.modEntry (s : State) (gb id : Nat) (f : Entry → Entry) : State := s.setSeq gb ((s.seq gb).modEntry id f)

/-- The oldest entry of a unit that satisfies `p`. -/
def Seq.oldest (q : Seq) (unit : Nat) (p : Entry → Bool) : Option Entry :=
  q.window.find? (fun e => unitOf e.word == unit && p e)

/-- Whether a unit executes or holds an issued instruction (BUSY). -/
def Seq.busy (q : Seq) (unit : Nat) : Bool := (q.oldest unit (fun e => e.phase = .issued)).isSome

/-- The state with the wait of a unit noted or cleared (R344); a report made for one wait says nothing of the next (R345). -/
def State.setWait (s : State) (gb unit : Nat) (w : Option (Nat × Nat)) : State :=
  { s with
    longSaid := if s.waits.get none (32 * gb + unit) = w then s.longSaid else s.longSaid.put false (32 * gb + unit) false
    waits := s.waits.put none (32 * gb + unit) w }

/-- The executing instruction of a unit, in issue order: its oldest entry that is not complete, where that one is issued. -/
def State.current (s : State) (gb unit : Nat) : Option Entry :=
  ((s.seq gb).oldest unit (fun e => e.phase != .done)).filter (fun e => e.phase == .issued)

/-- A unit runs entry `e` by `body`, which answers whether the instruction is complete. Where it is, the entry is done; where it
waits, the wait is noted where it has a cause, what it has done stands, and where it has done a step of its work the bench has made progress (R344); where
it faults, the unit holds it and the sequencer takes the fault (R282). -/
def State.runEntry (s : State) (gb unit : Nat) (e : Entry) (body : Act Bool) : State :=
  match body.run s with
  | (.ok true, s') => ((s'.modEntry gb e.id (fun x => { x with phase := .done })).setWait gb unit none).progress gb
  | (.ok false, s') => s'
  | (.error (.wait c o), s') =>
    let moved := (s'.seq gb).window.any (fun x => x.id == e.id && x != e)
    (if moved then s'.progress gb else s').setWait gb unit (if c = 0 then none else some (c, o))
  | (.error (.fault c i), s') =>
    let it := (((s'.seq gb).window.find? (fun x => x.id == e.id)).getD e).iter
    ((s'.modEntry gb e.id (fun x => { x with phase := .faulted })).setWait gb unit none).raise gb unit c e.pc it i

/-- A unit runs its oldest issued instruction where `sel` takes it. Where the unit holds a fault, or its oldest issued
instruction is another one, or the bench's clock is stopped (R33), nothing happens (DESIGN CHOICE, assumption log 2). -/
def State.runUnit (s : State) (gb unit : Nat) (sel : Entry → Bool) (body : Entry → Act Unit) : State :=
  match s.current gb unit with
  | none => s
  | some e =>
    if s.held gb unit || s.clockStopped gb || !sel e then s
    else s.runEntry gb unit e (do
      body e
      pure true)

/-! ### Regions and tags -/

/-- A scratchpad region of an instruction: bytes lo to lo + len - 1, its direction and its tag action. -/
structure Region where
  lo : Nat
  len : Nat
  wr : Bool
  act : Nat
  deriving DecidableEq, Repr

/-- The slots that a region touches, first and count (R250). -/
def Region.first (r : Region) : Nat := r.lo / 1024
def Region.count (r : Region) : Nat := if r.len = 0 then 0 else (r.lo + r.len - 1) / 1024 + 1 - r.lo / 1024

/-- The slots that a region touches. -/
def Region.slots (r : Region) : List Nat := upFrom r.first r.count

/-- The region runs past granule 12,287. -/
def Region.past (r : Region) : Bool := decide (393216 < r.lo + r.len)

/-- The first slot of a list whose tag is not `full` (R249, R250). -/
def State.tagBlocks (s : State) (gb : Nat) (full : Bool) (slots : List Nat) : Option Nat :=
  slots.find? (fun k => s.tag gb k != full)

/-- The wait that a region's tag action imposes: peek and consume for full, produce for empty (R249, R250). -/
def State.regionWait (s : State) (gb : Nat) (r : Region) : Option (Nat × Nat) :=
  if r.wr then (if r.act = 1 then (s.tagBlocks gb false r.slots).map (fun k => (2, k)) else none)
  else if r.act = 1 ∨ r.act = 2 then (s.tagBlocks gb true r.slots).map (fun k => (1, k)) else none

/-- The tags after a region's last access: consume empties, produce and overwrite fill (R249, R250). -/
def State.regionTags (s : State) (gb : Nat) (r : Region) : State :=
  if r.wr then (if r.act = 1 ∨ r.act = 2 then s.setTags gb r.first true r.count else s)
  else if r.act = 2 then s.setTags gb r.first false r.count else s

/-- Waits until every region's tags allow it (R249, R250). -/
def awaitTags (gb : Nat) (rs : List Region) : Act Unit := do
  let s ← get
  match rs.findSome? (s.regionWait gb) with
  | some (c, k) => Act.wait c k
  | none => pure ()

/-- Applies the tag actions of the regions, in order. -/
def applyTags (gb : Nat) (rs : List Region) : Act Unit := modify (fun s => rs.foldl (fun t r => t.regionTags gb r) s)

/-- The tagged slots of a list of regions, each as a region of its own. -/
def tagged (rs : List Region) : List Region :=
  (rs.filter (fun r => r.act != 0)).flatMap (fun r => r.slots.map (fun k => { r with lo := 1024 * k, len := 1 }))

/-- The tagged slots of some regions that no region of `other` touches in the same direction. -/
def freshSlots (now other : List Region) : List Region :=
  (tagged now).filter (fun r => (tagged other).all (fun o => o.wr != r.wr || o.lo != r.lo))

/-- Access `k` of an instruction whose accesses, in order, have the regions of `plan`: it waits on each slot that it is the first
to touch, and each slot that it is the last to touch takes its tag (R249, R250, R252). All the slots of one access are waited
for before its first byte (DESIGN CHOICE, assumption log 83). -/
def paced (gb : Nat) (plan : List (List Region)) (k : Nat) (a : Act Unit) : Act Unit := do
  awaitTags gb (freshSlots (plan.getD k []) (plan.take k).flatten)
  a
  applyTags gb (freshSlots (plan.getD k []) (plan.drop (k + 1)).flatten)

/-- The executing instruction's entry as it stands. -/
def entryNow (gb : Nat) (e : Entry) : Act Entry := do
  let s ← get
  pure (((s.seq gb).window.find? (fun x => x.id == e.id && x.phase == .issued && unitOf x.word == unitOf e.word)).getD e)

/-- The entry of the executing instruction changed. -/
def modNow (gb : Nat) (e : Entry) (f : Entry → Entry) : Act Unit := modify (fun s => s.modEntry gb e.id f)

/-- Runs the steps of an iteration, of which `k` are complete and left out; the entry records each further one, so that an
instruction that waits goes on where it stopped. -/
def inSteps (gb : Nat) (e : Entry) : Nat → List (Act Unit) → Act Unit
  | _, [] => pure ()
  | k, a :: rest => do
    a
    modNow gb e (fun x => { x with stage := k + 1 })
    inSteps gb e (k + 1) rest

/-- The steps of an iteration from the first that is not complete; `base` steps come before them. -/
def goOn (gb : Nat) (e : Entry) (base : Nat) (steps : List (Act Unit)) : Act Unit := do
  let x ← entryNow gb e
  inSteps gb e (max base x.stage) (steps.drop (x.stage - base))

/-- A tagged input region and a tagged output region touch the same slot (R253). -/
def tagSelf (rs : List Region) : Bool :=
  rs.any (fun a => !a.wr && a.act != 0 && rs.any (fun b => b.wr && b.act != 0 && a.slots.any (fun k => b.slots.contains k)))

/-- A reserved tag action (R249, R250). -/
def tagReserved (w : DWord) : Bool := tagIn w == 3 || tagOut w == 3

/-! ### Protected accesses -/

/-- The state with a granule of a bench poisoned: SPAD_POISON_INFO records the first and counts (R258, R260). -/
def State.setPoison (s : State) (gb g : Nat) : State :=
  let k := spadBase gb / 32 + g
  let s := { s with poison := s.poison.put false k true }
  let s := if s.on Reg.SPAD_POISON_INFO_VALID gb then s
           else (s.wr Reg.SPAD_POISON_INFO_GRANULE gb g).flag Reg.SPAD_POISON_INFO_VALID gb true
  s.bump Reg.SPAD_POISON_INFO_COUNT gb

/-- Whether a granule of a bench is poisoned. -/
def State.poisoned (s : State) (gb g : Nat) : Bool := s.poison.get false (spadBase gb / 32 + g)

/-- What a granule's read meets, and the counts of R258; true where the error is lasting. -/
def State.eccRead (s : State) (gb : Nat) (ecc : List (Nat × Ecc)) (g : Nat) : State × Bool :=
  match (ecc.find? (fun e => e.1 == g)).map Prod.snd with
  | some .corrected =>
    ({ s.bump Reg.SPAD_ECC_CNT_CORR gb with writeback := s.writeback.put false (spadBase gb / 32 + g) true }, false)
  | some .transient => (s.bump Reg.SPAD_ECC_CNT_TRANSIENT gb, false)
  | some .lasting => (s.setPoison gb g, true)
  | none => (s, false)

/-- The granules that a byte range touches. -/
def granules (lo len : Nat) : List Nat := if len = 0 then [] else upFrom (lo / 32) ((lo + len - 1) / 32 + 1 - lo / 32)

/-- The protection check of one granule's read by a local instruction (R258). -/
def readGranule (gb : Nat) (env : EngEnv) (g : Nat) : Act Unit := do
  let s ← get
  if s.poisoned gb g then Act.fault 0x0505 g
  else
    let r := s.eccRead gb env.ecc g
    set r.1
    if r.2 then Act.fault 0x0504 g else pure ()

/-- A local read of bytes: every granule it covers is checked, and then the bytes are returned (R258). -/
def spadRead (gb : Nat) (env : EngEnv) (lo len : Nat) : Act (List Byte) := do
  (granules lo len).forM (readGranule gb env)
  let s ← get
  pure (s.bytes (spadBase gb + lo) len)

/-- A local read of a little-endian number. -/
def spadNum (gb : Nat) (env : EngEnv) (lo len : Nat) : Act Nat := do
  let bs ← spadRead gb env lo len
  pure (ofBytes bs)

/-- What a write does to the protection of one granule it touches: a write of all 32 bytes clears its poison, a partial one
reads the granule first and leaves poison in place (R247, R258). -/
def State.writeGranule (s : State) (gb : Nat) (ecc : List (Nat × Ecc)) (lo len g : Nat) : State :=
  let k := spadBase gb / 32 + g
  let s := { s with writeback := s.writeback.put false k false }
  if lo ≤ 32 * g ∧ 32 * g + 32 ≤ lo + len then { s with poison := s.poison.put false k false }
  else if s.poisoned gb g then s
  else
    let r := s.eccRead gb ecc g
    if r.2 then r.1.benchReport gb 31 0x0504 g else r.1

/-- A write of bytes into a scratchpad (R246, R258). -/
def State.spadWrite (s : State) (gb : Nat) (ecc : List (Nat × Ecc)) (lo : Nat) (bs : List Byte) : State :=
  ((granules lo bs.length).foldl (fun t g => t.writeGranule gb ecc lo bs.length g) s).storeBytes (spadBase gb + lo) bs

/-- A unit's write. -/
def spadPut (gb : Nat) (env : EngEnv) (lo : Nat) (bs : List Byte) : Act Unit :=
  modify (fun s => s.spadWrite gb env.ecc lo bs)

/-- The writes that the unit has computed, made one by one in order under the output's tag action; `base` steps come before them. -/
def putOuts (gb : Nat) (env : EngEnv) (e : Entry) (base act : Nat) : Act Unit := do
  let x ← entryNow gb e
  let plan := x.outs.map (fun o => [({ lo := o.1, len := o.2.length, wr := true, act := act } : Region)])
  goOn gb e base (x.outs.mapIdx (fun k o => paced gb plan k (spadPut gb env o.1 o.2)))

/-! ### Bank conflicts -/

/-- The bank of a slot, and the row within its bank of a byte address (R245). -/
def bankOf (slot : Nat) : Nat := slot % 12
def bankRow (a : Nat) : Nat := a / 1024 / 12 * 8 + a % 1024 / 128

/-- Port cycles lost to other requesters, counted by the bank and over all banks (R247, R260). -/
def State.lostPorts (s : State) (gb : Nat) : List (Nat × Nat × Nat) → State
  | [] => s
  | (b, rd, wr) :: rest =>
    let s := (s.bump Reg.SPAD_RD_CONF_COUNT gb rd).bump Reg.SPAD_WR_CONF_COUNT gb wr
    ((s.bump Reg.SPAD_BANK_CONF_RD gb rd (b % 12)).bump Reg.SPAD_BANK_CONF_WR gb wr (b % 12)).lostPorts gb rest

/-- The cycles that the surroundings count while a unit executes: tag waits and bank conflicts (R247, R251). -/
def State.surround (s : State) (gb : Nat) (env : EngEnv) : State :=
  ((s.bump Reg.SPAD_TAG_WAIT_RD_COUNT gb env.tagRd).bump Reg.SPAD_TAG_WAIT_WR_COUNT gb env.tagWr).lostPorts gb env.conf

/-! ### Bounds -/

/-- rem = BOUND - ORIGIN of a bound value (R270). -/
def remOf (v : DWord) : Int := (fld v 63 32 : Int) - (fld v 31 0 : Int)

/-- The granule of a selector's bound word, where it names one (R295). -/
def boundGranule (sel : Nat) (v : DWord) : Option Nat := if 32 ≤ sel then some (fld v 13 0) else none

/-- The regions that a bound word adds to an instruction: 8 bytes, under peek where the input action is peek or consume
(R270). -/
def boundRegion (w : DWord) (sel : Nat) (v : DWord) : List Region :=
  match boundGranule sel v with
  | some g => [{ lo := 32 * g, len := 8, wr := false, act := if tagIn w = 1 ∨ tagIn w = 2 then 1 else 0 }]
  | none => []

/-- The rem of a selector as the state gives it at issue. -/
def State.remAt (s : State) (gb sel : Nat) (v : DWord) : Option Int :=
  if sel = 0 then none
  else match boundGranule sel v with
    | some g => some (remOf (BitVec.ofNat 64 (s.num (spadBase gb + 32 * g) 8)))
    | none => some (remOf v)

/-- The instruction is empty: a selector gives rem ≤ 0 (R272). -/
def Entry.empty (e : Entry) : Bool := (e.remK.map (fun r => decide (r ≤ 0))).getD false || (e.remN.map (fun r => decide (r ≤ 0))).getD false

/-- min(n, rem) for a positive rem; n where no selector stands (R271). -/
def clip (n : Nat) (r : Option Int) : Nat :=
  match r with
  | some x => if 0 < x then min n x.toNat else n
  | none => n

/-- The iterations of an entry: n of R273, or 1 without a repeat. -/
def Entry.reps (e : Entry) : Nat :=
  if isE e.word && fld e.word 16 16 == 1 then (if regB e.word = 0 then 0 else fld e.vb 16 0) else 1

/-- Stride k of an entry, in granules (R273). -/
def Entry.stride (e : Entry) (k : Nat) : Int := if fld e.word 16 16 = 1 then signed 16 (e.vc.toNat / 2 ^ (16 * k)) else 0

/-- A granule address advanced by i strides. -/
def advanceAddr (a : Nat) (st : Int) (i : Nat) : Int := (a : Int) + st * i

/-- Runs iterations `i`, `i + 1`, … of an entry, `n` in all; the entry records the next one (R273, R274). -/
def iterate (gb id : Nat) (run : Nat → Act Unit) : Nat → Nat → Act Unit
  | _, 0 => pure ()
  | i, n + 1 => do
    run i
    modify (fun s => s.modEntry gb id (fun x => { x with iter := i + 1, stage := 0, kept := [], outs := [] }))
    iterate gb id run (i + 1) n

/-- The iterations of an entry that remain. -/
def runReps (gb : Nat) (e : Entry) (run : Nat → Act Unit) : Act Unit := iterate gb e.id run e.iter (e.reps - e.iter)

/-- The granule of a descriptor: s[DREG] + DOFF, as an unsigned 64-bit sum (R294). -/
def Entry.descGranule (e : Entry) : Nat := (e.va.toNat + fld e.word 46 33) % 2 ^ 64

/-- Word k of the descriptor of an entry. -/
def Entry.dw (e : Entry) (k : Nat) : DWord := e.desc.getD k 0#64

/-- The input address that IREG gives, or the descriptor's own (R296). -/
def Entry.inAddr (e : Entry) (own : Nat) : Nat := if regD e.word = 0 then own else fld e.vd 13 0

/-- The descriptor region or a bound word runs past granule 12,287 (R294, R295). -/
def Entry.frontRange (e : Entry) : Bool :=
  (isE e.word && decide (12287 < e.descGranule)) ||
  [(bkSel e.word, e.vbk), (bnSel e.word, e.vbn)].any (fun p => match boundGranule p.1 p.2 with
    | some g => decide (12287 < g)
    | none => false)

end Sys2Proof.Machine
end

