-- ==== Sys2Proof/Machine/PotCore.lean ====
section
/-! DEFINITION. A pot's cells: weight formats and column allocation (R49 to R52, R89, R90), density classes and tiles (R177 to
R183), and the residues that the witness columns hold (R128, R129). -/

namespace Sys2Proof.Machine

open Sys2Proof

/-- The weight formats (R49), encoded as the descriptor's WFMT (R100). -/
inductive WFmt where
  | w4 | w3 | w2 | wt | wb | w5
  deriving DecidableEq, Repr

/-- The format that a WFMT field names; 0b11x names none. -/
def WFmt.ofNum : Nat → Option WFmt
  | 0 => some .w4 | 1 => some .w3 | 2 => some .w2 | 3 => some .wt | 4 => some .wb | 5 => some .w5 | _ => none

/-- Columns of one weight, n (R49, R89). -/
def WFmt.cols : WFmt → Nat
  | .w4 => 4 | .w3 => 3 | .w2 => 2 | .wt => 2 | .wb => 1 | .w5 => 5

/-- Outputs per segment, O (R89). -/
def WFmt.perSeg (f : WFmt) : Nat := 128 / f.cols

/-- Outputs per pot (R89). -/
def WFmt.outputs (f : WFmt) : Nat := 8 * f.perSeg

/-- The lowest data column of output i (R89). -/
def WFmt.col (f : WFmt) (i : Nat) : Nat := 128 * (i / f.perSeg) + f.cols * (i % f.perSeg)

/-- The signed place value of column c of a weight (R58); WB counts twice its column and takes the inputs once (`bias`). -/
def WFmt.coef (f : WFmt) (c : Nat) : Int :=
  match f with
  | .wt => if c = 0 then 1 else -1
  | .wb => 2
  | _ => if c + 1 = f.cols then -(2 ^ c : Nat) else (2 ^ c : Nat)

/-- What each driven input adds apart from the columns: -1 for WB, the N_j term of R58. -/
def WFmt.bias : WFmt → Int
  | .wb => -1
  | _ => 0

/-- The value of a weight from its raw columns (R49). -/
def WFmt.value (f : WFmt) (raw : Nat) : Int :=
  ((List.range f.cols).map (fun c => if bit raw c then f.coef c else 0)).sum + f.bias

/-- A mask bit covers Q outputs (R113). -/
def WFmt.maskQ : WFmt → Nat
  | .w5 => 1 | .w4 => 1 | .w3 => 2 | .w2 => 2 | .wt => 2 | .wb => 4

/-- The row image with the unused columns of every segment zero (R90). -/
def WFmt.trim (f : WFmt) (row : Nat) : Nat :=
  ((List.range 8).map (fun g => row / 2 ^ (128 * g) % 2 ^ (f.cols * f.perSeg) * 2 ^ (128 * g))).sum

/-- Some WT weight of a row image reads p = 1, n = 1 (R50). -/
def wtReserved (row : Nat) : Bool := (List.range 512).any (fun i => row / 2 ^ (2 * i) % 4 == 3)

/-- The index of a pot over the device. -/
def potIx (gb p : Nat) : Nat := 16 * gb + p

/-- A row of a pot, as a number: bit c is data column c. -/
def State.row (s : State) (gp r : Nat) : Nat := (s.cells.get 0 (1024 * gp + r)).toNat

/-- The state with a row of a pot written. -/
def State.setRow (s : State) (gp r v : Nat) : State :=
  { s with cells := s.cells.put 0 (1024 * gp + r) (BitVec.ofNat 1024 v) }

/-- What a pot holds beside its cells. -/
def State.potx (s : State) (gp : Nat) : PotX := s.pots.get {} gp

/-- The state with it replaced. -/
def State.setPotx (s : State) (gp : Nat) (x : PotX) : State := { s with pots := s.pots.put {} gp x }

/-- The raw columns of output i in a row. -/
def rawWeight (f : WFmt) (row i : Nat) : Nat := row / 2 ^ f.col i % 2 ^ f.cols

/-- The row witness W(r, g): the sum of the weights of segment g, mod 16 (R128). It is written with the row, so the model
computes it from the row (DEDUCED, assumption log 8). -/
def rowWitness (f : WFmt) (row g : Nat) : Nat :=
  (((List.range f.perSeg).map (fun o => f.value (rawWeight f row (g * f.perSeg + o)))).sum % 16).toNat

/-- The column witness K(c): the count of ones of a column, mod 16 (R129). -/
def State.colWitness (s : State) (gp c : Nat) : Nat :=
  ((List.range 1024).map (fun r => if bit (s.row gp r) c then 1 else 0)).sum % 16

/-! ### Density classes -/

/-- The class of a row group. -/
def PotX.cls (x : PotX) (g : Nat) : Nat := x.classes.getD g 0

/-- The logical blocks that a class takes (R183). -/
def classBlocks (c : Nat) : Nat :=
  match c with
  | 0 => 1
  | 3 => 0
  | _ => 2

/-- The logical block of row group g (R183). -/
def PotX.logBlock (x : PotX) (g : Nat) : Nat := ((x.classes.take g).map classBlocks).sum

/-- The logical blocks of a whole set. -/
def PotX.blocks (x : PotX) : Nat := (x.classes.map classBlocks).sum

/-- Whether pot p in role `role` serves class c in a mode (R179); roles as POT_CFG.ROLE, mode 1 transposed. -/
def serves (p role mode c : Nat) : Bool :=
  match c with
  | 0 => true
  | 3 => true
  | 1 => 12 ≤ p && (role == 2 || role == 3)
  | _ => 12 ≤ p && role == 3 && mode == 0

/-- The metadata word that a column of row group g uses: lane words for class 1, sub-lane words for class 2 (R182). -/
def metaWord (cls g col : Nat) : Nat := 32 * g + (if cls = 1 then 4 * (col / 128) else col / 32)

/-- The bitmap of group q of a metadata word (R182). -/
def bitmapOf (m : DWord) (q : Nat) : Nat := fld m (4 * q + 3) (4 * q)

/-- The position of slot k under a bitmap: the k-th set position (R180). -/
def slotPos (bm k : Nat) : Option Nat := ((List.range 4).filter (fun p => bit bm p))[k]?

/-- The set positions of a bitmap. -/
def bitmapCount (bm : Nat) : Nat := ((List.range 4).filter (fun p => bit bm p)).length

/-- The element of its own block that drives row r of row group g at a column, none where the row is idle there; the block is
the row group's first for rows 0 to 15 of a compressed row group or any row of a dense one, its second otherwise
(R180, R181). -/
def elemAt (cls : Nat) (m : DWord) (r : Nat) : Option Nat :=
  match cls with
  | 0 => some r
  | 3 => none
  | _ => (slotPos (bitmapOf m (r / 2)) (r % 2)).map (fun p => 4 * (r / 2 % 8) + p)

/-- The metadata word of a pot's row group at a column. -/
def State.metaAt (s : State) (gp cls g col : Nat) : DWord := s.metaRam.get 0#64 (1024 * gp + metaWord cls g col)

/-- The compaction cost above the minimum of the most costly lane of a compressed row group (R192, R200: POT_SP_COST). -/
def State.spCost (s : State) (gp cls g : Nat) : Nat :=
  let wordCost := fun (m : DWord) =>
    let np := fun p => ((List.range 16).filter (fun q => bit (bitmapOf m q) p)).length
    max 1 (ceilDiv (max (max (np 0) (np 1)) (max (np 2) (np 3))) 8)
  let word := fun k => s.metaRam.get 0#64 (1024 * gp + 32 * g + k)
  let lane := fun l =>
    if cls = 1 then wordCost (word (4 * l)) - 1
    else ((List.range 4).map (fun k => wordCost (word (4 * l + k)))).sum - 4
  (List.range 8).foldl (fun m l => max m (lane l)) 0

/-! ### Faults and witness events of a pot -/

/-- The state of a pot after a fault: no chain, no usable accumulators or buffer, the pooling window closed (R124). -/
def State.potFaulted (s : State) (gp : Nat) : State :=
  (s.setPotx gp { s.potx gp with chain := none, undef := true, pool := none, poolAbort := false }).wr Reg.POT_STATUS_POOL_CNT gp 0

/-- An action with `f` applied to the state that a fault of it leaves. -/
def onFault (f : State → State) (a : Act Unit) : Act Unit :=
  tryCatch a (fun st => do
    match st with
    | .fault _ _ => modify f
    | .wait _ _ => pure ()
    throw st)

/-- A pot's action with the state of R124 on a fault. -/
def potGuard (gp : Nat) (a : Act Unit) : Act Unit := onFault (fun s => s.potFaulted gp) a

/-- The value of POT_WIT_INFO (R149). -/
def State.witInfo (s : State) (gp : Nat) : Nat :=
  Reg.potFields.foldl (fun n f => if f.off = 0x30 then n + s.rd f gp * 2 ^ f.lo else n) 0

/-! ### Slices: the running bits and their start -/

/-- The window of R145: the die at points P1 to P4 (1.20 to 0.80 GHz) and its rail within 25 mV of the set voltage. -/
def State.windowOk (s : State) (die : Nat) : Bool :=
  let pt := s.rd Reg.PWR_DIE_STATUS_POINT 0 die
  let a := s.rd Reg.VR_RAIL_VSET 0 die
  let b := s.rd Reg.VR_RAIL_VSENSE 0 die
  decide (1 ≤ pt) && decide (pt ≤ 4) && decide (a ≤ b + 25) && decide (b ≤ a + 25)

/-- Nanoseconds since the last cold start. -/
def State.lifeNs (s : State) : Nat := s.pastNs + s.timeNs

/-- The seconds since the pot's last completed slice, or since the end of S7, as POT_ST_INFO.AGE shows them (R147). -/
def State.potAge (s : State) (gp : Nat) : Nat :=
  s.rd Reg.POT_ST_INFO_AGE gp + (s.lifeNs - max (s.potx gp).ageAt (s.dies.get {} (gp / 2560)).s7At) / 10 ^ 9

/-- A slice outside the window is deferred (R145). -/
def State.deferSlice (s : State) (gb p : Nat) : State :=
  let gp := potIx gb p
  let s := s.setPotx gp { s.potx gp with deferred := true }
  ((s.bump Reg.POT_ST_INFO_DEFERRALS gp).flag Reg.POT_INTEG_ST_PENDING gp true).benchReport gb p 0x0145 0

/-- Another pot of the bench runs a slice: at most one runs per bench (R146). -/
def State.otherSlice (s : State) (gb p : Nat) : Bool :=
  s.on Reg.BENCH_ST_STATUS_BUSY gb && s.rd Reg.BENCH_ST_STATUS_POT gb != p

/-- The pot may start a slice: its bench's clock runs (R33), no other pot of the bench runs one, and no instruction executes or is
held, or the pot holds its next one after R146's second. -/
def State.potIdle (s : State) (gb p : Nat) : Bool :=
  !s.clockStopped gb && !s.otherSlice gb p && !s.on Reg.POT_INTEG_ST_ACTIVE (potIx gb p) && match s.current gb p with
  | none => true
  | some e => (s.potx (potIx gb p)).forced && e.iter == 0 && e.stage == 0

/-- ST_KIND of a kind of slice (R149). -/
def SliceKind.num : SliceKind → Nat
  | .inService => 1 | .targeted => 2 | .boot => 3

/-- A slice of the pot runs (R149). -/
def State.startSlice (s : State) (gb p : Nat) (k : SliceKind) (meta_ : Bool) : State :=
  let gp := potIx gb p
  let s := s.setPotx gp { s.potx gp with deferred := false, metaRun := meta_ }
  let s := (s.flag Reg.POT_INTEG_ST_ACTIVE gp true).wr Reg.POT_INTEG_ST_KIND gp k.num
  (s.flag Reg.BENCH_ST_STATUS_BUSY gb true).wr Reg.BENCH_ST_STATUS_POT gb p

/-- The pot's slice is over (R149). -/
def State.endSlice (s : State) (gb p : Nat) : State :=
  let gp := potIx gb p
  let s := s.setPotx gp { s.potx gp with metaRun := false, deferred := false }
  let s := (s.flag Reg.POT_INTEG_ST_ACTIVE gp false).wr Reg.POT_INTEG_ST_KIND gp 0
  if s.otherSlice gb p then s else (s.flag Reg.BENCH_ST_STATUS_BUSY gb false).wr Reg.BENCH_ST_STATUS_POT gb 0

/-- The slice that a pot starts next: the one wanted, or, with none of its cells wanted, that of its metadata (R199: cells first). -/
def PotX.due (x : PotX) : Option (SliceKind × Bool) :=
  match x.want with
  | some k => some (k, false)
  | none => if x.metaDue then some (.targeted, true) else none

/-- A due slice starts where it may, or is deferred, once, where the window is shut; `atOnce` is a start that waits for no
instruction (R138, R144, R145, R146). -/
def State.beginSlice (s : State) (gb p : Nat) (atOnce : Bool) : State :=
  let gp := potIx gb p
  match (s.potx gp).due with
  | none => s
  | some (k, m) =>
    if s.on Reg.POT_INTEG_RETIRED gp || s.on Reg.POT_INTEG_ST_ACTIVE gp || s.otherSlice gb p || !(atOnce || s.potIdle gb p) then s
    else if s.windowOk (gb / 160) then s.startSlice gb p k m
    else if (s.potx gp).deferred then s else s.deferSlice gb p

/-- The first pot of a bench whose slice is due starts it. -/
def State.nextSlice (s : State) (gb : Nat) : State := (List.range 16).foldl (fun t p => t.beginSlice gb p false) s

/-- A pot becomes suspect, in segments beside those it is suspect in, with a targeted slice wanted (R137, R138, R144). -/
def State.suspect (s : State) (gp : Nat) (segs : List Nat) : State :=
  let x := s.potx gp
  let old := if x.want = some .targeted then x.suspects else []
  (s.setPotx gp { x with want := some .targeted, suspects := (List.range 8).filter (fun g => old.contains g || segs.contains g) }).flag
    Reg.POT_INTEG_SUSPECT gp true |>.flag Reg.POT_INTEG_ST_PENDING gp true

/-! ### Witness comparisons -/

/-- A pair of residues that differ (R131): the bit step, or the sum pair, with the witness side and the data side. -/
structure WitPair where
  step : Nat
  level : Bool
  expect : Nat
  seen : Nat
  deriving DecidableEq, Repr

/-- Bit j of the pattern of an element of a bits (R53). -/
def elemBit (a j : Nat) (v : Int) : Bool := bit (pattern a v) j

/-- The weight of bit step j, σ_j 2^j (R58). -/
def stepWeight (sg : Bool) (a j : Nat) : Int := if sg && j + 1 == a then -(2 ^ j : Nat) else (2 ^ j : Nat)

/-- The first pair of residues mod 16 that differ: the bit steps in ascending order, and then the sum pair (R131, R132). -/
def firstPair (sg : Bool) (a : Nat) (data wit : Nat → Int) : Option WitPair :=
  match (List.range a).find? (fun j => data j % 16 != wit j % 16) with
  | some j => some ⟨j, false, (wit j % 16).toNat, (data j % 16).toNat⟩
  | none =>
    let sum := fun f : Nat → Int => ((List.range a).map (fun j => stepWeight sg a j * f j)).sum % 16
    if sum data != sum wit then some ⟨0, true, (sum wit).toNat, (sum data).toNat⟩ else none

/-- The error that the events bring to a count of a segment, or, for a row, of a transposed window. -/
def miscount (evs : List WitEvent) (v : WitEvent → Int) (p : WitEvent → Bool) : Int := ((evs.filter p).map v).sum

/-- The data residue D_j of a segment before its reduction (R131): the counts T(c, j) of its outputs' columns, weighted as R58
does; `drive r c` is the element that row r is driven with at column c. -/
def State.dataResidue (s : State) (gp : Nat) (f : WFmt) (a g : Nat) (drive : Nat → Nat → Int) (evs : List WitEvent)
    (v : WitEvent → Int) (seg j : Nat) : Int :=
  ((List.range f.perSeg).map (fun o =>
    let c0 := f.col (seg * f.perSeg + o)
    let on := fun c => (List.range 32).filter (fun r => elemBit a j (drive r c))
    ((List.range f.cols).map (fun q =>
      f.coef q * (((on (c0 + q)).filter (fun r => bit (s.row gp (32 * g + r)) (c0 + q))).length +
        miscount evs v (fun e => e.seg == seg && e.step == j && e.col == c0 + q - 128 * seg)))).sum +
      f.bias * (on c0).length)).sum

/-- The witness residue V_j of a segment before its reduction (R131). -/
def State.witResidue (s : State) (gp : Nat) (f : WFmt) (a g : Nat) (drive : Nat → Nat → Int) (evs : List WitEvent)
    (v : WitEvent → Int) (seg j : Nat) : Int :=
  ((List.range 4).map (fun i =>
    (2 ^ i : Nat) * ((((List.range 32).filter (fun r => elemBit a j (drive r (128 * seg)) &&
        bit (rowWitness f (s.row gp (32 * g + r)) seg) i)).length : Int) +
      miscount evs v (fun e => e.seg == seg && e.step == j && e.col == 128 + i)))).sum

/-- The data side of a window (R132): its weighted position-counter totals over all rows, `elem o` the element of weight o. -/
def State.windowData (s : State) (gp : Nat) (f : WFmt) (a w : Nat) (elem : Nat → Int) (evs : List WitEvent)
    (v : WitEvent → Int) (j : Nat) : Int :=
  let q := fun c => (c % 128) % f.cols
  ((upFrom (32 * w) 32).map (fun c =>
    if f.cols * f.perSeg ≤ c % 128 then 0
    else if elemBit a j (elem (c / 128 * f.perSeg + c % 128 / f.cols)) then
      f.coef (q c) * ((List.range 1024).filter (fun r => bit (s.row gp r) c)).length
    else 0)).sum +
  ((List.range f.cols).map (fun q => f.coef q * miscount evs v (fun e => e.step == j && e.col == q))).sum

/-- The witness side of a window, from the column witnesses (R129, R132). -/
def State.windowWit (s : State) (gp : Nat) (f : WFmt) (a w : Nat) (elem : Nat → Int) (j : Nat) : Int :=
  ((upFrom (32 * w) 32).map (fun c =>
    if f.cols * f.perSeg ≤ c % 128 then 0
    else if elemBit a j (elem (c / 128 * f.perSeg + c % 128 / f.cols)) then f.coef ((c % 128) % f.cols) * (s.colWitness gp c : Int)
    else 0)).sum

/-- A failed comparison written to POT_WIT_INFO (R136, R149). -/
def State.noteWit (s : State) (gp mode seg grp row : Nat) (sweep lasting : Bool) (p : WitPair) : State :=
  let s := s.flag Reg.POT_WIT_INFO_LASTING gp lasting
  let s := s.wr Reg.POT_WIT_INFO_MODE gp mode
  let s := s.wr Reg.POT_WIT_INFO_SEGMENT gp seg
  let s := s.wr Reg.POT_WIT_INFO_GROUP gp grp
  let s := s.wr Reg.POT_WIT_INFO_STEP gp p.step
  let s := s.wr Reg.POT_WIT_INFO_EXPECT gp p.expect
  let s := s.wr Reg.POT_WIT_INFO_SEEN gp p.seen
  let s := s.flag Reg.POT_WIT_INFO_LEVEL gp p.level
  let s := s.flag Reg.POT_WIT_INFO_SWEEP gp sweep
  s.wr Reg.POT_WIT_INFO_ROW gp row

/-- A transient counted, in POT_WIT_CNT and in the pot's epoch of 2^24 bit steps; the sixteenth of an epoch makes a storm, whose
segment is kept (R136, R137). -/
def State.witTransient (s : State) (gp : Nat) : State :=
  let x := s.potx gp
  let ep := x.steps / 2 ^ 24
  let n := if 16 ≤ x.stormCount then x.stormCount else if x.stormEpoch = ep then x.stormCount + 1 else 1
  let seg := if n = 16 ∧ x.stormCount < 16 then s.rd Reg.POT_WIT_INFO_SEGMENT gp else x.stormSeg
  (s.setPotx gp { x with stormEpoch := ep, stormCount := n, stormSeg := seg }).bump Reg.POT_WIT_CNT_TRANSIENT gp

/-- The comparison of one row group, window or row read, and its one retry (R131, R135, R136): `pairs v` lists, in ascending order,
the segments that mismatch with the errors that `v` gives, each with its first failing pair. Where the retry passes, one transient
is counted; where any segment mismatches again the fault is lasting, the pot is suspect in every such segment, and its targeted
slice starts at once (R138). `retry` counts what a retry takes. The answer is the errors of the attempt that stands. -/
def witCheck (gp mode grp row : Nat) (sweep : Bool) (code : Nat) (retry : State → State) (evs : List WitEvent)
    (pairs : (WitEvent → Int) → List (Nat × WitPair)) : Act (WitEvent → Int) := do
  if evs.isEmpty then pure WitEvent.delta
  else
    match pairs WitEvent.delta with
    | [] => pure WitEvent.delta
    | (g, p) :: _ =>
      modify (fun s => retry (s.noteWit gp mode g grp row sweep false p))
      match pairs WitEvent.again with
      | [] =>
        modify (fun s => s.witTransient gp)
        pure WitEvent.again
      | (g2, p2) :: more =>
        modify (fun s => s.noteWit gp mode g2 grp row sweep true p2)
        let info := (← get).witInfo gp
        modify (fun s => (s.suspect gp (g2 :: more.map Prod.fst)).beginSlice (gp / 16) (gp % 16) true)
        Act.fault code info

/-- The witness comparison of a row that is read (R142, R215): a cell that an event names reads wrong, and each segment's witness is
recomputed from the row. -/
def State.rowPairs (s : State) (gp : Nat) (f : WFmt) (r : Nat) (evs : List WitEvent) (v : WitEvent → Int) : List (Nat × WitPair) :=
  let wrong := fun seg c => ((evs.filter (fun e => e.seg == seg && e.col == c && v e != 0)).length) % 2 == 1
  (List.range 8).filterMap (fun seg =>
    let row := ((List.range 128).map (fun c => if bit (s.row gp r) (128 * seg + c) != wrong seg c then 2 ^ (128 * seg + c) else 0)).sum
    let stored := ((List.range 4).map (fun i => if bit (rowWitness f (s.row gp r) seg) i != wrong seg (128 + i) then 2 ^ i else 0)).sum
    let seen := rowWitness f row seg
    if stored = seen then none else some (seg, ⟨0, true, stored, seen⟩))

end Sys2Proof.Machine
end

