-- ==== Sys2Proof/Machine/PotPass.lean ====
section
/-! DEFINITION. POT_PASS: the pass descriptor (R100), its checks (R101 to R103, R591), the row groups and windows (R91 to R98,
R190, R196), chains and masks (R61, R112 to R115) and the finish unit (R116 to R120). -/

namespace Sys2Proof.Machine

open Sys2Proof

/-- A pass as it runs: the descriptor's fields after IREG, bounds and repeat strides. Addresses are granules. -/
structure Pass where
  mode : Nat
  wfmt : Nat
  a : Nat
  asign : Bool
  g : Nat
  cont : Bool
  flushFault : Bool
  finish : Bool
  mask : Nat
  eb : Nat
  rgFirst : Nat
  rgCount : Nat
  outFirst : Nat
  outCount : Nat
  inAddr : Int
  iscale : Int
  maskAddr : Nat
  inStride : Nat
  lastLen : Nat
  ew : Nat
  rnd : Bool
  act : Nat
  pool : Nat
  poolN : Nat
  obits : Nat
  osign : Bool
  outAddr : Int
  oscale : Int
  wscale : Nat
  biasAddr : Nat
  actAddr : Nat
  biasEn : Bool
  deriving DecidableEq, Repr

/-- The fields of a pass descriptor (R100), with IREG and iteration i applied (R273, R296). -/
def Entry.pass (e : Entry) (i : Nat) : Pass :=
  let w0 := e.dw 0; let w1 := e.dw 1; let w2 := e.dw 2; let w3 := e.dw 3
  { mode := fld w0 63 62, wfmt := fld w0 61 59, a := fld w0 58 56 + 1, asign := fld w0 55 55 = 1, g := 2 ^ fld w0 54 53,
    cont := fld w0 52 52 = 1, flushFault := fld w0 51 51 = 1, finish := fld w0 50 50 = 1, mask := fld w0 49 48,
    eb := fld w0 47 40, rgFirst := fld w0 39 35, rgCount := fld w0 34 29, outFirst := fld w0 28 19, outCount := fld w0 18 8,
    inAddr := advanceAddr (e.inAddr (fld w1 63 50)) (e.stride 0) i, iscale := advanceAddr (fld w1 49 36) (e.stride 1) i,
    maskAddr := fld w1 35 22, inStride := fld w1 21 11, lastLen := if fld w1 10 5 = 0 then 32 else fld w1 10 5,
    ew := fld w2 63 56, rnd := fld w2 55 55 = 1, act := fld w2 54 52, pool := fld w2 51 50, poolN := fld w2 49 47,
    obits := fld w2 46 44 + 1, osign := fld w2 43 43 = 1, outAddr := advanceAddr (fld w2 42 29) (e.stride 2) i,
    oscale := advanceAddr (fld w2 28 15) (e.stride 3) i, wscale := fld w3 63 50, biasAddr := fld w3 49 36,
    actAddr := fld w3 35 22, biasEn := fld w3 21 21 = 1 }

/-- The descriptor breaks POT_DESC: a reserved value, a non-zero reserved field or a forbidden combination (R99, R100, R101,
R119); `d` is the pass with its bounds applied, which R271 puts before the pot's checks. -/
def passDescBad (e : Entry) (d : Pass) : Bool :=
  decide (2 ≤ d.mode) || decide (6 ≤ d.wfmt) || d.mask == 3 || d.rgCount == 0 || decide (32 < d.rgCount) ||
  fld (e.dw 0) 7 0 != 0 || fld (e.dw 1) 4 0 != 0 || decide (32 < d.lastLen) ||
  (d.finish && (d.outCount == 0 || fld (e.dw 2) 14 0 != 0 || fld (e.dw 3) 20 0 != 0 || decide (2 < d.act) ||
    (d.pool != 0 && d.mask != 0))) ||
  (d.mode == 1 && (d.rgFirst % 4 != 0 || d.rgCount % 4 != 0 || d.g != 1 || d.mask != 0))

/-- The pass with the bounds of R271 applied: BK on a dense forward pass clips row groups and the last block, BN the outputs. -/
def Pass.clipped (d : Pass) (dense : Bool) (k n : Option Int) : Pass :=
  let d := { d with outCount := clip d.outCount n }
  match k with
  | some r =>
    if dense ∧ d.mode = 0 ∧ 0 < r ∧ r < (32 * (d.rgCount - 1) + d.lastLen : Nat) then
      let h := ceilDiv r.toNat 32
      { d with rgCount := h, lastLen := r.toNat - 32 * (h - 1) }
    else d
  | none => d

/-- The transposed blocks of a pass: lowest weight's column and number of weights of each, in stream order (R98). -/
def Pass.xBlocks (d : Pass) (f : WFmt) : List (Nat × Nat) :=
  (upFrom (d.rgFirst / 4) (d.rgCount / 4)).flatMap (fun sg =>
    (List.range (ceilDiv f.perSeg 32)).map (fun k => (sg * f.perSeg + 32 * k, min 32 (f.perSeg - 32 * k))))

/-- The blocks of one stream of a pass. -/
def Pass.nBlocks (d : Pass) (x : PotX) (f : WFmt) : Nat :=
  if d.mode = 1 then (d.xBlocks f).length
  else ((upFrom d.rgFirst d.rgCount).map (fun g => classBlocks (x.cls g))).sum

/-- The real elements of block b of n in a stream (R98, R101). -/
def Pass.real (d : Pass) (f : WFmt) (n b : Nat) : Nat :=
  let own := if d.mode = 1 then ((d.xBlocks f).getD b (0, 32)).2 else 32
  if b + 1 = n then min d.lastLen own else own

/-- The bytes that the pass reads of block b of n: a whole block's 4a, a short one's real elements (R98, R101). -/
def Pass.blockLen (d : Pass) (f : WFmt) (n b : Nat) : Nat := ceilDiv (d.real f n b * d.a) 8

/-- The bytes from the first to the last that the pass reads of one stream's payload (R98, R101). -/
def Pass.inLen (d : Pass) (x : PotX) (f : WFmt) : Nat :=
  let n := d.nBlocks x f
  if n = 0 then 0 else (n - 1) * (4 * d.a) + d.blockLen f n (n - 1)

/-- The outputs that the pass could finish: those of R89, or 1,024 rows in transposed mode (R101). -/
def Pass.outputs (d : Pass) (f : WFmt) : Nat := if d.mode = 1 then 1024 else f.outputs

/-- The output blocks of a pass: the outputs of each, in ascending order, within each segment group (R95, R117, R120). -/
def Pass.outBlocks (d : Pass) (f : WFmt) : List (List Nat) :=
  let groups := if d.mode = 1 then [(0, 1024)]
    else (List.range d.g).map (fun k => (k * (8 / d.g) * f.perSeg, (k + 1) * (8 / d.g) * f.perSeg))
  groups.flatMap (fun p =>
    let lo := max p.1 d.outFirst
    let hi := min p.2 (d.outFirst + d.outCount)
    (List.range (ceilDiv (hi - lo) 32)).map (fun k => upFrom (lo + 32 * k) (min 32 (hi - lo - 32 * k))))

/-- The pass writes output blocks: it finishes, and is no first or middle member of a pooling window (R119). -/
def Pass.writes (d : Pass) (x : PotX) : Bool :=
  d.finish && (d.pool == 0 || (match x.pool with
    | some w => decide (w.held = d.poolN)
    | none => d.poolN == 0))

/-- Bytes of a region that starts at a granule, as natural numbers; an address below 0 counts as past the end. -/
def regionAt (gran : Int) (off len : Nat) (wr : Bool) (act : Nat) : Region :=
  { lo := if gran < 0 then 393216 else 32 * gran.toNat + off, len := if gran < 0 then 1 else len, wr := wr, act := act }

/-- The regions of a pass, stream regions first (R298). -/
def Pass.inRegions (d : Pass) (x : PotX) (f : WFmt) (w : DWord) : List Region :=
  (List.range d.g).map (fun k => regionAt (d.inAddr + (k * d.inStride : Nat)) 0 (d.inLen x f) false (tagIn w))
def Pass.scaleRegions (d : Pass) (x : PotX) (f : WFmt) (w : DWord) : List Region :=
  (List.range d.g).map (fun k => regionAt (d.iscale + (k : Nat)) 0 (d.nBlocks x f) false (tagIn w))
def Pass.outRegions (d : Pass) (x : PotX) (f : WFmt) (w : DWord) : List Region :=
  if d.writes x then
    let b := (d.outBlocks f).length
    [regionAt d.outAddr 0 (b * (4 * d.obits)) true (tagOut w), regionAt d.oscale 0 b true (tagOut w)]
  else []
def Pass.tableRegions (d : Pass) : List Region :=
  (if d.mask = 2 then [regionAt d.maskAddr 0 32 false 0] else []) ++
  (if d.finish then
    [regionAt d.wscale (2 * d.outFirst) (2 * d.outCount) false 0] ++
    (if d.biasEn then [regionAt d.biasAddr (4 * d.outFirst) (4 * d.outCount) false 0] else []) ++
    (if d.act = 2 then [regionAt d.actAddr 0 256 false 0] else [])
  else [])
def Pass.regions (d : Pass) (x : PotX) (f : WFmt) (w : DWord) : List Region :=
  d.inRegions x f w ++ d.scaleRegions x f w ++ d.outRegions x f w ++ d.tableRegions

/-- The roles that permit a pass (R299): 0b00 weight, 0b01 working, 0b10 sparse, 0b11 forward-only. -/
def passRoleOk (role mode : Nat) : Bool := mode == 0 || role == 0 || role == 2

/-- Whether an output is live under a mask (R113). -/
def liveOut (f : WFmt) (m : Option (BitVec 256)) (i : Nat) : Bool :=
  match m with
  | some b => b.getLsbD (i / f.maskQ)
  | none => true

/-- Element i of a block's payload (R54), 0 past its real elements (R55). -/
def blockElem (sg : Bool) (a : Nat) (payload : Nat) (real i : Nat) : Int :=
  if i < real then (if sg then signed a (payload / 2 ^ (a * i)) else (payload / 2 ^ (a * i) % 2 ^ a : Nat)) else 0

/-- The alignment k of a block scale (R59). -/
def Pass.k (d : Pass) (scale : Nat) : Int := (scale : Int) - d.eb

/-- The first failing check of the scale bytes, in the order in which the pass consumes its blocks (R103). -/
def Pass.scaleFault (d : Pass) : List Nat → Option Nat
  | [] => none
  | e :: r =>
    if e = 255 then some 0x0121
    else if 20 < d.k e then some 0x0120
    else if d.flushFault ∧ d.k e < 0 then some 0x0122
    else d.scaleFault r

/-- The partial sum of output i over physical rows lo to lo + n - 1 of a row group, the elements of one block (R58, R190). -/
def State.psum (s : State) (gp : Nat) (f : WFmt) (cls g lo n i : Nat) (x : Nat → Int) : Int :=
  ((List.range n).map (fun k =>
    let r := lo + k
    let row := s.row gp (32 * g + r)
    let el := fun c => (elemAt cls (s.metaAt gp cls g (f.col i + c)) r).elim 0 x
    ((List.range f.cols).map (fun c => if bit row (f.col i + c) then f.coef c * el c else 0)).sum + f.bias * el 0)).sum

/-- What physical row r totals over window w for the weights `first` to `first` + n - 1 of a transposed block (R97). -/
def State.xsum (s : State) (gp : Nat) (f : WFmt) (r w first n : Nat) (x : Nat → Int) : Int :=
  ((upFrom (32 * w) 32).map (fun c =>
    let o := c / 128 * f.perSeg + c % 128 / f.cols
    if c % 128 < f.cols * f.perSeg ∧ first ≤ o ∧ o < first + n then
      (if bit (s.row gp r) c then f.coef (c % 128 % f.cols) * x (o - first) else 0) + f.bias * x (o - first)
    else 0)).sum

/-- The logical row that physical row r returns its result to in segment sg, none where it is discarded (R196). -/
def State.logRow (s : State) (gp sg r : Nat) : Option Nat :=
  let x := s.potx gp
  let g := r / 32
  match x.cls g with
  | 0 => some (32 * x.logBlock g + r % 32)
  | 3 => none
  | c => (slotPos (bitmapOf (s.metaAt gp c g (128 * sg)) (r % 32 / 2)) (r % 2)).map
      (fun p => 32 * x.logBlock g + 4 * (r % 32 / 2) + p)

/-- The state with `v` added to accumulator i, or a fault where the result leaves 48 bits (R62). -/
def accAdd (gp i : Nat) (v : Int) : Act Unit := do
  let s ← get
  let t := s.accs.get 0 (1024 * gp + i) + v
  if t < -(2 ^ 47) ∨ 2 ^ 47 ≤ t then Act.fault 0x0123
  else set ({ s with accs := s.accs.put 0 (1024 * gp + i) t } : State)

/-- A flushed block: the flag and the counter (R59). -/
def State.flushBlock (s : State) (gp : Nat) : State :=
  (s.flag Reg.POT_STATUS_FLUSH gp true).bump Reg.POT_FLUSH_CNT_COUNT gp

/-- What the attempt that stands adds wrongly to the partial sum of output i over one half of its rows (R134). -/
def missedErr (f : WFmt) (d : Pass) (evs : List WitEvent) (v : WitEvent → Int) (i : Nat) (high : Bool) : Int :=
  let c0 := f.col i % 128
  ((evs.filter (fun e => e.seg == i / f.perSeg && decide (c0 ≤ e.col) && decide (e.col < c0 + f.cols) && e.high == high &&
    decide (e.step < d.a))).map (fun e => stepWeight d.asign d.a e.step * f.coef (e.col - c0) * v e)).sum

/-- The partial sums of a row group, with their shifts, added into the live outputs of a segment group, in one addition for each
output (R91, R92, R94, R190); a block below the alignment range is flushed (R59). A segment group whose outputs are all masked is
counted in the flush counter too (DESIGN CHOICE, assumption log 82). -/
def fwdAdd (gp : Nat) (d : Pass) (f : WFmt) (m : Option (BitVec 256)) (k cls g b : Nat) (scale : Nat → Nat)
    (elem : Nat → Nat → Int) (evs : List WitEvent) (v : WitEvent → Int) : Act Unit := do
  let parts : List (Nat × Nat × Nat × Bool) :=
    if cls = 0 then [(0, 32, b, false)] else [(0, 16, b, false), (16, 16, b + 1, true)]
  (parts.filter (fun q => decide (d.k (scale q.2.2.1) < 0))).forM (fun _ => modify (fun s => s.flushBlock gp))
  let used := parts.filter (fun q => decide (0 ≤ d.k (scale q.2.2.1)))
  if used.isEmpty then pure ()
  else
    (upFrom (k * (8 / d.g * f.perSeg)) (8 / d.g * f.perSeg)).forM (fun i => do
      if liveOut f m i then
        let s ← get
        accAdd gp i ((used.map (fun q =>
          (s.psum gp f cls g q.1 q.2.1 i (elem q.2.2.1) + missedErr f d evs v i q.2.2.2 +
            (if cls = 0 then missedErr f d evs v i true else 0)) * (2 ^ (d.k (scale q.2.2.1)).toNat : Nat))).sum)
      else pure ())

/-- The sparse-path instance of a pot among 12 to 15. -/
def spIx (gp : Nat) : Nat := 4 * (gp / 16) + (gp % 16 - 12)

/-- Bit steps taken on a row group or window; on a compressed one they are counted in POT_SP_STEPS as well (R125, R200). -/
def State.countSteps (s : State) (gp n : Nat) (compressed : Bool) : State :=
  let x := s.potx gp
  let s := (s.setPotx gp { x with steps := x.steps + n }).bump Reg.POT_STEP_CNT_COUNT gp n
  if compressed then s.bump Reg.POT_SP_STEPS_COUNT (spIx gp) n else s

/-- What a replay takes: its a bit steps and a + 2 frozen cycles (R108, R110). The discarded steps of the row group that followed
are not counted (DESIGN CHOICE, assumption log 82). -/
def State.countReplay (gp a : Nat) (compressed : Bool) (s : State) : State :=
  (s.countSteps gp a compressed).bump Reg.POT_FRZ_RETRY_COUNT gp (a + 2)

/-- A metadata word or tile-table entry that fails its check again: the pot is suspect and its metadata slice is due (R197). -/
def State.metaBad (s : State) (gp : Nat) : State :=
  ((s.setPotx gp { s.potx gp with metaDue := true }).flag Reg.POT_INTEG_SUSPECT gp true).flag Reg.POT_INTEG_ST_PENDING gp true

/-- A lasting metadata fault: SPARSE_META_LASTING, the metadata slice starting at once where it may (R197, R198). -/
def metaFault (gp : Nat) : Act Unit := do
  modify (fun s => (s.metaBad gp).beginSlice (gp / 16) (gp % 16) true)
  Act.fault 0x0310

/-- The checks of a row group's words or entry that fail (R197): each transient is counted and costs one cycle of compaction, a
lasting one faults. -/
def metaEvents (gp g : Nat) (evs : List (Nat × Bool)) : Act Unit :=
  (evs.filter (fun e => e.1 == g)).forM (fun e => do
    modify (fun s => s.bump Reg.POT_SP_COST_COUNT (spIx gp))
    if e.2 then metaFault gp else modify (fun s => s.bump Reg.POT_SP_CNT_META_TRANSIENT (spIx gp)))

/-- The compactor's reads of a compressed row group's metadata words: the events, and a bitmap of more than two bits, which no
reread mends (R197). -/
def metaCheck (gp cls g : Nat) (evs : List (Nat × Bool)) : Act Unit := do
  metaEvents gp g evs
  let s ← get
  let words := (List.range (if cls = 1 then 8 else 32)).map (fun k =>
    s.metaRam.get 0#64 (1024 * gp + 32 * g + (if cls = 1 then 4 * k else k)))
  if words.any (fun m => (List.range 16).any (fun q => decide (2 < bitmapCount (bitmapOf m q)))) then metaFault gp else pure ()

/-- A row group of a forward pass, its first block `b`: the compaction of a compressed one, its bit steps, its witness comparison
(none in class 2) and its addition (R91, R92, R183, R190, R191, R193). Where a witness fault is lasting, a lasting metadata fault
of the four compressed row groups behind it, whose words the compactor may have read, stands too (R199, DEDUCED, assumption
log 82). -/
def fwdGroup (gp : Nat) (d : Pass) (f : WFmt) (m : Option (BitVec 256)) (env : EngEnv) (it g b : Nat) (ahead : List Nat)
    (scale : Nat → Nat → Nat) (elem : Nat → Nat → Nat → Int) : Act Unit := do
  let s ← get
  let cls := (s.potx gp).cls g
  let comp := cls == 1 || cls == 2
  if comp then metaCheck gp cls g env.spMeta else pure ()
  modify (fun s => (if comp then s.bump Reg.POT_SP_COST_COUNT (spIx gp) (s.spCost gp cls g) else s).countSteps gp d.a comp)
  let evs := env.wit.filter (fun e => e.iter == it && e.pos == g && decide (e.step < d.a))
  let segs := if cls = 2 then [] else
    (List.range 8).filter (fun sg => (upFrom (sg * f.perSeg) f.perSeg).all (liveOut f m))
  let drive := fun r c => (elemAt cls (s.metaAt gp cls g c) r).elim 0
    (elem (c / 128 / (8 / d.g)) (if comp && decide (16 ≤ r) then b + 1 else b))
  let pairs := fun v => segs.filterMap (fun sg =>
    (firstPair d.asign d.a (s.dataResidue gp f d.a g drive evs v sg) (s.witResidue gp f d.a g drive evs v sg)).map (fun p => (sg, p)))
  let v ← tryCatch (witCheck gp 0 g 0 false 0x0140 (State.countReplay gp d.a comp) evs pairs) (fun st => do
    let near := (ahead.filter (fun k => (s.potx gp).cls k == 1 || (s.potx gp).cls k == 2)).take 4
    if env.spMeta.any (fun e => e.2 && near.contains e.1) then modify (fun s => s.metaBad gp) else pure ()
    throw st)
  (List.range d.g).forM (fun k => fwdAdd gp d f m k cls g b (scale k) (elem k) evs v)

/-- A block of a transposed pass, window by window: the bit steps, the witness comparison from the column witnesses, and the
addition of each physical row's total to its logical row (R97, R98, R132, R196). -/
def xposeBlock (gp : Nat) (d : Pass) (f : WFmt) (env : EngEnv) (it : Nat) (blk : Nat × Nat) (scale : Nat) (elem : Nat → Int) :
    Act Unit := do
  let comp := (← get).potx gp |>.classes.any (fun c => c == 1 || c == 2)
  if d.k scale < 0 then modify (fun s => s.flushBlock gp) else pure ()
  (upFrom (f.col blk.1 / 32) (ceilDiv (f.cols * blk.2) 32)).forM (fun w => do
    modify (fun s => s.countSteps gp d.a comp)
    let s ← get
    let evs := env.wit.filter (fun e => e.iter == it && e.pos == w && decide (e.step < d.a))
    let own := fun o => if blk.1 ≤ o ∧ o < blk.1 + blk.2 then elem (o - blk.1) else 0
    let pairs := fun v => ((firstPair d.asign d.a (s.windowData gp f d.a w own evs v) (s.windowWit gp f d.a w own)).map
      (fun p => (w / 4, p))).toList
    let v ← witCheck gp 1 w 0 false 0x0140 (State.countReplay gp d.a comp) evs pairs
    if d.k scale < 0 then pure ()
    else
      (List.range 1024).forM (fun r => do
        let s ← get
        match s.logRow gp (w / 4) r with
        | some i =>
          let err := ((evs.filter (fun e => e.row == r && decide (e.col < f.cols))).map (fun e =>
            stepWeight d.asign d.a e.step * f.coef e.col * v e)).sum
          accAdd gp i ((s.xsum gp f r w blk.1 blk.2 elem + err) * (2 ^ (d.k scale).toNat : Nat))
        | none => pure ()))

/-- The marks of masked outputs (R115). -/
def State.markGated (s : State) (gp : Nat) (f : WFmt) (m : Option (BitVec 256)) : State :=
  match m with
  | none => s
  | some _ => (List.range f.outputs).foldl (fun t i =>
      if liveOut f m i then t else { t with gated := t.gated.put false (1024 * gp + i) true }) s

/-- Some segment of the pass has a masked and a live output, or a class 2 row group is driven: the pass counts in UNCHECKED
(R133, R191). -/
def Pass.unchecked (d : Pass) (f : WFmt) (m : Option (BitVec 256)) (x : PotX) : Bool :=
  (m.isSome && (List.range 8).any (fun g =>
    let os := upFrom (g * f.perSeg) f.perSeg
    os.any (fun i => liveOut f m i) && os.any (fun i => !liveOut f m i))) ||
  (d.mode == 0 && (upFrom d.rgFirst d.rgCount).any (fun g => x.cls g == 2))

/-! ### The finish unit -/

/-- The working value of a live output: scale, bias and activation stages, with whether any of them saturated (R65, R66,
R118). -/
def Pass.working (d : Pass) (acc : Int) (ew m : Nat) (bias : Int) (act : Int → Int × Bool) : Int × Bool :=
  let mm : Nat := if m = 0 then 128 else m
  let v := sat32 (scaleBy (acc * mm) ((d.eb : Int) + ew - d.ew - 134))
  let v2 := if d.biasEn then sat32 (v.1 + bias) else (v.1, false)
  let y := act v2.1
  (y.1, v.2 || v2.2 || y.2)

/-- The entry of the piecewise table that a value selects, and its result (R118). `t` gives word i of the table as a signed
32-bit number, `m` its slope. -/
def piecewise (t : Nat → Int) (m : Nat → Int) (b : Nat → Int) (v : Int) : Int × Bool :=
  let e := (List.range 16).foldl (fun k i => if i = 0 ∨ t i ≤ v then i else k) 0
  sat32 (rne (v * m e) 8 + b e)

/-- The pooling stage (R119): member k (from 0) of n + 1 combines v with the buffer's value; whether the sum saturated. -/
def poolCombine (pool k n : Nat) (old v : Int) : Int × Bool :=
  if pool = 0 then (v, false)
  else if pool = 1 then (if k = 0 then v else max old v, false)
  else
    let t := if k = 0 then (v, false) else sat32 (old + v)
    if pool = 3 ∧ k = n then (rneDiv t.1 (n + 1), t.2) else t

/-- One requantized block: its elements, its scale EW + s, whether one was clamped (R67 to R69). `draw i` is the draw of the
block's position i, none under RNE. -/
def quantBlock (sg : Bool) (a ew : Nat) (draw : Nat → Option Nat) (vs : List Int) : List Int × Nat × Bool :=
  let s := blockShift sg a vs
  let es := vs.mapIdx (fun i v => roundElem sg a s (draw i) v)
  (es.map Prod.fst, ew + s, es.any Prod.snd)

/-- The payload of a block of a-bit elements, padded to 32 with zeros (R54, R69). -/
def packBlock (a : Nat) (es : List Int) : List Byte :=
  leBytes (4 * a) ((es.mapIdx (fun i v => pattern a v * 2 ^ (a * i))).sum)

/-- n draws of a substream, in order. -/
def drawList : Nat → DWord → List Nat
  | 0, _ => []
  | n + 1, x => (prngDraw x).2 :: drawList n (prngDraw x).1

/-- A block of the finish unit (R117): `vs` its working values with whether one saturated, `draws` its draws. It sets SAT and CLAMP
as its stages reach them (R66 to R68), and answers the payload and the scale. -/
def finishBlock (gp : Nat) (d : Pass) (nan : Bool) (vs : List (Int × Bool)) (draws : Option (List Nat)) :
    Act (List Byte × Byte) := do
  Act.check nan 0x0121
  if vs.any Prod.snd then modify (fun s => s.flag Reg.POT_STATUS_SAT gp true) else pure ()
  if !d.osign && vs.any (fun v => decide (v.1 < 0)) then modify (fun s => s.flag Reg.POT_STATUS_CLAMP gp true) else pure ()
  let q := quantBlock d.osign d.obits d.ew (fun i => draws.map (fun l => l.getD i 0)) (vs.map Prod.fst)
  Act.check (decide (254 < q.2.1)) 0x0125
  if q.2.2 then modify (fun s => s.flag Reg.POT_STATUS_CLAMP gp true) else pure ()
  pure (packBlock d.obits q.1, BitVec.ofNat 8 q.2.1)

/-- The blocks of a finish, in ascending order, with the draws that stand before each. -/
def finishBlocks (gp : Nat) (d : Pass) (nan : Nat → Bool) (val : Nat → Int × Bool) :
    Nat → List Nat → List (List Nat) → Act (List (List Byte × Byte))
  | _, _, [] => pure []
  | j, draws, os :: rest => do
    let b ← finishBlock gp d (os.any nan) (os.map val) (if d.rnd then some (draws.take 32) else none)
    let bs ← finishBlocks gp d nan val (j + 1) (draws.drop 32) rest
    pure (b :: bs)

/-- The finish of a pass: its checks in order, the hand-over to the finish input buffer, the stages block by block, and either the
pool buffer or the output blocks, which the instruction then writes (R116 to R120). A block behind one that faults has set no
flag (DESIGN CHOICE, assumption log 82). -/
def finishPass (gb gp : Nat) (d : Pass) (f : WFmt) (m : Option (BitVec 256)) (env : EngEnv) (e : Entry) (unit : Nat) : Act Unit := do
  -- the tables, read in bypass (R117)
  let tab ← if d.act = 2 then spadRead gb env (32 * d.actAddr) 256 else pure []
  let t := fun i => signed 32 (ofBytes ((tab.drop (16 * i)).take 4))
  let sl := fun i => signed 16 (ofBytes ((tab.drop (16 * i + 4)).take 2))
  let of := fun i => signed 32 (ofBytes ((tab.drop (16 * i + 8)).take 4))
  Act.check (d.act == 2 && (upFrom 1 14).any (fun i => decide (t (i + 1) < t i))) 0x0107
  let outs := upFrom d.outFirst d.outCount
  let live := outs.filter (fun i => liveOut f m i)
  live.forM (fun i => do
    let _ ← spadRead gb env (32 * d.wscale + 2 * i) 2
    if d.biasEn then
      let _ ← spadRead gb env (32 * d.biasAddr + 4 * i) 4
      pure ()
    else pure ())
  -- the hand-over
  let s0 ← get
  Act.check (live.any (fun i => s0.gated.get false (1024 * gp + i))) 0x0108
  let x := s0.potx gp
  Act.check (match x.pool with
    | some w => w.pool != d.pool || w.n != d.poolN || w.outFirst != d.outFirst || w.count != d.outCount
    | none => false) 0x0109
  modify (fun s => outs.foldl (fun t i => { t with finBuf := t.finBuf.put 0 (1024 * gp + i) (s0.accs.get 0 (1024 * gp + i)) }) s)
  let s ← get
  let held := (x.pool.map PoolWin.held).getD 0
  let act := fun v => if d.act = 1 then (max v 0, false) else if d.act = 2 then piecewise t sl of v else (v, false)
  let val := fun i : Nat =>
    if liveOut f m i then
      d.working (s.finBuf.get 0 (1024 * gp + i)) (s.num (spadBase gb + 32 * d.wscale + 2 * i) 1)
        (s.num (spadBase gb + 32 * d.wscale + 2 * i + 1) 1)
        (signed 32 (s.num (spadBase gb + 32 * d.biasAddr + 4 * i) 4)) act
    else (0, false)
  let nan := fun i : Nat => liveOut f m i && s.num (spadBase gb + 32 * d.wscale + 2 * i) 1 == 255
  let pooled := fun i : Nat =>
    let v := val i
    let c := poolCombine d.pool held d.poolN (s.poolBuf.get 0 (1024 * gp + i)) v.1
    (c.1, v.2 || c.2)
  let blocks := d.outBlocks f
  if d.pool ≠ 0 ∧ held < d.poolN then
    blocks.forM (fun os => do
      Act.check (os.any nan) 0x0121
      if os.any (fun i => (pooled i).2) then modify (fun s => s.flag Reg.POT_STATUS_SAT gp true) else pure ()
      modify (fun s => os.foldl (fun t i => { t with poolBuf := t.poolBuf.put 0 (1024 * gp + i) (pooled i).1 }) s))
    let win : PoolWin := ⟨d.pool, d.poolN, d.outFirst, d.outCount, held + 1⟩
    modify (fun s => (s.setPotx gp { s.potx gp with pool := some win }).wr Reg.POT_STATUS_POOL_CNT gp (held + 1))
  else
    let x0 := s.prngOf gb unit
    let n := 32 * blocks.length
    let done ← finishBlocks gp d nan pooled 0 (if d.rnd then drawList n x0 else []) blocks
    if d.rnd then modify (fun s => s.setPrng gb unit (prngSkip n x0)) else pure ()
    modNow gb e (fun y => { y with outs := (done.mapIdx (fun j b =>
      [(32 * d.outAddr.toNat + j * (4 * d.obits), b.1), (32 * d.oscale.toNat + j, [b.2])])).flatten })
    modify (fun s => (s.setPotx gp { s.potx gp with pool := none }).wr Reg.POT_STATUS_POOL_CNT gp 0)

/-! ### One iteration -/

/-- The issue checks of a pass, in the order of R591, on the descriptor with its bounds applied (R271). -/
def passChecks (gb p : Nat) (e : Entry) (d0 : Pass) : Act Unit := do
  let s ← get
  let gp := potIx gb p
  let x := s.potx gp
  let role := s.rd Reg.POT_CFG_ROLE gp
  let tiled := s.on Reg.POT_SP_CFG_TILED (4 * gb + (p - 12)) && decide (12 ≤ p)
  let d := if e.empty then d0 else d0.clipped (!tiled) e.remK e.remN
  Act.check (passDescBad e d) 0x0103
  Act.check (s.potOff.get false gp || !passRoleOk role d.mode) 0x0101
  Act.check (!s.on Reg.POT_CFG_VALID gp) 0x0102
  Act.check (s.rd Reg.POT_CFG_WFMT gp != d.wfmt) 0x0104
  Act.check (d.mode == 1 && d.wfmt == 5) 0x0105
  Act.check ((if d.mode = 1 then List.range 32 else upFrom d.rgFirst d.rgCount).any
    (fun g => !serves p role d.mode (x.cls g))) 0x0301
  Act.check (bkSel e.word != 0 && (d.mode == 1 || tiled)) 0x0606
  Act.check (d.cont && x.chain != some { eb := d.eb, mode := d.mode, wfmt := d.wfmt }) 0x0124
  Act.check (d.eb == 255 || (d.finish && d.ew == 255)) 0x0121
  let f := (WFmt.ofNum d.wfmt).getD .w4
  Act.check (decide (32 < d.rgFirst + d.rgCount) ||
    (d.finish && decide (d.outputs f < d.outFirst + d.outCount)) ||
    (d.regions x f e.word).any Region.past) 0x0106
  Act.check (tagSelf (d.inRegions x f e.word ++ d.scaleRegions x f e.word ++ d.outRegions x f e.word)) 0x0503

/-- The tile-table entries of a pass's row groups, whose parity the pot checks at issue (R189, R197). -/
def tileCheck (gp : Nat) (gs : List Nat) (env : EngEnv) : Act Unit :=
  if gp % 16 < 12 then pure () else gs.forM (fun g => metaEvents gp g env.tile)

/-- The mask of a pass (R112): none; the record that the pot's mask slot holds, which the pass takes; or the stored mask, read at
issue. -/
def takeMask (gb gp : Nat) (d : Pass) (env : EngEnv) (e : Entry) : Act Unit := do
  if d.mask = 1 then
    let s ← get
    match (s.potx gp).mask with
    | some r =>
      set (s.setPotx gp { s.potx gp with mask := none })
      modNow gb e (fun x => { x with live := some r.live })
    | none =>
      set (s.bump Reg.POT_MASK_WAIT_COUNT gp env.maskWait)
      Act.wait 6 (gp % 16)
  else if d.mask = 2 then
    match (← entryNow gb e).liveBad with
    | some (c, g) => Act.fault c g
    | none => pure ()
  else pure ()

/-- Every output of the pass's output range is masked: the array takes no steps, and flushes nothing (R114; that no block is then
counted as flushed is a DESIGN CHOICE, assumption log 82). -/
def Pass.dark (d : Pass) (f : WFmt) (m : Option (BitVec 256)) : Bool :=
  d.outCount != 0 && (upFrom d.outFirst d.outCount).all (fun i => !liveOut f m i)

/-- The start of a pass's array work (R61, R93, R115): a fresh chain clears the accumulators and gated marks; the marks of its own
mask; and a pass that leaves a driven segment unchecked is counted (R133, R191). -/
def State.startPass (s : State) (gp : Nat) (d : Pass) (f : WFmt) (m : Option (BitVec 256)) : State :=
  let x := s.potx gp
  let s := if d.cont then s else
    ({ s with accs := s.accs.clear (1024 * gp) (1024 * gp + 1024),
              gated := s.gated.clear (1024 * gp) (1024 * gp + 1024) } : State).setPotx gp
      { x with chain := some { eb := d.eb, mode := d.mode, wfmt := d.wfmt }, undef := false }
  let s := s.markGated gp f m
  if !d.dark f m && d.unchecked f m x then s.bump Reg.POT_WIT_CNT_UNCHECKED gp else s

/-- The row groups that a forward pass drives, each with its first block in the stream (R183). -/
def Pass.groups (d : Pass) (x : PotX) : List (Nat × Nat) :=
  ((upFrom d.rgFirst d.rgCount).map (fun g => (g, ((upFrom d.rgFirst (g - d.rgFirst)).map (fun k => classBlocks (x.cls k))).sum))).filter
    (fun q => x.cls q.1 != 3)

/-- What one step of a pass reads of each stream's payload: its blocks, the first block's number and how many. -/
def Pass.reads (d : Pass) (x : PotX) : List (Nat × Nat) :=
  if d.mode = 1 then (List.range (d.nBlocks x ((WFmt.ofNum d.wfmt).getD .w4))).map (fun b => (b, 1))
  else (d.groups x).map (fun q => (q.2, classBlocks (x.cls q.1)))

/-- The regions of blocks b to b + n - 1 of every stream (R94, R101). -/
def Pass.blockRegions (d : Pass) (f : WFmt) (nb : Nat) (w : DWord) (q : Nat × Nat) : List Region :=
  (List.range d.g).flatMap (fun k => (upFrom q.1 q.2).map (fun b =>
    regionAt (d.inAddr + (k * d.inStride : Nat)) (b * (4 * d.a)) (d.blockLen f nb b) false (tagIn w)))

/-- The scale bytes that a pass retains, judged before it requests an entry (R103). -/
def judgeScales (gb : Nat) (e : Entry) (d : Pass) (nb : Nat) : Act Unit := do
  let x ← entryNow gb e
  match d.scaleFault ((List.range nb).flatMap (fun b => (List.range d.g).map (fun k => (x.kept.getD (k * nb + b) 0#8).toNat))) with
  | some c => Act.fault c
  | none => pure ()

/-- One step of a pass's array work: step `n` reads its entries, which the feeder releases afterwards (R109), and drives them where
the array takes steps (R91, R97, R114). -/
def passStep (gb gp : Nat) (env : EngEnv) (e : Entry) (d : Pass) (f : WFmt) (it nb n : Nat) (q : Nat × Nat) : Act Unit := do
  (d.blockRegions f nb e.word q).forM (fun r => do
    let _ ← spadRead gb env r.lo r.len
    pure ())
  let s ← get
  let x ← entryNow gb e
  let m := if d.mask = 0 then none else x.live
  let scale := fun k b => (x.kept.getD (k * nb + b) 0#8).toNat
  let elem := fun k b i => blockElem d.asign d.a
    (s.num (spadBase gb + 32 * (d.inAddr.toNat + k * d.inStride) + b * (4 * d.a)) (d.blockLen f nb b)) (d.real f nb b) i
  if d.dark f m then pure ()
  else if d.mode = 1 then
    -- the routing reads every compressed row group's words (R196, R197)
    if n = 0 then (List.range 32).forM (fun g =>
      if (s.potx gp).cls g = 1 then metaCheck gp 1 g env.spMeta else pure ())
    else pure ()
    xposeBlock gp d f env it ((d.xBlocks f).getD q.1 (0, 0)) (scale 0 q.1) (elem 0 q.1)
  else
    let gs := (d.groups (s.potx gp)).map Prod.fst
    fwdGroup gp d f m env it (gs.getD n 0) q.1 (gs.drop (n + 1)) scale elem

/-- Iteration `it` of a pass (R100 to R120): the scale bytes of each stream under TAGI, their judgement, the mask, the row groups or
blocks with their entries, the finish and its output blocks. A scale that fails its check leaves the mask record in the slot
(DESIGN CHOICE, assumption log 82). -/
def passIter (gb p : Nat) (env : EngEnv) (e : Entry) (it : Nat) : Act Unit := do
  let gp := potIx gb p
  let d0 := e.pass it
  if (← entryNow gb e).stage = 0 then
    passChecks gb p e d0
    tileCheck gp (if d0.mode = 1 then List.range 32 else upFrom d0.rgFirst (min 32 d0.rgCount)) env
  else pure ()
  let s ← get
  let x := s.potx gp
  let f := (WFmt.ofNum d0.wfmt).getD .w4
  let tiled := s.on Reg.POT_SP_CFG_TILED (4 * gb + (p - 12)) && decide (12 ≤ p)
  if e.empty then
    awaitTags gb (d0.regions x f e.word)
    applyTags gb (d0.regions x f e.word)
    modify (fun s => s.bump Reg.SEQ_EMPTY_CNT_COUNT gb)
  else
    let d := d0.clipped (!tiled) e.remK e.remN
    let nb := d.nBlocks x f
    let scales := d.scaleRegions x f e.word
    let reads := d.reads x
    let plan := scales.map (fun r => [r]) ++ [[]] ++ reads.map (d.blockRegions f nb e.word)
    let readScales := scales.mapIdx (fun k r => paced gb plan k (do
      let bs ← spadRead gb env r.lo r.len
      modNow gb e (fun y => { y with kept := y.kept ++ bs })))
    let start : Act Unit := do
      judgeScales gb e d nb
      takeMask gb gp d env e
      let y ← entryNow gb e
      modify (fun s => s.startPass gp d f (if d.mask = 0 then none else y.live))
    let steps := reads.mapIdx (fun n q => paced gb plan (d.g + 1 + n) (passStep gb gp env e d f it nb n q))
    let finish : Act Unit := if d.finish then do
        let y ← entryNow gb e
        finishPass gb gp d f (if d.mask = 0 then none else y.live) env e p
      else pure ()
    goOn gb e 0 (readScales ++ [start] ++ steps ++ [finish])
    putOuts gb env e (d.g + 2 + reads.length) (tagOut e.word)
    modify (fun s => s.bump Reg.POT_PASS_CNT_COUNT gp)

/-- What comes before an instruction's own work: the cycles that its surroundings count, and the checks of its descriptor and bound
words and of its tag actions (R591). A repeat of no iterations makes no access and meets none (R273). -/
def frontChecks (gb : Nat) (env : EngEnv) (e : Entry) (range : Nat) : Act Unit := do
  modify (fun s => s.surround gb env)
  Act.check (e.reps != 0 && e.frontRange) range
  match e.bad with
  | some (c, g) => Act.fault c g
  | none => pure ()
  Act.check (e.reps != 0 && tagReserved e.word) 0x0502

/-- A pot that accepts no instruction: retired (R140). -/
def potRetired (gp : Nat) : Act Unit := do
  let s ← get
  Act.check (s.on Reg.POT_INTEG_RETIRED gp) 0x0142

/-- The freeze cycles that the surroundings bring (R110, R111). -/
def State.freezes (s : State) (gp : Nat) (env : EngEnv) : State :=
  (s.bump Reg.POT_FRZ_FEED_COUNT gp env.feed).bump Reg.POT_FRZ_BACK_COUNT gp env.back

/-- Whether a slice holds the pot's next instruction (R144, R146). -/
def State.sliceHolds (s : State) (gp : Nat) : Bool :=
  s.on Reg.POT_INTEG_ST_ACTIVE gp ||
  ((s.potx gp).forced && (match s.current (gp / 16) (gp % 16) with
    | some e => e.iter == 0 && e.stage == 0
    | none => true))

/-- The pooling window of a pot closed and its buffer discarded (R119, R123). -/
def State.closePool (s : State) (gp : Nat) : State :=
  ({ s with poolBuf := s.poolBuf.clear (1024 * gp) (1024 * gp + 1024) } : State).setPotx gp
    { s.potx gp with pool := none, poolAbort := false } |>.wr Reg.POT_STATUS_POOL_CNT gp 0

/-- A POOL_ABORT that came while an instruction executed acts when that instruction ends (R123). -/
def poolAborts (gp : Nat) : Act Unit :=
  modify (fun s => if (s.potx gp).poolAbort then s.closePool gp else s)

/-- Pot p runs an instruction that `sel` takes: its front checks, that it is not retired, and `body`, with the state of R124 and
what `guard` adds on a fault of any of them; a slice that runs or is due holds it (R146). -/
def State.runPot (s : State) (gb p : Nat) (env : EngEnv) (sel : Entry → Bool) (guard : Entry → Act Unit → Act Unit)
    (body : Entry → Act Unit) : State :=
  if s.sliceHolds (potIx gb p) then s
  else s.runUnit gb p sel (fun e => potGuard (potIx gb p) (guard e (do
    modify (fun s => s.freezes (potIx gb p) env)
    frontChecks gb env e 0x0106
    potRetired (potIx gb p)
    body e
    poolAborts (potIx gb p))))

/-- POT_PASS (R300): the iterations of the executing pass descriptor of pot p. -/
def execPotPass (gb p : Nat) (env : EngEnv) (s : State) : Host.Outcome State Fault Refusal :=
  okIf (gb < 2560 && p < 16)
    (s.runPot gb p env (fun e => opc e.word == 0x10) (fun _ a => a) (fun e => do
      if 12 ≤ p then modify (fun s => s.bump Reg.POT_SP_CMP_WAIT_COUNT (4 * gb + (p - 12)) env.cmpWait) else pure ()
      runReps gb e (passIter gb p env e)))

/-- POOL_ABORT (R119, R123): at once, or when the executing instruction ends while the pot is BUSY. -/
def execPoolAbort (gb p : Nat) (s : State) : Host.Outcome State Fault Refusal :=
  okIf (gb < 2560 && p < 16)
    (if (s.seq gb).busy p then s.setPotx (potIx gb p) { s.potx (potIx gb p) with poolAbort := true }
    else s.closePool (potIx gb p))

end Sys2Proof.Machine
end

