-- ==== Sys2Proof/Machine/Spad.lean ====
section
/-! DEFINITION. The scratchpad: scalar loads and stores (R308), its own three operations (R256, R306, R307), tag commands, and
the service of accesses from outside the bench (R257, R258). -/

namespace Sys2Proof.Machine

open Sys2Proof

/-- Counts an empty instruction (R272). -/
def countEmpty (gb : Nat) : Act Unit := modify (fun s => s.bump Reg.SEQ_EMPTY_CNT_COUNT gb)

/-! ### LD and ST -/

/-- The byte address of an LD or ST, as a 64-bit sum (R308). -/
def Entry.scalarAddr (e : Entry) : Nat := (e.va + ((BitVec.ofNat 16 (fld e.word 15 0)).signExtend 64)).toNat

/-- The address breaks SEQ_SCALAR_ADDR (R308). -/
def scalarBad (a : Nat) : Bool := a % 8 != 0 || decide (393208 < a)

/-- LD (R308, R267): eight bytes of the scratchpad to a scalar register; an LD to s0 reads and applies its tag action. -/
def execLd (gb : Nat) (env : EngEnv) (s : State) : Host.Outcome State Fault Refusal :=
  okIf (gb < 2560) (s.runUnit gb 18 (fun e => opc e.word == 0x0C) (fun e => do
    frontChecks gb env e 0x0501
    Act.check (scalarBad e.scalarAddr) SEQ_SCALAR_ADDR
    let r : Region := ⟨e.scalarAddr, 8, false, tagIn e.word⟩
    awaitTags gb [r]
    let v ← spadNum gb env e.scalarAddr 8
    modify (fun s => s.setSreg gb (loadTarget e.word) (BitVec.ofNat 64 v))
    applyTags gb [r]))

/-- ST (R308): the register's value, as captured at dispatch, to eight bytes of the scratchpad. -/
def execSt (gb : Nat) (env : EngEnv) (s : State) : Host.Outcome State Fault Refusal :=
  okIf (gb < 2560) (s.runUnit gb 18 (fun e => opc e.word == 0x0D) (fun e => do
    frontChecks gb env e 0x0501
    Act.check (scalarBad e.scalarAddr) SEQ_SCALAR_ADDR
    let r : Region := ⟨e.scalarAddr, 8, true, tagOut e.word⟩
    awaitTags gb [r]
    spadPut gb env e.scalarAddr (leBytes 8 e.vb.toNat)
    applyTags gb [r]))

/-! ### FILL, COPY, TAGSET -/

/-- The granules of a FILL or COPY: as encoded, or as BK clips them (R271, R306); an empty one keeps its unclipped extent. -/
def Entry.spadLen (e : Entry) : Nat :=
  let n := fld e.word 45 32 + 1
  if e.empty then n else clip n e.remK

/-- The region of a FILL, and the source and destination of a COPY (R306). -/
def Entry.fillRegion (e : Entry) : Region := ⟨32 * fld e.va 13 0, 32 * e.spadLen, true, tagOut e.word⟩
def Entry.copySrc (e : Entry) : Region := ⟨32 * fld e.va 13 0, 32 * e.spadLen, false, tagIn e.word⟩
def Entry.copyDst (e : Entry) : Region := ⟨32 * fld e.vb 13 0, 32 * e.spadLen, true, tagOut e.word⟩

/-- The pieces of a byte range that lie in one bank row of 128 bytes each, ascending (R245). -/
def rowPieces (lo len : Nat) : List (Nat × Nat) :=
  (upFrom (lo / 128) (if len = 0 then 0 else (lo + len - 1) / 128 + 1 - lo / 128)).map (fun r =>
    (max lo (128 * r), min (lo + len) (128 * r + 128) - max lo (128 * r)))

/-- An empty FILL or COPY: its tag actions at once (R272). -/
def emptySpad (gb : Nat) (rs : List Region) : Act Unit := do
  awaitTags gb rs
  countEmpty gb
  applyTags gb rs

/-- FILL (R256, R306): row by row, each under the tag of its slot (R250, R252). -/
def execFill (gb : Nat) (env : EngEnv) (s : State) : Host.Outcome State Fault Refusal :=
  okIf (gb < 2560) (s.runUnit gb 18 (fun e => opc e.word == 0x20) (fun e => do
    frontChecks gb env e 0x0501
    let r := e.fillRegion
    Act.check r.past 0x0501
    if e.empty then emptySpad gb [r]
    else
      let ps := rowPieces r.lo r.len
      let plan := ps.map (fun p => [{ r with lo := p.1, len := p.2 }])
      let pat := leBytes 4 (fld e.vb 31 0)
      goOn gb e 0 (ps.mapIdx (fun k p => paced gb plan k
        (spadPut gb env p.1 ((List.range (p.2 / 4)).flatMap (fun _ => pat)))))))

/-- COPY (R256, R306): each source row is read before any later destination row is written, and each slot takes its tag with its last
access (R252). -/
def execCopy (gb : Nat) (env : EngEnv) (s : State) : Host.Outcome State Fault Refusal :=
  okIf (gb < 2560) (s.runUnit gb 18 (fun e => opc e.word == 0x21) (fun e => do
    frontChecks gb env e 0x0501
    let src := e.copySrc
    let dst := e.copyDst
    Act.check (src.past || dst.past) 0x0501
    Act.check (tagSelf [src, dst]) 0x0503
    if e.empty then emptySpad gb [src, dst]
    else
      let up := rowPieces src.lo src.len
      let ps := if dst.lo < src.lo then up else up.reverse
      let moved := fun (a : Nat) => a - src.lo + dst.lo
      let plan := ps.map (fun p => [{ src with lo := p.1, len := p.2 }, { dst with lo := moved p.1, len := p.2 }])
      goOn gb e 0 (ps.mapIdx (fun k p => paced gb plan k (do
        let bs ← spadRead gb env p.1 p.2
        spadPut gb env (moved p.1) bs)))))

/-- The first slot of a TAGSET, a 64-bit sum (R307). -/
def Entry.tagFirst (e : Entry) : Nat := (fld e.word 50 42 + e.va.toNat) % 2 ^ 64

/-- TAGSET (R256, R307): the tags of its slots at once, without waiting. -/
def execTagset (gb : Nat) (s : State) : Host.Outcome State Fault Refusal :=
  okIf (gb < 2560) (s.runUnit gb 18 (fun e => opc e.word == 0x22) (fun e => do
    Act.check (decide (383 < e.tagFirst + fld e.word 41 33)) 0x0501
    modify (fun s => s.setTags gb e.tagFirst (fld e.word 32 32 = 1) (fld e.word 41 33 + 1))))

/-- Whether an agent is the gaffer (0) or the servitor (1). -/
def isService (agent : Nat) : Bool := decide (agent ≤ 1)

/-- SPAD_TAG_CTRL_GO (R260): a write of SPAD_TAG_CTRL with GO set: its other fields take the values written, and the tags of
the slots change where the sequencer is halted; the range stops at slot 383. Only the servitor and the gaffer reach it. -/
def execSpadTagCtrlGo (gb agent : Nat) (value : Bool) (count firstSlot : Nat) (s : State) : Host.Outcome State Fault Refusal :=
  okIf (gb < 2560)
    (if isService agent then
      let s := ((s.flag Reg.SPAD_TAG_CTRL_VALUE gb value).wr Reg.SPAD_TAG_CTRL_COUNT gb count).wr
        Reg.SPAD_TAG_CTRL_FIRST_SLOT gb firstSlot
      if s.halted gb then s.setTags gb (firstSlot % 512) value (min (count % 512 + 1) (384 - firstSlot % 512)) else s
    else s)

/-- SPAD_CORRECTED_WRITEBACK (R258): the bank stores the corrected granule again; its bytes do not change. -/
def execSpadCorrectedWriteback (gb granule : Nat) (s : State) : Host.Outcome State Fault Refusal :=
  okIf (gb < 2560 && granule < 12288)
    { s with writeback := s.writeback.put false (spadBase gb / 32 + granule) false }

/-- TAG_WAIT_RELEASE (R251): a unit that waits on a slot's tag waits no longer once the tag allows its access. -/
def execTagWaitRelease (gb unit : Nat) (s : State) : Host.Outcome State Fault Refusal :=
  okIf (gb < 2560 && unit < 22)
    (match s.waits.get none (32 * gb + unit) with
    | some (1, k) => if s.tag gb k then s.setWait gb unit none else s
    | some (2, k) => if s.tag gb k then s else s.setWait gb unit none
    | _ => s)

/-! ### Accesses from outside -/

/-- A read from outside the bench: granules are checked in order, and a poisoned granule, or one that the read itself poisons,
refuses the read with a report (R257, R258). The tag action follows the read. -/
def State.remoteRead (s : State) (gb : Nat) (ecc : List (Nat × Ecc)) (off len act : Nat) : State × Option (List Byte) :=
  let go := fun (acc : State × Bool) (g : Nat) =>
    if acc.2 then acc
    else if acc.1.poisoned gb g then (acc.1.benchReport gb 31 0x0505 g, true)
    else
      let r := acc.1.eccRead gb ecc g
      if r.2 then (r.1.benchReport gb 31 0x0504 g, true) else (r.1, false)
  let r := (granules off len).foldl go (s, false)
  if r.2 then (r.1, none)
  else
    let t := (r.1.bump Reg.SPAD_REMOTE_RD_COUNT gb (rowPieces off len).length).regionTags gb ⟨off, len, false, act⟩
    (t, some (t.bytes (spadBase gb + off) len))

/-- A write from outside the bench, with its tag action (R257, R258). -/
def State.remoteWrite (s : State) (gb : Nat) (ecc : List (Nat × Ecc)) (off : Nat) (bs : List Byte) (act : Nat) : State :=
  ((s.spadWrite gb ecc off bs).bump Reg.SPAD_REMOTE_WR_COUNT gb (rowPieces off bs.length).length).regionTags gb
    ⟨off, bs.length, true, act⟩

/-- A write to instruction memory takes effect in IDLE, HALTED or END, and is refused otherwise (R263). -/
def State.imemWrite (s : State) (gb off : Nat) (bs : List Byte) : State :=
  if s.stopped gb then s.storeBytes (imemBase gb + off) bs else s.flag Reg.SEQ_STATUS_CMD_REJECT gb true

/-- The transfer numbered `id`. -/
def State.xfer (s : State) (id : Nat) : Option Xfer := s.xfers.find? (fun x => x.id == id)

/-- The state with a transfer changed. -/
def State.modXfer (s : State) (id : Nat) (f : Xfer → Xfer) : State :=
  { s with xfers := s.xfers.map (fun x => if x.id = id then f x else x) }

/-- The answer to a transfer set under way. -/
def State.respond (s : State) (id : Nat) (r : XResp) : State := s.modXfer id (fun x => { x with resp := some r })

/-- The wait of a remote access of a transfer at scratchpad offset `off` of a bench, where there is one. -/
def State.remoteBlocks (s : State) (gb off : Nat) (x : Xfer) : Bool :=
  (s.regionWait gb ⟨off, x.len, x.kind != XKind.get, x.rtag⟩).isSome

/-- A transfer's remote access is served (R257). -/
def State.serve (s : State) (gb : Nat) (ecc : List (Nat × Ecc)) (x : Xfer) : State :=
  match placeOf x.ext with
  | .spad _ off =>
    if x.kind = .get then
      match s.remoteRead gb ecc off x.len x.rtag with
      | (t, some bs) => t.respond x.id (.data bs)
      | (t, none) => t.respond x.id .poison
    else (s.remoteWrite gb ecc off x.data x.rtag).respond x.id .ack
  | .imem _ off =>
    if x.kind = .get then s.respond x.id (.data (s.bytes (imemBase gb + off) x.len))
    else (s.imemWrite gb off x.data).respond x.id .ack
  | _ => s

/-- A bench refuses an access of another bench: one of another partition, one while its partition loads, and any while it has no
partition (R257, R373, R384). -/
def State.refuses (s : State) (from_ gb : Nat) : Bool :=
  s.partOf from_ != s.partOf gb || s.partOf gb == 255 || s.rd Reg.PART_STATUS_STATE 0 (s.partOf gb) == 1

/-- A request stands at the head of the bench's die-network port and waits there, eight others holding the entries: every later request
waits behind it (R257). -/
def State.portBlocked (s : State) (gb : Nat) : Bool := decide (8 < (s.remoteWait.get [] gb).length)

/-- A request takes an entry of the bench, or waits at its port (R257). -/
def State.holdRemote (s : State) (gb id : Nat) : State :=
  { s with remoteWait := s.remoteWait.put [] gb (s.remoteWait.get [] gb ++ [id]) }

/-- A remote access of transfer `id` arrives at its target bench: refused from another partition; served where its tag allows; held
otherwise. Behind a request that waits at the port's head it waits, whatever it is (R34, R257). -/
def State.remoteArrive (s : State) (gb id : Nat) (get : Bool) (ecc : List (Nat × Ecc)) : State :=
  match s.xfer id with
  | none => s
  | some x =>
    let q := s.remoteWait.get [] gb
    let here := match placeOf x.ext with
      | .spad t _ => t == gb
      | .imem t _ => t == gb
      | _ => false
    if x.tgt ≠ 0 ∨ here = false ∨ x.phase ≠ .requested ∨ x.resp.isSome = true ∨ (x.kind == XKind.get) ≠ get ∨
      s.clockStopped gb = true ∨ q.contains id = true then s
    else if s.portBlocked gb then s.holdRemote gb id
    else if s.refuses x.gb gb then (s.benchReport gb 31 0x0510 x.ext).respond id .denied
    else
      let blocked := match placeOf x.ext with
        | .spad _ off => s.remoteBlocks gb off x
        | _ => false
      if blocked then s.holdRemote gb id else s.serve gb ecc x

/-- REMOTE_READ (R257). -/
def execRemoteRead (gb id : Nat) (ecc : List (Nat × Ecc)) (s : State) : Host.Outcome State Fault Refusal :=
  okIf (gb < 2560) (s.remoteArrive gb id true ecc)

/-- REMOTE_WRITE (R257). -/
def execRemoteWrite (gb id : Nat) (ecc : List (Nat × Ecc)) (s : State) : Host.Outcome State Fault Refusal :=
  okIf (gb < 2560) (s.remoteArrive gb id false ecc)

/-- A request that was held is served, or refused where the target's partition has changed meanwhile (R257, R259). Eight requests hold
entries; the ninth stands at the head of the port, and every later one behind it. A broadcast's proceeds with BROADCAST_WRITE (R367). -/
def State.remoteProceed (s : State) (gb : Nat) (ecc : List (Nat × Ecc)) : State :=
  let q := s.remoteWait.get [] gb
  let ready := fun id => match s.xfer id with
    | none => true
    | some x => match placeOf x.ext with
      | .spad _ off => s.refuses x.gb gb || !s.remoteBlocks gb off x
      | .bcast _ _ => false
      | _ => true
  match (q.take 9).find? ready with
  | none => s
  | some id =>
    let s := { s with remoteWait := s.remoteWait.put [] gb (q.filter (fun k => k != id)) }
    match s.xfer id with
    | none => s
    | some x =>
      if s.refuses x.gb gb then (s.benchReport gb 31 0x0510 x.ext).respond id .denied else s.serve gb ecc x

/-- REMOTE_WAIT_PROCEED (R257): the oldest of the held requests, or else the one at the port's head, whose tag allows proceeds. -/
def execRemoteWaitProceed (gb : Nat) (ecc : List (Nat × Ecc)) (s : State) : Host.Outcome State Fault Refusal :=
  okIf (gb < 2560) (if s.clockStopped gb then s else s.remoteProceed gb ecc)

end Sys2Proof.Machine
end

