-- ==== Sys2Proof/Machine/Canes.lean ====
section
/-! DEFINITION. The canes: flits, replay and credits (R414 to R425), width, training and retraining (R426 to R432). -/

namespace Sys2Proof.Machine

open Sys2Proof

/-! ### Registers of a cane -/

/-- A CANE field of cane c. -/
def State.crd (s : State) (f : Field) (c : Nat) : Nat := s.rd f (c / 9) (c % 9)
def State.cwr (s : State) (f : Field) (c v : Nat) : State := s.wr f (c / 9) v (c % 9)

/-- A CANE report, with the partner's identity (R434, R524). -/
def State.caneReport (s : State) (c code : Nat) : State :=
  (s.cwr Reg.CANE_STATUS_LAST_FAULT c code).devReport (0x1100 + c) code (s.crd Reg.CANE_PARTNER_DEVICE c)

/-- A lasting event of a cane (R419, R423, R433). -/
def State.caneLasting (s : State) (c code : Nat) : State :=
  ((s.cwr Reg.CANE_STATUS_LASTING c 1).bump Reg.CANE_ERR_CNT_LASTING (c / 9) 1 (c % 9)).caneReport c code

/-- The cane's state set. -/
def State.setCaneState (s : State) (c v : Nat) : State := s.cwr Reg.CANE_STATUS_STATE c v

/-- The lanes of a mask. -/
def laneCount (m : Nat) : Nat := ((List.range 8).filter (fun k => m.testBit k)).length

/-- The fewest lanes for service (R433). -/
def State.minLanes (s : State) (c : Nat) : Nat := min 8 (max 1 (s.crd Reg.CANE_CFG_MIN_LANES c))

/-- GOOD, ACTIVE and WIDTH after T3 (R427). -/
def State.setLanes (s : State) (c m : Nat) : State :=
  ((s.cwr Reg.CANE_LANES_GOOD c m).cwr Reg.CANE_LANES_ACTIVE c m).cwr Reg.CANE_STATUS_WIDTH c (laneCount m)

/-! ### Ends of service -/

/-- The replay buffer and what waits for a flit are discarded, the flits counted (R430, R431). -/
def State.loseBuffer (s : State) (c : Nat) : State :=
  let x := s.cane c
  (s.setCane c { x with buffer := [], egress := [], judged := none }).bump Reg.CANE_REPLAY_CNT_LOST (c / 9) x.buffer.length (c % 9)

/-- The cane goes DOWN, with a report (R429, R430), which counts where no cane of its direction is UP any more (R447, R534). -/
def State.caneDown (s : State) (c : Nat) : State :=
  let t := ((s.loseBuffer c).setCaneState c 5).cwr Reg.CANE_STATUS_LAST_FAULT c 0x0B03
  t.devReport (0x1100 + c) 0x0B03 (t.crd Reg.CANE_PARTNER_DEVICE c) 0 ((upFrom (c / 6 * 6) 6).all (fun k => t.caneState k != 3))

/-- A retrain episode starts from UP or UP_MGMT (R430). -/
def State.startEpisode (s : State) (c : Nat) (fullFirst : Bool) : State :=
  if s.caneState c = 3 ∨ s.caneState c = 2 then
    ((s.setCane c { s.cane c with former := s.caneState c, fullFirst := fullFirst }).setCaneState c 4).cwr Reg.CANE_STATUS_FAILS c 0
  else s

/-- The partner has left: PARKED (R431). -/
def State.partnerLeft (s : State) (c : Nat) : State :=
  if [2, 3, 4].contains (s.caneState c) then ((s.loseBuffer c).setCaneState c 7).caneReport c 0x0B06 else s

/-! ### Replay and credits -/

/-- The stored flits sent again with current ACK, NAK and counts (R419). -/
def State.caneResend (s : State) (c : Nat) : State :=
  let x := s.cane c
  x.buffer.foldl (fun t f => t.caneEmit c f) (s.bump Reg.CANE_REPLAY_CNT_FLITS (c / 9) x.buffer.length (c % 9))

/-- A NAK or a timeout: a replay from ACK + 1, or, where one already names the same ACK, a lasting event (R419). -/
def State.caneReplay (s : State) (c : Nat) : State :=
  let x := s.cane c
  if x.buffer.isEmpty then s
  else if x.judged = some x.ack then
    ((s.setCane c { x with judged := none }).caneLasting c 0x0B01).startEpisode c false
  else (s.setCane c { x with judged := some x.ack }).caneResend c

/-- An ACK received: the flits that it covers leave the replay buffer; a replay's first flit among them makes its event transient
(R417, R419). -/
def State.caneAck (s : State) (c ack : Nat) : State :=
  let x := s.cane c
  let left := x.buffer.filter (fun f => decide (2048 ≤ (ack + 4096 - f.sq) % 4096))
  if left.length = x.buffer.length then s
  else
    let t := s.setCane c { x with buffer := left, ack := ack, judged := none }
    if x.judged.isSome then t.bump Reg.CANE_ERR_CNT_TRANSIENT (c / 9) 1 (c % 9) else t

/-- The buffers that the sender may fill when none is in use (R422). -/
def fullCredit : List Nat := [8, 16, 16, 16, 16, 16, 16, 16, 16, 888]

/-- A count received: the credit regained, or CANE_CREDIT_ERR where it implies more than was spent (R423). -/
def State.caneCredit (s : State) (c ch cnt : Nat) : State :=
  let x := s.cane c
  let n := (cnt + 4096 - x.seen.getD ch 0) % 4096
  if 10 ≤ ch then s
  else if fullCredit.getD ch 0 < x.credit.getD ch 0 + n then
    ((s.setCane c { x with afresh := true }).caneLasting c 0x0B08).startEpisode c false
  else s.setCane c { x with credit := x.credit.set ch (x.credit.getD ch 0 + n), seen := x.seen.set ch cnt }

/-- A flit whose contents may be used (R414). -/
def flitOk (f : CaneFlit) (good : Bool) (uncorr : Nat) : Bool :=
  good && uncorr == 0 && decide (f.typ ≤ 4) && decide (f.ch ≤ 8) && decide (f.used ≤ 242) && !f.reserved

/-- NAK set, and sent unless it has been since the last acceptance (R418). -/
def State.caneNak (s : State) (c : Nat) : State :=
  let x := s.cane c
  if x.nak then s else (s.setCane c { x with nak := true }).caneEmit c { sq := x.nextSeq, typ := 1 }

/-- The payload of an accepted flit goes onward, and its buffer is free (DEDUCED, assumption log 48); a VC0 flit for this device goes to the
management inbox, or is dropped where that is full (R422, R425). -/
def State.caneTake (s : State) (c : Nat) (f : CaneFlit) : State :=
  let x := s.cane c
  let k := if f.pool then 9 else f.ch
  let s := s.setCane c { x with freed := x.freed.set k ((x.freed.getD k 0 + 1) % 4096) }
  if f.ch = 0 ∧ ofBytes ((f.payload.drop 2).take 2) % 512 = s.devId then
    if s.inbox < 256 then ({ s with inbox := s.inbox + 1 } : State).emit (.taken c f.ch f.payload)
    else s.bump Reg.CANE_VC0_CNT_DROPPED (c / 9) 1 (c % 9)
  else s.emit (.taken c f.ch f.payload)

/-- The receiver's test of a data flit (R418); a failed one counts as d = 1. -/
def State.caneTest (s : State) (c : Nat) (f : CaneFlit) (ok : Bool) : State :=
  let x := s.cane c
  let d := if ok then (f.sq + 4096 - x.expected) % 4096 else 1
  if d = 0 then
    ((s.setCane c { x with expected := (x.expected + 1) % 4096, nak := false }).bumpKib Reg.CANE_RX_KIB_COUNT (c / 9) f.used
      (c % 9)).caneTake c f
  else if d < 2048 then s.caneNak c
  else s

/-- The cane enters UP at the first train flit after both ends show LOC_VALID (R428). -/
def State.caneTrainFlit (s : State) (c : Nat) (p : Partner) : State :=
  let s := s.cwr Reg.CANE_PARTNER_LOC_VALID c (if p.located then 1 else 0)
  if s.caneState c = 2 ∧ p.located = true ∧ s.on Reg.DEV_LOCATION_VALID 0 = true then s.setCaneState c 3 else s

/-- CANE_FLIT_RECEIVE (R414 to R425): `good` says whether its CRC is, `uncorr` counts the uncorrectable codewords it has bits in,
`train` is what a train flit carries. -/
def execCaneFlitReceive (cane : Nat) (f : CaneFlit) (good : Bool) (uncorr : Nat) (train : Partner) (s : State) :
    Host.Outcome State Fault Refusal :=
  okIf (cane < 36)
    (if s.caneState cane ≠ 2 ∧ s.caneState cane ≠ 3 then s
    else
      let s := s.bump Reg.CANE_FEC_CNT_UNCORR (cane / 9) uncorr (cane % 9)
      if flitOk f good uncorr = false then
        if 1 ≤ f.typ ∧ f.typ ≤ 4 then s else s.caneTest cane f false
      else
        let s := ((s.caneAck cane f.ack).caneCredit cane f.chA f.cntA).caneCredit cane f.chB f.cntB
        if s.caneState cane = 4 then s
        else
          let s := match f.typ with
            | 0 => s.caneTest cane f true
            | 2 => s.startEpisode cane false
            | 3 => s.partnerLeft cane
            | 4 => s.caneTrainFlit cane train
            | _ => s
          let s := if f.nak && (s.caneState cane == 2 || s.caneState cane == 3) then s.caneReplay cane else s
          s.caneDrain cane 1024)

/-- CANE_REPLAY_TIMEOUT (R419): 4 µs without ACK advancing while flits are outstanding. -/
def execCaneReplayTimeout (cane : Nat) (s : State) : Host.Outcome State Fault Refusal :=
  okIf (cane < 36) (if s.caneState cane = 2 ∨ s.caneState cane = 3 then s.caneReplay cane else s)

/-! ### Training -/

/-- The cane of the neighbour that cane c must be cabled to (R411). -/
def matchingCane (c : Nat) : Nat := if c / 6 % 2 = 0 then c + 6 else c - 6

/-- T5: sequence and credits at their beginning (R427). -/
def State.freshCane (s : State) (c : Nat) : State := s.setCane c { former := (s.cane c).former }

/-- Both locations valid: UP, otherwise UP_MGMT (R428). -/
def State.caneUp (s : State) (c : Nat) (p : Partner) : State :=
  s.setCaneState c (if p.located ∧ s.on Reg.DEV_LOCATION_VALID 0 = true then 3 else 2)

/-- T4: the partner recorded and checked, and its change reported (R427, R428, R431). The second component is false where the cane
is miswired, the third where the partner is another than the last. -/
def State.caneT4 (s : State) (c : Nat) (p : Partner) : State × Bool × Bool :=
  let same := s.crd Reg.CANE_PARTNER_VALID c == 0 || s.crd Reg.CANE_PARTNER_DEVICE c == p.device % 512
  let s := (((s.cwr Reg.CANE_PARTNER_VALID c 1).cwr Reg.CANE_PARTNER_LOC_VALID c (if p.located then 1 else 0)).cwr
    Reg.CANE_PARTNER_CANE c p.cane).cwr Reg.CANE_PARTNER_DEVICE c p.device
  let expected := s.crd Reg.CANE_EXPECT_VALID c == 0 ||
    (s.crd Reg.CANE_EXPECT_DEVICE c == p.device % 512 && p.cane == matchingCane c)
  (if same then s else s.caneReport c 0x0B07, expected, same)

/-- A failed attempt, reported unless the training is an automatic one (R427, R430, R431). -/
def State.tryFails (s : State) (c : Nat) : State :=
  let s := s.cwr Reg.CANE_STATUS_FAILS c (min 3 (s.crd Reg.CANE_STATUS_FAILS c + 1))
  if (s.cane c).quiet then s else s.caneReport c 0x0B02

/-- Full training (R427, R428): up to three attempts from TRAINING. -/
def State.fullTrain (s : State) (c : Nat) : List TrainTry → State
  | [] => s
  | t :: rest =>
    if s.crd Reg.CANE_STATUS_FAILS c = 3 then s
    else if !t.ok then
      let s := s.tryFails c
      if s.crd Reg.CANE_STATUS_FAILS c = 3 then (s.loseBuffer c).setCaneState c 5 else s.fullTrain c rest
    else
      let s := (s.setLanes c t.good).cwr Reg.CANE_STATUS_PREC c (if t.prec then 1 else 0)
      if laneCount t.good < s.minLanes c then
        if (s.cane c).quiet then (s.loseBuffer c).setCaneState c 5 else s.caneDown c
      else
        let r := s.caneT4 c t.partner
        if r.2.1 then (r.1.freshCane c).caneUp c t.partner
        else (r.1.setCaneState c 6).caneReport c 0x0B04

/-- CANE_TRAINING (R427): the attempts of a cane that is TRAINING. -/
def execCaneTraining (cane : Nat) (tries : List TrainTry) (s : State) : Host.Outcome State Fault Refusal :=
  okIf (cane < 36) (if s.caneState cane = 1 then s.fullTrain cane tries else s)

/-- Service goes on after an episode: the credits set afresh where they were at fault, and a replay from the partner's ACK + 1
(R423, R430). -/
def State.resumeCane (s : State) (c : Nat) (t : TrainTry) : State :=
  let x := s.cane c
  let x := if x.afresh then { x with credit := t.free, seen := List.replicate 10 0, freed := List.replicate 10 0, afresh := false }
    else x
  let left := x.buffer.filter (fun f => decide (2048 ≤ (t.ack + 4096 - f.sq) % 4096))
  let s := s.setCane c { x with buffer := left, ack := t.ack, judged := none, nak := false }
  ((s.setCaneState c x.former).caneResend c).caneDrain c 1024

/-- The full attempts of an episode (R430, steps 2 to 4). -/
def State.episodeFull (s : State) (c : Nat) (left : Nat) : List TrainTry → State
  | [] => s
  | t :: rest =>
    if left = 0 then s
    else if !t.ok then
      let s := s.tryFails c
      if left = 1 then s.caneDown c else s.episodeFull c (left - 1) rest
    else
      let s := (s.setLanes c t.good).cwr Reg.CANE_STATUS_PREC c (if t.prec then 1 else 0)
      if laneCount t.good < s.minLanes c then s.caneDown c
      else
        let r := s.caneT4 c t.partner
        if r.2.1 = false then ((r.1.loseBuffer c).setCaneState c 6).caneReport c 0x0B04
        else if r.2.2 then r.1.resumeCane c t
        else (r.1.freshCane c).caneUp c t.partner

/-- A lane dropped as bad (R429). -/
def State.dropLane (s : State) (c lane : Nat) : State :=
  let m := s.crd Reg.CANE_LANES_GOOD c
  if m.testBit lane then (s.cwr Reg.CANE_LANES_GOOD c (m - 2 ^ lane)).caneReport c 0x0B05 else s

/-- RETRAIN_EPISODE (R430): a fast retrain, without lanes dropped before and reporting those that it finds bad (R429, R432), and then up to three full attempts. -/
def execRetrainEpisode (cane : Nat) (fast : TrainTry) (tries : List TrainTry) (s : State) : Host.Outcome State Fault Refusal :=
  okIf (cane < 36)
    (if s.caneState cane ≠ 4 then s
    else
      let s := s.setCane cane { s.cane cane with quiet := false }
      if (s.cane cane).fullFirst then s.episodeFull cane 3 tries
      else if !fast.ok then (s.tryFails cane).episodeFull cane 3 tries
      else
        let old := s.crd Reg.CANE_LANES_GOOD cane
        let m := fast.good &&& old
        let s := (upFrom 0 8).foldl (fun t k => if old.testBit k && !m.testBit k then t.dropLane cane k else t) s
        let s := s.setLanes cane m
        if laneCount m < s.minLanes cane then s.caneDown cane else s.resumeCane cane fast)

/-- LOSS_OF_SIGNAL (R430): loss of signal or of codeword lock for 1 µs. -/
def execLossOfSignal (cane : Nat) (s : State) : Host.Outcome State Fault Refusal :=
  okIf (cane < 36) (s.startEpisode cane false)

/-- LANE_ERROR_WINDOW (R429): the corrected symbols of each lane in a window of 2^30 symbols, and the 2^10-flit intervals in it in
which the replay buffer was full (R417). -/
def execLaneErrorWindow (cane : Nat) (symbols : List Nat) (full : Nat) (s : State) : Host.Outcome State Fault Refusal :=
  okIf (cane < 36)
    (let s := (List.range 8).foldl (fun t k =>
      t.bump Reg.CANE_LANE_ERR_SYMBOLS (cane / 9) (symbols.getD k 0) (8 * (cane % 9) + k)) s
    let s := s.bump Reg.CANE_REPLAY_CNT_FULL (cane / 9) full (cane % 9)
    let th := 2 ^ s.crd Reg.CANE_CFG_LANE_TH cane
    let hot := (List.range 8).filter (fun k => decide (th < symbols.getD k 0))
    let bad := hot.filter (fun k => (s.cane cane).hot.contains k)
    let s := s.setCane cane { s.cane cane with hot := hot }
    if bad.isEmpty ∨ (s.caneState cane ≠ 3 ∧ s.caneState cane ≠ 2) then s
    else
      let s := bad.foldl (fun t k => t.dropLane cane k) s
      if laneCount (s.crd Reg.CANE_LANES_GOOD cane) < s.minLanes cane then s.caneDown cane
      else s.startEpisode cane false)

/-- LEAVE_FLIT (R431, R432): a good leave flit, in service or during a retrain episode. -/
def execLeaveFlit (cane : Nat) (good : Bool) (s : State) : Host.Outcome State Fault Refusal :=
  okIf (cane < 36) (if good then s.partnerLeft cane else s)

/-! ### Requests for training -/

/-- A cable is present on the connector of a cane (R573): connector k carries the canes of port die k. -/
def State.cabled (s : State) (c : Nat) : Bool := (s.rd Reg.MOD_STATUS_CBL_PRSNT 0).testBit (c / 9)

/-- Full training begins (R427, R433, R573). -/
def State.startTrain (s : State) (c : Nat) (quiet : Bool) : State :=
  if s.caneState c = 1 ∨ s.cabled c = false then s
  else ((s.setCane c { s.cane c with quiet := quiet }).setCaneState c 1).cwr Reg.CANE_STATUS_FAILS c 0

/-- AUTO_RETRY (R431, R573). -/
def execAutoRetry (cane : Nat) (s : State) : Host.Outcome State Fault Refusal :=
  okIf (cane < 36)
    (if (s.caneState cane = 5 ∨ s.caneState cane = 7) ∧ s.crd Reg.CANE_CFG_AUTO_RETRY cane ≠ 0 then s.startTrain cane true else s)

/-- A write of CANE_CTRL on port die k by the servitor or the gaffer acts on the cane that CANE_SEL shows (R433). -/
def State.caneCtrl (s : State) (k agent : Nat) (f : State → Nat → State) : State :=
  let j := s.rd Reg.CANE_SEL_CANE k
  if isService agent && decide (j < 9) then f s (9 * k + j) else s

/-- TRAIN (R433): from any state but TRAINING. -/
def execTrain (k agent : Nat) (s : State) : Host.Outcome State Fault Refusal :=
  okIf (k < 4) (s.caneCtrl k agent (fun s c => s.startTrain c false))

/-- The cane sends leave and becomes PARKED (R431). -/
def State.parkCane (s : State) (c : Nat) : State :=
  let t := if s.caneState c = 2 ∨ s.caneState c = 3 then s.emit (.leave c) else s
  (t.loseBuffer c).setCaneState c 7

/-- PARK (R431, R433). -/
def execPark (k agent : Nat) (s : State) : Host.Outcome State Fault Refusal :=
  okIf (k < 4) (s.caneCtrl k agent State.parkCane)

/-- RETRAIN_FULL (R433): an episode that starts at step 2. -/
def execRetrainFull (k agent : Nat) (s : State) : Host.Outcome State Fault Refusal :=
  okIf (k < 4) (s.caneCtrl k agent (fun s c => s.startEpisode c true))

/-- RETRAIN_FAST (R433). -/
def execRetrainFast (k agent : Nat) (s : State) : Host.Outcome State Fault Refusal :=
  okIf (k < 4) (s.caneCtrl k agent (fun s c => s.startEpisode c false))

/-- CABLE_PRESENCE_CHANGE (R573): the pin of a connector goes high, and its canes are DOWN; or low, and they train. Before step S8
has brought the canes up, the pin alone changes. -/
def execCablePresenceChange (conn : Nat) (high : Bool) (s : State) : Host.Outcome State Fault Refusal :=
  okIf (conn < 4)
    (let m := s.rd Reg.MOD_STATUS_CBL_PRSNT 0
    let cs := upFrom (9 * conn) 9
    if high then
      let t := s.wr Reg.MOD_STATUS_CBL_PRSNT 0 (m - (if m.testBit conn then 2 ^ conn else 0))
      cs.foldl (fun t c => if t.caneState c = 0 then t else (t.loseBuffer c).setCaneState c 5) t
    else
      let t := s.wr Reg.MOD_STATUS_CBL_PRSNT 0 (m ||| 2 ^ conn)
      cs.foldl (fun t c => if t.caneState c = 0 then t else t.startTrain c false) t)

end Sys2Proof.Machine
end

