-- ==== Sys2Proof/Machine/Float.lean ====
section
/-! DEFINITION. FP32 and BF16 as the jack computes them (R231, R235, R236): exact values, rounding to nearest even, subnormals
flushed to zero of the same sign, one NaN pattern. A BF16 value is an FP32 pattern whose low 16 bits are zero. -/

namespace Sys2Proof

/-- A floating-point value: not a number, an infinity, or (-1)^neg × m × 2^e, zero for m = 0. -/
inductive FVal where
  | nan
  | inf (neg : Bool)
  | fin (neg : Bool) (m : Nat) (e : Int)
  deriving DecidableEq, Repr

/-- The value of an FP32 pattern; a subnormal counts as zero of its sign (R231). -/
def fval (w : Word) : FVal :=
  let n := w.toNat
  let neg := bit n 31
  let ex := bits n 30 23
  let fr := bits n 22 0
  if ex = 255 then (if fr = 0 then .inf neg else .nan)
  else if ex = 0 then .fin neg 0 0
  else .fin neg (2 ^ 23 + fr) ((ex : Int) - 150)

/-- Some value below 2^-126 in magnitude is a zero; one too large is an infinity. `p` is the precision: 24 or 8 bits (R231). A
value is rounded to p bits with no bound on the exponent, and then flushed (DEDUCED, assumption log 31). -/
def fround (p : Nat) : FVal → Word
  | .nan => 0x7FC00000
  | .inf neg => BitVec.ofNat 32 ((if neg then 2 ^ 31 else 0) + 0x7F800000)
  | .fin neg m e =>
    let sg : Nat := if neg then 2 ^ 31 else 0
    let cut := bitlen m - p
    let q := (rne m cut).toNat
    let ex : Int := e + cut + (bitlen q : Int) - 1
    if q = 0 ∨ ex < -126 then BitVec.ofNat 32 sg
    else if 127 < ex then BitVec.ofNat 32 (sg + 0x7F800000)
    else BitVec.ofNat 32 (sg + (ex + 127).toNat * 2 ^ 23 + (q * 2 ^ 24 / 2 ^ bitlen q - 2 ^ 23))

/-- The exact sum of two values; the sum of opposite zeros, or of opposite equal values, is +0. -/
def fadd : FVal → FVal → FVal
  | .nan, _ => .nan
  | _, .nan => .nan
  | .inf a, .inf b => if a = b then .inf a else .nan
  | .inf a, _ => .inf a
  | _, .inf b => .inf b
  | .fin na ma ea, .fin nb mb eb =>
    let e := min ea eb
    let x : Int := (if na then -1 else 1) * (ma * 2 ^ (ea - e).toNat : Nat)
    let y : Int := (if nb then -1 else 1) * (mb * 2 ^ (eb - e).toNat : Nat)
    if ma = 0 ∧ mb = 0 then .fin (na && nb) 0 0
    else if ma = 0 then .fin nb mb eb
    else if mb = 0 then .fin na ma ea
    else .fin (decide (x + y < 0)) (x + y).natAbs e

/-- The exact product. -/
def fmul : FVal → FVal → FVal
  | .nan, _ => .nan
  | _, .nan => .nan
  | .inf a, .inf b => .inf (a != b)
  | .inf a, .fin nb mb _ => if mb = 0 then .nan else .inf (a != nb)
  | .fin na ma _, .inf b => if ma = 0 then .nan else .inf (na != b)
  | .fin na ma ea, .fin nb mb eb => .fin (na != nb) (ma * mb) (ea + eb)

/-- Whether a is below b, both numbers. -/
def flt : FVal → FVal → Bool
  | .nan, _ => false
  | _, .nan => false
  | .inf a, .inf b => a && !b
  | .inf a, _ => a
  | _, .inf b => !b
  | .fin na ma ea, .fin nb mb eb =>
    let e := min ea eb
    let x : Int := (if na then -1 else 1) * (ma * 2 ^ (ea - e).toNat : Nat)
    let y : Int := (if nb then -1 else 1) * (mb * 2 ^ (eb - e).toNat : Nat)
    decide (x < y)

/-- FP32 addition and multiplication (R231). -/
def add32 (a b : Word) : Word := fround 24 (fadd (fval a) (fval b))
def mul32 (a b : Word) : Word := fround 24 (fmul (fval a) (fval b))

/-- The value is zero. -/
def FVal.isZero : FVal → Bool
  | .fin _ m _ => m == 0
  | _ => false

/-- The maximum: NaN where an operand is one; the result for zeros of opposite signs is one of them that the spec leaves open
(DESIGN CHOICE, assumption log 32). -/
def max32 (a b : Word) : Word :=
  match fval a, fval b with
  | .nan, _ => 0x7FC00000
  | _, .nan => 0x7FC00000
  | x, y =>
    if x.isZero && y.isZero then
      (if bit a.toNat 31 == bit b.toNat 31 then fround 24 x
       else if bit (Config.vecOpen 2 a b).toNat 0 then fround 24 x else fround 24 y)
    else if flt x y then fround 24 y else fround 24 x

/-- The binary quotient 1 ÷ m with a sticky bit below its last place. -/
def recipMant (m : Nat) : Nat := 2 * (2 ^ 80 / m) + (if 2 ^ 80 % m = 0 then 0 else 1)

/-- 1 ÷ a, correctly rounded (R235). -/
def recip32 (a : Word) : Word :=
  match fval a with
  | .nan => 0x7FC00000
  | .inf neg => fround 24 (.fin neg 0 0)
  | .fin neg m e => if m = 0 then fround 24 (.inf neg) else fround 24 (.fin neg (recipMant m) (-81 - e))

/-- The integer square root, digit by digit: r² ≤ n, the next lower bit to try being bit k - 1. -/
def isqrtGo (n : Nat) : Nat → Nat → Nat
  | 0, r => r
  | k + 1, r => isqrtGo n k (if (r + 2 ^ k) * (r + 2 ^ k) ≤ n then r + 2 ^ k else r)

def isqrt (n : Nat) : Nat := isqrtGo n (bitlen n) 0

/-- √a, correctly rounded (R235). -/
def sqrt32 (a : Word) : Word :=
  match fval a with
  | .nan => 0x7FC00000
  | .inf neg => if neg then 0x7FC00000 else fround 24 (.inf false)
  | .fin neg m e =>
    if m = 0 then fround 24 (.fin neg 0 0)
    else if neg then 0x7FC00000
    else
      let odd := e % 2 = 1
      let n := (if odd then 2 * m else m) * 2 ^ 40
      let r := isqrt n
      fround 24 (.fin false (2 * r + (if r * r = n then 0 else 1)) ((if odd then e - 1 else e) / 2 - 21))

/-- ln 2 with 128 fraction bits. -/
def ln2Fix : Nat := 235865763225513294137944142764154484399

/-- The sum of the terms of e^r from t on, in 128 fraction bits. -/
def expTerms (r : Nat) : Nat → Nat → Nat → Nat
  | _, _, 0 => 0
  | k, t, fuel + 1 => t + expTerms r (k + 1) (t * r / 2 ^ 128 / (k + 1)) fuel

/-- e^x for a number x: significand with 128 fraction bits, and the binary exponent. -/
def expFix (neg : Bool) (m : Nat) (e : Int) : Nat × Int :=
  let mag : Nat := if 0 ≤ e + 128 then m * 2 ^ (e + 128).toNat else m / 2 ^ (-(e + 128)).toNat
  let x : Int := if neg then -(mag : Int) else mag
  let k := x.fdiv ln2Fix
  (expTerms (x - k * ln2Fix).toNat 0 (2 ^ 128) 45, k)

/-- e^a: one of the four FP32 values around the exact one, all within 2 units in the last place; which, the spec leaves open and a
fixed function of the input decides (R236, DESIGN CHOICE, assumption log 30). -/
def exp32 (a : Word) : Word :=
  match fval a with
  | .nan => 0x7FC00000
  | .inf neg => if neg then 0 else 0x7F800000
  | .fin neg m e =>
    if m ≠ 0 ∧ 8 ≤ (bitlen m : Int) - 1 + e then (if neg then 0 else 0x7F800000)
    else
      let r := expFix neg m e
      let q := r.1 / 2 ^ 105 + (Config.expChoice a).toNat % 4
      fround 24 (.fin false (q - 1) (r.2 - 23))

/-- FP32 rounded to BF16 (R231, R235). -/
def toBf (w : Word) : Word := fround 8 (fval w)

/-- A 32-bit integer times 2^x, rounded to FP32 (R235). -/
def ofInt32 (n : Int) (x : Int) : Word := fround 24 (.fin (decide (n < 0)) n.natAbs x)

/-- floor(log2 |x|) of a nonzero number. -/
def FVal.log2 : FVal → Option Int
  | .fin _ m e => if m = 0 then none else some ((bitlen m : Int) - 1 + e)
  | _ => none

/-- A number's value times 2^x as an integer, truncated towards zero. -/
def FVal.trunc (x : Int) : FVal → Int
  | .fin neg m e =>
    let q : Nat := if 0 ≤ e + x then m * 2 ^ (e + x).toNat else m / 2 ^ (-(e + x)).toNat
    if neg then -(q : Int) else q
  | _ => 0

/-- A number times 2^x is an integer. -/
def FVal.whole (x : Int) : FVal → Bool
  | .fin _ m e => decide (0 ≤ e + x) || m % 2 ^ (-(e + x)).toNat == 0
  | _ => true

/-- The value is no number. -/
def FVal.nonFinite : FVal → Bool
  | .fin _ _ _ => false
  | _ => true

/-- floor(log2 amax) of a block, none for a block of zeros. -/
def blockLog (vs : List FVal) : Option Int :=
  vs.foldl (fun acc v => match FVal.log2 v, acc with
    | some l, some m => some (max l m)
    | some l, none => some l
    | none, r => r) none

/-- A block of values requantized to a-bit elements (R238): elements, scale byte, whether one was clamped, whether a nonzero bit was
lost below the least scale, and whether the block holds a NaN or infinity. `draw i` is the draw of position i, none under RNE. -/
def quantFloats (sg : Bool) (a : Nat) (draw : Nat → Option Nat) (vs : List FVal) : List Int × Nat × Bool × Bool × Bool :=
  if vs.any FVal.nonFinite then (vs.map (fun _ => 0), 255, false, false, true)
  else match blockLog vs with
    | none => (vs.map (fun _ => 0), 0, false, false, false)
    | some l =>
      let e0 : Int := l - ((a : Int) - (if sg then 2 else 1)) + 127
      let e := (clampTo 0 254 e0).1
      let el := fun (i : Nat) (v : FVal) =>
        let t := FVal.trunc (143 - e) v
        clampTo (fmtLo sg a) (fmtHi sg a) (match draw i with
          | none => rne t 16
          | some u => stochastic t 16 u)
      let rs := vs.mapIdx el
      (rs.map Prod.fst, e.toNat, rs.any Prod.snd, decide (e0 ≠ e) && vs.any (fun v => !FVal.whole (127 - e) v), false)

end Sys2Proof
end

