-- ==== Sys2Proof/Machine/Parison.lean ====
section
/-! DEFINITION. The parison array: comparisons (R154 to R163), calibration (R164 to R169) and sketch loads (R170). What silicon
adds to an ideal comparator comes with the command: `noise` lists, for each sample in order, the pairs whose decision differs from
S ≥ θ (R155, R159). It lists six samples for each comparison that the command completes, one comparison after another. -/

namespace Sys2Proof.Machine

open Sys2Proof

/-- What a parison holds beside its sketch and registers, and the state with it replaced. -/
def State.parx (s : State) (gb : Nat) : ParX := s.pars.get {} gb
def State.setParx (s : State) (gb : Nat) (x : ParX) : State := { s with pars := s.pars.put {} gb x }

/-- A parison descriptor (R172), with IREG and iteration i applied (R273, R296). Addresses are granules. -/
structure ParOp where
  op : Nat
  win : Nat
  theta : Int
  infmt : Nat
  a : Nat
  xt : Nat
  rows : Nat
  target : Nat
  store : Bool
  discard : Bool
  inAddr : Int
  maskOut : Int
  loadFirst : Nat
  loadCount : Nat
  sketchAddr : Nat
  deriving DecidableEq, Repr

def Entry.par (e : Entry) (i : Nat) : ParOp :=
  let w0 := e.dw 0; let w1 := e.dw 1
  { op := fld w0 63 62, win := fld w0 61 60, theta := signed 8 (fld w0 59 52), infmt := fld w0 51 50, a := fld w0 49 47 + 1,
    xt := fld w0 46 39, rows := clip (fld w0 38 32 + 1) e.remK, target := fld w0 31 16, store := fld w0 15 15 = 1,
    discard := fld w0 14 14 = 1, inAddr := advanceAddr (e.inAddr (fld w1 63 50)) (e.stride 0) i,
    maskOut := advanceAddr (fld w1 49 36) (e.stride 1) i, loadFirst := fld w1 35 27, loadCount := fld w1 26 18 + 1,
    sketchAddr := fld w1 17 4 }

/-- The descriptor breaks PAR_DESC (R172, R173). -/
def parDescBad (e : Entry) : Bool :=
  let d := e.par 0
  d.op == 3 || fld (e.dw 0) 13 0 != 0 || fld (e.dw 1) 3 0 != 0 ||
  (d.op == 0 && (decide (2 ≤ d.infmt) || (d.discard && (d.target != 0 || d.store)) ||
    (!d.discard && d.target == 0 && !d.store)))

/-- The bytes of n input elements (R54, R156). -/
def ParOp.inLen (d : ParOp) : Nat :=
  if d.infmt = 0 then ceilDiv (2 * d.rows) 8 else d.rows / 32 * (4 * d.a) + ceilDiv (d.rows % 32 * d.a) 8

/-- The regions of a parison instruction (R298). -/
def ParOp.regions (d : ParOp) (w : DWord) : List Region :=
  if d.op = 0 then
    regionAt d.inAddr 0 d.inLen false (tagIn w) :: (if d.store then [regionAt d.maskOut 0 32 true (tagOut w)] else [])
  else if d.op = 1 then [regionAt d.sketchAddr 0 (64 * d.loadCount) false (tagIn w)]
  else []

/-- The issue checks of R591 for PAR. -/
def parChecks (e : Entry) (d : ParOp) : Act Unit := do
  Act.check (parDescBad e) 0x0201
  Act.check (fld e.word 16 16 == 1 && d.op != 0) SEQ_REPEAT
  Act.check (bkSel e.word != 0 && d.op != 0) SEQ_BOUND_USE
  Act.check ((d.regions e.word).any Region.past || (d.op == 1 && decide (512 < d.loadFirst + d.loadCount))) 0x0202
  Act.check (tagSelf (d.regions e.word)) 0x0503

/-- The input code of element i; none for the packed code 0b11 (R156). -/
def ParOp.code (d : ParOp) (bs : List Byte) (i : Nat) : Option Int :=
  if d.infmt = 0 then
    match (bs.getD (i / 4) 0).toNat / 2 ^ (2 * (i % 4)) % 4 with
    | 0 => some 0
    | 1 => some 1
    | 2 => some (-1)
    | _ => none
  else
    let blk := ofBytes ((bs.drop (i / 32 * (4 * d.a))).take (4 * d.a))
    let x := signed d.a (blk / 2 ^ (d.a * (i % 32)))
    some (if x.natAbs < d.xt then 0 else if 0 < x then 1 else if x < 0 then -1 else 0)

/-- A sketch weight of pair m in a row image (R152). -/
def sketchAt (row : BitVec 528) (m : Nat) : Int := (if row.getLsbD (2 * m) then 1 else 0) - (if row.getLsbD (2 * m + 1) then 1 else 0)

/-- The sketch sum of pair m over a window's driven rows (R153). -/
def State.sketchSum (s : State) (gb win m : Nat) (codes : List Int) : Int :=
  (codes.mapIdx (fun r c => sketchAt (s.sketch.get 0 (512 * gb + 128 * win + r)) m * c)).sum

/-- The majority of three decisions, each the ideal one unless its sample's noise flips it (R154). -/
def majority (ideal : Bool) (m : Nat) (noise : List (BitVec 266)) : Bool :=
  decide (2 ≤ (noise.countP (fun n => (ideal != n.getLsbD m))))

/-- Three samples' noise, the first of six or the second (R160); a sample not listed has none. -/
def sampleNoise (noise : List (BitVec 266)) (retry : Bool) : List (BitVec 266) :=
  (List.range 3).map (fun k => noise.getD (if retry then 3 + k else k) 0)

/-- The reference check fails in some of three samples (R159), and in all of them where a reference pair is bad (R167). -/
def State.refFails (s : State) (gb : Nat) (noise : List (BitVec 266)) : Bool :=
  s.on Reg.PAR_TRIM_BAD gb 264 || s.on Reg.PAR_TRIM_BAD gb 265 || noise.any (fun n => n.getLsbD 264 || n.getLsbD 265)

/-- The pair that produces mask bit m: its redundant pair where the remap table names one (R166). -/
def State.pairOf (s : State) (gb m : Nat) : Nat :=
  match (List.range 8).find? (fun r => s.on Reg.PAR_REMAP_TBL_VALID gb r && s.rd Reg.PAR_REMAP_TBL_PAIR gb r == m) with
  | some r => 256 + r
  | none => m

/-- The bits of a computed mask as a number, from a choice of each (R154). -/
def maskBits (f : Nat → Bool) : BitVec 256 :=
  BitVec.ofNat 256 (((List.range 256).map (fun m => if f m then 2 ^ m else 0)).sum)

/-- Masks are forced live for want of valid trims (R168). -/
def State.notCal (s : State) (gb : Nat) : Bool :=
  !s.on Reg.PAR_STATUS_CAL_VALID gb || (s.on Reg.PAR_STATUS_CAL_STALE gb && !s.on Reg.PAR_CFG_STALE_POLICY gb)

/-- The mask record that three comparisons' samples give and the state after the comparison: settle, reference check and retry,
stale trims, dead pairs (R157 to R160, R167, R168). -/
def State.compareOnce (s : State) (gb : Nat) (d : ParOp) (codes : List Int) (noise : List (BitVec 266)) :
    State × MaskRec × Nat :=
  let x := s.parx gb
  let left := s.rd Reg.PAR_STATUS_SETTLE_LEFT gb
  let begins := left == 2 || (match x.prev with
    | some p => p != (d.theta, d.win)
    | none => false)
  let settle := begins || left == 1
  let s := (s.setParx gb { x with prev := some (d.theta, d.win) }).wr Reg.PAR_STATUS_SETTLE_LEFT gb (if begins then 1 else 0)
  let s := s.bump Reg.PAR_CMP_CNT_COUNT gb
  let s := if settle then s.bump Reg.PAR_SETTLE_CNT_COUNT gb else s
  let first := s.refFails gb (sampleNoise noise false)
  let again := s.refFails gb (sampleNoise noise true)
  let suspect := !settle && first && again
  let s :=
    if settle || !first then s
    else if again then
      ((s.bump Reg.PAR_REF_CNT_LASTING gb).benchReport gb 16 0x0210 0).setParx gb
        { (s.parx gb) with calDue := true }
    else s.bump Reg.PAR_REF_CNT_TRANSIENT gb
  let nc := s.notCal gb
  let s := if nc && !(s.parx gb).notCalSaid then s.benchReport gb 16 0x0214 0 else s
  let s := s.setParx gb { (s.parx gb) with notCalSaid := nc }
  let ns := sampleNoise noise (!settle && first)
  let dead := (s.parx gb).dead
  let forced := settle || suspect || nc
  let live := fun m => dead.contains m ||
    majority (decide (d.theta ≤ s.sketchSum gb d.win (s.pairOf gb m) codes)) (s.pairOf gb m) ns
  let mask := if forced then BitVec.allOnes 256 else maskBits live
  let n := if forced then 0 else ((List.range 256).filter (fun m => live m && !dead.contains m)).length
  (s, { live := mask, settle := settle, suspect := suspect,
        stale := nc || s.on Reg.PAR_STATUS_CAL_STALE gb, dead := !dead.isEmpty }, n)

/-- The undelivered record is copied into each target's empty slot (R162). -/
def State.deliver (s : State) (gb : Nat) : State :=
  match (s.parx gb).record with
  | none => s
  | some (r, t) =>
    let ready := (List.range 16).filter (fun p => bit t p && (s.potx (potIx gb p)).mask.isNone)
    let s := ready.foldl (fun s p => s.setPotx (potIx gb p) { s.potx (potIx gb p) with mask := some r }) s
    let t' := t - (ready.map (fun p => 2 ^ p)).sum
    s.setParx gb { s.parx gb with record := if t' = 0 then none else some (r, t') }

/-- The oldest target pot that the undelivered record waits for. -/
def ParX.waitsFor (x : ParX) : Nat :=
  match x.record with
  | some (_, t) => ((List.range 16).find? (fun p => bit t p)).getD 0
  | none => 0

/-- The computed record is presented: it becomes the undelivered record, and STORE writes its mask (R161, R162). -/
def presentRecord (gb : Nat) (env : EngEnv) (d : ParOp) (w : DWord) : Act Unit := do
  let s ← get
  let x := s.parx gb
  match x.computed with
  | none => pure ()
  | some (r, n) =>
    if d.discard then modify (fun s => s.setParx gb { x with computed := none })
    else if x.record.isSome then
      modify (fun s => s.bump Reg.PAR_STALL_COUNT gb env.stallOut)
      Act.wait 7 x.waitsFor
    else
      let out := if d.store then [regionAt d.maskOut 0 32 true (tagOut w)] else []
      awaitTags gb out
      modify (fun s => ((s.bump Reg.PAR_LIVE_CNT_COUNT gb n).setParx gb
        { x with computed := none, record := if d.target = 0 then none else some (r, d.target) }).deliver gb)
      out.forM (fun r' => spadPut gb env r'.lo (leBytes 32 r.live.toNat))
      applyTags gb out

/-- The computed record forced live: an operating-point change has begun before it is presented (R174). -/
def State.settleComputed (s : State) (gb : Nat) : State :=
  let x := s.parx gb
  s.setParx gb { x with computed := x.computed.map (fun p => ({ p.1 with live := BitVec.allOnes 256, settle := true }, 0)) }

/-- The comparison proper of an iteration: the input is read, and three samples, or six, give the record (R154 to R160). -/
def compareStep (gb : Nat) (env : EngEnv) (noise : List (BitVec 266)) (d : ParOp) (w : DWord) : Act Unit := do
  let r := regionAt d.inAddr 0 d.inLen false (tagIn w)
  paced gb [[r]] 0 (do
    let bs ← spadRead gb env r.lo r.len
    let codes := (List.range d.rows).map (d.code bs)
    Act.check (codes.any Option.isNone) 0x0205
    modify (fun s =>
      let c := s.compareOnce gb d (codes.map (fun c => c.getD 0)) noise
      c.1.setParx gb { c.1.parx gb with computed := some (c.2.1, c.2.2) }))

/-- Iteration `it` of a comparison (R154 to R162). A calibration that is due goes before it (R169). -/
def compareIter (gb : Nat) (env : EngEnv) (noise : List (BitVec 266)) (e : Entry) (it : Nat) : Act Unit := do
  let d := e.par it
  let x ← entryNow gb e
  let s ← get
  if x.stage = 0 && (s.parx gb).calDue then Act.wait 0 0 else pure ()
  if x.stage = 0 then parChecks e d else pure ()
  if e.empty then
    awaitTags gb (d.regions e.word)
    countEmpty gb
    applyTags gb (d.regions e.word)
  else
    goOn gb e 0 [compareStep gb env (noise.drop (6 * (it - e.iter))) d e.word, presentRecord gb env d e.word]

/-- COMPARE (R154). A pending calibration goes first, and the comparison's wait is counted (R169). -/
def execCompare (gb : Nat) (env : EngEnv) (noise : List (BitVec 266)) (s : State) : Host.Outcome State Fault Refusal :=
  okIf (gb < 2560)
    (if s.clockStopped gb then s
    else if (s.parx gb).calDue && (s.parx gb).computed.isNone && !(s.held gb 16) then s.bump Reg.PAR_CAL_WAIT_COUNT gb env.cmpWait
    else s.runUnit gb 16 (fun e => opc e.word == 0x18 && (e.par 0).op != 1 && (e.par 0).op != 2) (fun e => do
      frontChecks gb env e 0x0202
      runReps gb e (compareIter gb env noise e)))

/-- MASK_RECORD_DELIVERY (R162). -/
def execMaskRecordDelivery (gb : Nat) (s : State) : Host.Outcome State Fault Refusal :=
  okIf (gb < 2560) (if s.clockStopped gb then s else s.deliver gb)

/-! ### Sketch loads -/

/-- A row image with a reserved pattern (R152). -/
def sketchReserved (row : Nat) : Bool := (List.range 256).any (fun m => row / 2 ^ (2 * m) % 4 == 3)

/-- A row image with the bits of every remapped pair repeated in its redundant pair (R166). -/
def State.sketchRow (s : State) (gb row : Nat) : Nat :=
  row + ((List.range 8).map (fun r =>
    if s.on Reg.PAR_REMAP_TBL_VALID gb r then row / 2 ^ (2 * s.rd Reg.PAR_REMAP_TBL_PAIR gb r) % 4 * 2 ^ (512 + 2 * r) else 0)).sum

/-- A row whose second read-back fails holds a free value (R170 does not say what it holds). -/
def State.freeSketch (s : State) (key : Nat) : State :=
  let v := (List.range 9).map (fun k => (Config.freeWord (s.freeCtr + k)).toNat * 2 ^ (64 * k))
  { s with freeCtr := s.freeCtr + 9, sketch := s.sketch.put 0 key (BitVec.ofNat 528 v.sum) }

/-- Row i of a sketch load (R170): `mismatch` lists rows whose first read-back fails, with whether the second fails too. -/
def loadSketchRow (gb : Nat) (env : EngEnv) (d : ParOp) (mismatch : List (Nat × Bool)) (i : Nat) : Act Unit := do
  let bs ← spadRead gb env (32 * d.sketchAddr + 64 * i) 64
  let key := 512 * gb + d.loadFirst + i
  Act.check (sketchReserved (ofBytes bs)) 0x0203
  if mismatch.contains (i, true) then
    modify (fun s => s.freeSketch key)
    Act.fault 0x0204
  else modify (fun s => { s with sketch := s.sketch.put 0 key (BitVec.ofNat 528 (s.sketchRow gb (ofBytes bs))) })

/-- LOAD_SKETCH (R170): row by row, each under the tags of its slot. -/
def execLoadSketch (gb : Nat) (env : EngEnv) (mismatch : List (Nat × Bool)) (s : State) : Host.Outcome State Fault Refusal :=
  okIf (gb < 2560) (s.runUnit gb 16 (fun e => opc e.word == 0x18 && (e.par 0).op == 1) (fun e => do
    frontChecks gb env e 0x0202
    let d := e.par 0
    let x ← entryNow gb e
    if x.stage = 0 then parChecks e d else pure ()
    let plan := (List.range d.loadCount).map (fun i =>
      [(⟨32 * d.sketchAddr + 64 * i, 64, false, tagIn e.word⟩ : Region)])
    goOn gb e 0 ((List.range d.loadCount).map (fun i => paced gb plan i (loadSketchRow gb env d mismatch i)))))

/-! ### Calibration -/

/-- The committed trim of a pair (R175). -/
def State.trim (s : State) (gb m : Nat) : Int := signed 6 (s.rd Reg.PAR_TRIM_TRIM gb m)

/-- An attempt is suspect (R165). -/
def State.suspectCal (s : State) (gb : Nat) (a : CalAttempt) : Bool :=
  let valid := s.on Reg.PAR_STATUS_CAL_VALID gb
  (a.preBad && valid) || a.verifyBad ||
  (valid && decide (16 < ((List.range 256).filter (fun m =>
    decide (8 < (a.trims.getD m 0 - s.trim gb m).natAbs))).length))

/-- A pair of an unsuspect attempt is bad (R166). -/
def badPair (a : CalAttempt) (m : Nat) : Bool :=
  a.trims.getD m 0 == -32 || a.trims.getD m 0 == 31 || a.failed.contains m

/-- The sketch bits of a data pair copied into a redundant pair, row by row (R166). -/
def State.copyPair (s : State) (gb m r : Nat) : Nat → State
  | 0 => s
  | n + 1 =>
    let s := s.copyPair gb m r n
    let row := s.sketch.get 0 (512 * gb + n)
    let clean := row.toNat - row.toNat / 2 ^ (512 + 2 * r) % 4 * 2 ^ (512 + 2 * r)
    let img := BitVec.ofNat 528 (clean + row.toNat / 2 ^ (2 * m) % 4 * 2 ^ (512 + 2 * r))
    { s with sketch := s.sketch.put 0 (512 * gb + n) img }

/-- Data pair m is mapped to the lowest free redundant pair, or becomes dead (R166, R167). -/
def State.remapPair (s : State) (gb m : Nat) : State :=
  match (List.range 8).find? (fun r => !s.on Reg.PAR_REMAP_TBL_VALID gb r && !s.on Reg.PAR_TRIM_BAD gb (256 + r)) with
  | some r =>
    let s := (List.range 8).foldl (fun s k =>
      if s.on Reg.PAR_REMAP_TBL_VALID gb k && s.rd Reg.PAR_REMAP_TBL_PAIR gb k == m then
        s.flag Reg.PAR_REMAP_TBL_VALID gb false k else s) s
    let s := (s.flag Reg.PAR_REMAP_TBL_VALID gb true r).wr Reg.PAR_REMAP_TBL_PAIR gb m r
    let s := s.wr Reg.PAR_STATUS_REMAPS gb ((List.range 8).filter (fun k => s.on Reg.PAR_REMAP_TBL_VALID gb k)).length
    (s.copyPair gb m r 512).benchReport gb 16 0x0212 0
  | none =>
    let x := s.parx gb
    if x.dead.contains m then s
    else
      let s := s.setParx gb { x with dead := x.dead ++ [m] }
      (s.wr Reg.PAR_STATUS_DEAD gb (min 31 (s.parx gb).dead.length)).benchReport gb 16 0x0213 0

/-- The commit of an attempt: trims, bad marks, remaps and dead pairs, the latched temperature (R164 to R167). -/
def State.commitCal (s : State) (gb : Nat) (a : CalAttempt) (temp result : Nat) : State :=
  let s := (List.range 266).foldl (fun s m =>
    (s.wr Reg.PAR_TRIM_TRIM gb (pattern 6 (a.trims.getD m 0)) m).flag Reg.PAR_TRIM_BAD gb (badPair a m) m) s
  let s := (s.flag Reg.PAR_STATUS_CAL_VALID gb true).flag Reg.PAR_STATUS_CAL_STALE gb false
  let s := ((s.wr Reg.PAR_CAL_INFO_TEMP gb temp).wr Reg.PAR_CAL_INFO_AGE gb 0).wr Reg.PAR_CAL_INFO_RESULT gb result
  let s := s.bump Reg.PAR_CAL_CNT_COMMITTED gb
  -- a dead pair stays dead (R167)
  let need := (List.range 256).filter (fun m => !(s.parx gb).dead.contains m && badPair a (s.pairOf gb m))
  need.foldl (fun s m => s.remapPair gb m) s

/-- A calibration: one attempt, and a second where the first is suspect (R164, R165). Afterwards a settle period is due (R157), and
trims that a first lasting failure made stale are a change of R168's conditions. -/
def State.calibrate (s : State) (gb : Nat) (c : CalEnv) : State :=
  let was := (s.on Reg.PAR_STATUS_CAL_VALID gb, s.on Reg.PAR_STATUS_CAL_STALE gb)
  let s := (s.setParx gb { s.parx gb with calDue := false, calAge := 0, notCalSaid := (s.parx gb).notCalSaid && was != (true, false) }).wr
    Reg.PAR_STATUS_SETTLE_LEFT gb 2
  if s.suspectCal gb c.attempt1 = false then s.commitCal gb c.attempt1 c.temp 1
  else
    let s := s.bump Reg.PAR_CAL_CNT_REJECTED gb
    if s.suspectCal gb c.attempt2 = false then s.commitCal gb c.attempt2 c.temp 2
    else
      let s := (s.bump Reg.PAR_CAL_CNT_REJECTED gb).wr Reg.PAR_CAL_INFO_RESULT gb 3
      let s := if s.on Reg.PAR_STATUS_CAL_VALID gb then s.flag Reg.PAR_STATUS_CAL_STALE gb true else s
      s.benchReport gb 16 0x0211 0

/-- Where the conditions of R168 have changed since `old`, PAR_NOT_CAL may be reported anew. -/
def State.rearmNotCal (s old : State) (gb : Nat) : State :=
  if s.notCal gb = old.notCal gb then s else s.setParx gb { s.parx gb with notCalSaid := false }

/-- CALIBRATE_NOW (R164, R173): the calibration sequence in program order. -/
def execCalibrateNow (gb : Nat) (env : EngEnv) (cal : CalEnv) (s : State) : Host.Outcome State Fault Refusal :=
  okIf (gb < 2560) (s.runUnit gb 16 (fun e => opc e.word == 0x18 && (e.par 0).op == 2) (fun e => do
    frontChecks gb env e 0x0202
    parChecks e (e.par 0)
    awaitTags gb []
    modify (fun s => s.calibrate gb cal)))

/-- A calibration is due at the next boundary between comparisons (R169). -/
def State.calDue (s : State) (gb : Nat) : State := s.setParx gb { s.parx gb with calDue := true }

/-- CAL_REQ (R169, R175). -/
def execCalReq (gb : Nat) (s : State) : Host.Outcome State Fault Refusal := okIf (gb < 2560) (s.calDue gb)

/-- CAL_AGE_TRIGGER (R169): `ms` milliseconds pass; past CAL_PERIOD a calibration is due. -/
def execCalAgeTrigger (gb ms : Nat) (s : State) : Host.Outcome State Fault Refusal :=
  okIf (gb < 2560)
    (let s := s.setParx gb { s.parx gb with calAge := (s.parx gb).calAge + ms }
     let s := s.bump Reg.PAR_CAL_INFO_AGE gb ms
     if 10 * max 10 (s.rd Reg.PAR_CFG_CAL_PERIOD gb) ≤ (s.parx gb).calAge then s.calDue gb else s)

/-- CAL_TEMP_TRIGGER (R169): the bench sensor reads `temp`, in units of 0.25 °C. -/
def execCalTempTrigger (gb temp : Nat) (s : State) : Host.Outcome State Fault Refusal :=
  okIf (gb < 2560)
    (if 4 * max 1 (s.rd Reg.PAR_CFG_CAL_DTEMP gb) ≤ ((temp : Int) - s.rd Reg.PAR_CAL_INFO_TEMP gb).natAbs then s.calDue gb else s)

/-- CALIBRATION (R164, R169): a calibration that is due runs between comparisons, after a computed record is presented (R174), and during
FAULT_HOLD too (R173). -/
def execCalibration (gb : Nat) (cal : CalEnv) (s : State) : Host.Outcome State Fault Refusal :=
  okIf (gb < 2560) (if (s.parx gb).calDue && (s.parx gb).computed.isNone && !s.clockStopped gb then s.calibrate gb cal else s)

end Sys2Proof.Machine
end

