-- ==== Sys2Proof/Machine/Tiers.lean ====
section
/-! DEFINITION. The controllers of tiers A and B: what a read and a write of a tier do (R398 to R404, R408). -/

namespace Sys2Proof.Machine

open Sys2Proof

/-- The controller of a tier address with the stack or package behind it: block instance, package within its annex, number of the
device (stacks 0 to 7, then packages), SOURCE, and CHAN as ERR_INFO gives it (R395 to R397, R408, R524). -/
structure Ctl where
  isA : Bool
  inst : Nat
  pkg : Nat
  dev : Nat
  source : Nat
  chan : Nat
  deriving DecidableEq, Repr

/-- The controller of an address. -/
def ctlOf (a : Nat) : Ctl :=
  if a < 0x8000000000 then
    let t := stackOf a
    ⟨true, stackDie t, 0, t, 0x1200 + t, pseudoChannel a⟩
  else
    let p := pkgOf a
    ⟨false, p / 6, p % 6, 8 + p, 0x1300 + p, p % 6 * 4 + pkgChannel a⟩

/-- A register field of a controller's block. -/
def Ctl.f (c : Ctl) (fa fb : Field) : Field := if c.isA then fa else fb

/-- The spare rows of a stack or a package (R403). -/
def Ctl.spares (c : Ctl) : Nat := if c.isA then 256 else 16

/-- STATE of the stack or package: 3 down (R404, R408). -/
def State.tierState (s : State) (c : Ctl) : Nat := s.rd (c.f Reg.MEMA_STATUS_STATE Reg.MEMB_STATUS_STATE) c.inst c.pkg

/-- A MEM report with the block address; `kind` is the KIND of a lasting event, which ERR_INFO and ERR_ADDR hold where it is the
first since the last clear (R408, R409). -/
def State.memReport (s : State) (c : Ctl) (code a : Nat) (kind : Option Nat) : State :=
  let s := s.wr (c.f Reg.MEMA_STATUS_LAST_FAULT Reg.MEMB_STATUS_LAST_FAULT) c.inst code
  let s := match kind with
    | none => s
    | some k =>
      let s := (s.flag (c.f Reg.MEMA_STATUS_LASTING Reg.MEMB_STATUS_LASTING) c.inst true).bump
        (c.f Reg.MEMA_ERR_INFO_COUNT Reg.MEMB_ERR_INFO_COUNT) c.inst
      if s.on (c.f Reg.MEMA_ERR_INFO_VALID Reg.MEMB_ERR_INFO_VALID) c.inst then s
      else
        let s := s.flag (c.f Reg.MEMA_ERR_INFO_VALID Reg.MEMB_ERR_INFO_VALID) c.inst true
        let s := s.wr (c.f Reg.MEMA_ERR_INFO_KIND Reg.MEMB_ERR_INFO_KIND) c.inst k
        let s := s.wr (c.f Reg.MEMA_ERR_INFO_CHAN Reg.MEMB_ERR_INFO_CHAN) c.inst c.chan
        let s := s.wr (c.f Reg.MEMA_ERR_ADDR_LO_ADDR_LO Reg.MEMB_ERR_ADDR_LO_ADDR_LO) c.inst a
        s.wr (c.f Reg.MEMA_ERR_ADDR_HI_ADDR_HI Reg.MEMB_ERR_ADDR_HI_ADDR_HI) c.inst (a / 2 ^ 32)
  s.devReport c.source code a

/-- USED and LEFT of a stack or package (R408). -/
def State.showSpares (s : State) (c : Ctl) : State :=
  let n := s.tierSpares.get 0 c.dev
  (s.wr (c.f Reg.MEMA_REPAIR_USED Reg.MEMB_REPAIR_USED) c.inst (min n 255) c.pkg).wr
    (c.f Reg.MEMA_REPAIR_LEFT Reg.MEMB_REPAIR_LEFT) c.inst (min (c.spares - n) 255) c.pkg

/-- A failing row mapped to a spare, where one is left (R403). -/
def State.repairRow (s : State) (c : Ctl) (b : Nat) : State :=
  let n := s.tierSpares.get 0 c.dev
  if c.spares ≤ n then s
  else
    let s : State := { s with tierSpares := s.tierSpares.put 0 c.dev (n + 1),
                              tierErr := s.tierErr.filter (fun e => Config.tierRow e.1 != Config.tierRow b ||
                                (ctlOf (64 * e.1)).dev != c.dev) }
    let s := (s.showSpares c).memReport c 0x0A06 (64 * b) none
    if n + 1 = c.spares then
      (s.wr (c.f Reg.MEMA_STATUS_STATE Reg.MEMB_STATUS_STATE) c.inst 2 c.pkg).memReport c 0x0A07 (64 * b) none
    else s

/-- A lasting error of a block (R399 to R403): the block is poisoned, the event reported under KIND `kind`, and its row repaired
where it is failing: where another block of it erred lasting, or this one again after a whole write. -/
def State.blockLasting (s : State) (b code kind : Nat) : State :=
  let c := ctlOf (64 * b)
  let again := s.tierErr.get 0 b == 2
  let other := s.tierErr.any (fun e => e.1 != b && Config.tierRow e.1 == Config.tierRow b && (ctlOf (64 * e.1)).dev == c.dev)
  let s : State := { s with tierPoison := s.tierPoison.put false b true, tierErr := s.tierErr.put 0 b 1 }
  let s := s.memReport c code (64 * b) (some kind)
  if again || other then s.repairRow c b else s

/-- One read of block `b` with what it meets; the code of the error response where it fails (R399, R401). -/
def State.blockRead (s : State) (b : Nat) (ev : Option Ecc) : State × Option Nat :=
  let c := ctlOf (64 * b)
  if s.tierPoison.get false b then (s.memReport c 0x0A03 (64 * b) (some 3), some 0x0A03)
  else match ev with
    | none => (s, none)
    | some .corrected =>
      (({ s with tierWb := s.tierWb.put false b true } : State).bump (c.f Reg.MEMA_ERR_CNT_CORR Reg.MEMB_ERR_CNT_CORR) c.inst, none)
    | some .transient => (s.bump (c.f Reg.MEMA_ERR_CNT_TRANSIENT Reg.MEMB_ERR_CNT_TRANSIENT) c.inst, none)
    | some .lasting => (s.blockLasting b 0x0A01 0, some 0x0A01)

/-- The numbers of the 64-byte blocks that a stretch of a tier touches. -/
def tierBlocks (a n : Nat) : List Nat := upFrom (a / 64) (if n = 0 then 0 else (a + n - 1) / 64 + 1 - a / 64)

/-- A read of `n` bytes of a tier that does not cross a stack or package: the first error, its code and block address, or none. A
down target refuses it at once (R404); every block is read otherwise (R399). -/
def State.tierRd (s : State) (a n : Nat) (ecc : List (Nat × Ecc)) : State × Option (Nat × Nat) :=
  let c := ctlOf a
  if s.tierState c = 3 then (s.memReport c 0x0A04 (a / 64 * 64) (some 4), some (0x0A04, a / 64 * 64))
  else
    let r := (tierBlocks a n).foldl (fun (acc : State × Option (Nat × Nat)) b =>
      let q := acc.1.blockRead b ((ecc.find? (fun e => e.1 == b)).map Prod.snd)
      (q.1, acc.2.or (q.2.map (fun k => (k, 64 * b))))) (s, none)
    if r.2.isSome then r
    else (r.1.bumpKib (c.f Reg.MEMA_RD_KIB_COUNT Reg.MEMB_RD_KIB_COUNT) c.inst n, none)

/-- The write of one block of `k` bytes from address `x` on, `ev` what its read meets where it is a read-modify-write, `crc` whether
its burst fails once (false) or twice (true) (R400, R401); the code of the error response where it fails. -/
def State.blockWrite (s : State) (x : Nat) (bs : List Byte) (ev : Option Ecc) (crc : Option Bool) : State × Option Nat :=
  let b := x / 64
  let c := ctlOf x
  let whole := x % 64 == 0 && bs.length == 64
  let r : State × Option Nat := if whole then (s, none) else s.blockRead b ev
  match r.2 with
  | some _ => (r.1, some 0x0A03)
  | none =>
    let s : State := { r.1 with tierWb := r.1.tierWb.put false b false }
    match crc with
    | some true => (s.blockLasting b 0x0A02 1, some 0x0A02)
    | _ =>
      let s := if crc = some false then s.bump (c.f Reg.MEMA_ERR_CNT_TRANSIENT Reg.MEMB_ERR_CNT_TRANSIENT) c.inst else s
      let s := s.storeBytes x bs
      if whole then
        ({ s with tierPoison := s.tierPoison.put false b false,
                  tierErr := if s.tierErr.get 0 b = 1 then s.tierErr.put 0 b 2 else s.tierErr }, none)
      else (s, none)

/-- The blocks of a write, in order. -/
def State.blocksWrite (s : State) (a : Nat) (bs : List Byte) (ecc : List (Nat × Ecc)) (crc : List (Nat × Bool)) :
    Nat → State × Option (Nat × Nat)
  | 0 => (s, none)
  | fuel + 1 =>
    if bs.isEmpty then (s, none)
    else
      let b := a / 64
      let k := min bs.length (64 - a % 64)
      let r := s.blockWrite a (bs.take k) ((ecc.find? (fun e => e.1 == b)).map Prod.snd)
        ((crc.find? (fun e => e.1 == b)).map Prod.snd)
      let q := r.1.blocksWrite (a + k) (bs.drop k) ecc crc fuel
      (q.1, (r.2.map (fun e => (e, 64 * b))).or q.2)

/-- A write to a tier that does not cross a stack or package: the first error, its code and block address, or none (R400, R404). -/
def State.tierWr (s : State) (a : Nat) (bs : List Byte) (ecc : List (Nat × Ecc)) (crc : List (Nat × Bool)) :
    State × Option (Nat × Nat) :=
  let c := ctlOf a
  if s.tierState c = 3 then (s.memReport c 0x0A04 (a / 64 * 64) (some 4), some (0x0A04, a / 64 * 64))
  else
    let r := s.blocksWrite a bs ecc crc (bs.length / 32 + 2)
    if r.2.isSome then r
    else (r.1.bumpKib (c.f Reg.MEMA_WR_KIB_COUNT Reg.MEMB_WR_KIB_COUNT) c.inst bs.length, none)

/-- The pieces of a stretch of a tier that cross neither a stack nor a package: of at most 1 KiB each (R396, R397). -/
def tierPieces (a n : Nat) : List (Nat × Nat) :=
  (upFrom (a / 1024) (if n = 0 then 0 else (a + n - 1) / 1024 + 1 - a / 1024)).map (fun b =>
    (max a (1024 * b), min (a + n) (1024 * b + 1024) - max a (1024 * b)))

/-- A read of any stretch of a tier, with its bytes where no block fails. -/
def State.tierFetch (s : State) (a n : Nat) (ecc : List (Nat × Ecc)) : State × Option (Nat × Nat) × List Byte :=
  let r := (tierPieces a n).foldl (fun (acc : State × Option (Nat × Nat)) p =>
    let q := acc.1.tierRd p.1 p.2 ecc
    (q.1, acc.2.or q.2)) (s, none)
  (r.1, r.2, if r.2.isSome then [] else r.1.bytes a n)

/-- A write of any stretch of a tier. -/
def State.tierStore (s : State) (a : Nat) (bs : List Byte) (ecc : List (Nat × Ecc)) (crc : List (Nat × Bool)) :
    State × Option (Nat × Nat) :=
  (tierPieces a bs.length).foldl (fun (acc : State × Option (Nat × Nat)) p =>
    let q := acc.1.tierWr p.1 ((bs.drop (p.1 - a)).take p.2) ecc crc
    (q.1, acc.2.or q.2)) (s, none)

end Sys2Proof.Machine
end

