-- ==== Sys2Proof/Machine/Xfer.lean ====
section
/-! DEFINITION. The pieces and transfers of a bench's front end: merging (R329), the emission buffer (R335) and reads of tier A
by a pot. -/

namespace Sys2Proof.Machine

open Sys2Proof

/-- A transfer's place in the order in which the front end made them. -/
def Xfer.born (x : Xfer) : Nat := x.after.getD x.id

/-- The transfer moves inwards. -/
def Xfer.inward (x : Xfer) : Bool := x.kind == .get || x.kind == .load

/-- A transfer of emitted rows alone. -/
def Xfer.emission (x : Xfer) : Bool := x.kind == .emit

/-- The piece is of an emitted row. -/
def Piece.emitted (p : Piece) : Bool := p.entry.isNone

/-- A FENCE of the bench is issued and has not retired (R332). -/
def State.fencing (s : State) (gb : Nat) : Bool :=
  (s.seq gb).window.any (fun e => opc e.word == 0x28 && e.phase == Phase.issued && fld (e.dw 0) 63 61 == 2)

/-- A piece may merge with the transfer: the same direction, TGT and class, no remote tag action, and for pieces that go to the
scratchpad an order in which `lo` then `hi` are contiguous within one slot (R329). The rows of a load, which have no scratchpad range,
merge among themselves, and while a FENCE holds requests a held piece merges with no emitted row (DESIGN CHOICE, assumption
log 84). -/
def Xfer.mates (x : Xfer) (gb : Nat) (kind : XKind) (tgt cls rtag : Nat) (p : Piece) (fence : Bool) (lo hi : Piece) : Bool :=
  x.phase == XPhase.merging && x.gb == gb && (x.kind == kind || (!x.inward && kind != .get && kind != .load)) && x.tgt == tgt &&
  x.cls == cls && x.rtag == 0 && rtag == 0 && !(fence && x.pieces.any (fun q => q.emitted != p.emitted)) &&
  (kind != XKind.get || (hi.spad == lo.spad + lo.len && hi.spad / 1024 == lo.spad / 1024))

/-- The transfer with a piece added: behind its bytes, or before them, where the external addresses are contiguous within one 1 KiB
block (R329); none where it does not join. -/
def Xfer.join (x : Xfer) (gb : Nat) (kind : XKind) (tgt cls ext len rtag pot : Nat) (p : Piece) (fence : Bool) : Option Xfer :=
  if ext / 1024 ≠ x.ext / 1024 then none
  else
    let kind' := if x.kind = kind then x.kind else .put
    if ext = x.ext + x.len ∧ x.mates gb kind tgt cls rtag p fence (x.pieces.getLastD p) p = true then
      some { x with kind := kind', len := x.len + len, pieces := x.pieces ++ [{ p with off := x.len }] }
    else if ext + len = x.ext ∧ x.mates gb kind tgt cls rtag p fence p (x.pieces.headD p) = true then
      some { x with kind := kind', ext := ext, len := x.len + len, pot := pot,
                    pieces := { p with off := 0 } :: x.pieces.map (fun q => { q with off := q.off + len }) }
    else none

/-- A piece added to the first transfer it joins, or a transfer of its own. A transfer of 1 KiB, and a piece with a remote tag
action, leave at once (R329). -/
def State.addPiece (s : State) (gb : Nat) (kind : XKind) (tgt cls ext len rtag pot : Nat) (p : Piece) : State :=
  let phase := fun (n : Nat) => if n = 1024 ∨ rtag ≠ 0 then XPhase.queued else XPhase.merging
  match s.xfers.findSome? (fun x => x.join gb kind tgt cls ext len rtag pot p (s.fencing gb)) with
  | some y =>
    ({ s with xfers := s.xfers.map (fun z => if z.id = y.id then { y with phase := phase y.len } else z) } : State).bump
      Reg.DMA_MERGE_CNT_COUNT gb
  | none =>
    let y : Xfer := { id := s.nextXfer, gb := gb, kind := kind, tgt := tgt, cls := cls, ext := ext, len := len, rtag := rtag,
                      pieces := [{ p with off := 0 }], data := [], phase := phase len, pot := pot }
    { s with xfers := s.xfers ++ [y], nextXfer := s.nextXfer + 1 }

/-- The bytes that the emission buffer of a bench holds (R335). -/
def State.emitHeld (s : State) (gb : Nat) : Nat :=
  ((s.xfers.filter (fun x => x.gb == gb)).map (fun x => if x.emission then x.len else
    ((x.pieces.filter Piece.emitted).map Piece.len).sum)).sum

/-- One run of emitted bytes towards tier A, cut at 1 KiB boundaries (R216, R321). -/
def State.emitRow (s : State) (gb pot ext : Nat) (bs : List Byte) : Nat → State
  | 0 => s
  | fuel + 1 =>
    if bs.isEmpty then s
    else
      let n := min bs.length (1024 - ext % 1024)
      (s.addPiece gb .emit 0 1 ext n 0 pot
        { entry := none, spad := 0, off := 0, len := n, act := 0, tile := 0, pot := some pot, data := bs.take n }).emitRow
        gb pot (ext + n) (bs.drop n) fuel

/-- The pieces of a load's source in tier A from address `a` to before `b`, a row's 128 bytes at a time, none across a 1 KiB
boundary (R321, R329). -/
def State.askRows (s : State) (gb pot id a b : Nat) : Nat → State
  | 0 => s
  | fuel + 1 =>
    if b ≤ a then s
    else
      let n := min (b - a) (128 - a % 128)
      (s.addPiece gb .load 0 0 a n 0 pot { entry := some id, spad := 0, off := 0, len := n, act := 0, tile := 0, pot := some pot }).askRows
        gb pot id (a + n) b fuel

/-- The external address of a failed transfer noted (R333). -/
def State.noteExt (s : State) (gb a : Nat) : State :=
  (s.wr Reg.DMA_FAULT_ADDR_LO_ADDR_LO gb a).wr Reg.DMA_FAULT_ADDR_HI_ADDR_HI gb (a / 2 ^ 32)

/-- The bytes of a load's source that have arrived: the runs of `got` that cover `n` bytes from `a` on; none where one is missing. -/
def arrived (got : List (Nat × List Byte)) (a n : Nat) : Option (List Byte) :=
  (upFrom a n).mapM (fun x => (got.find? (fun r => decide (r.1 ≤ x) && decide (x < r.1 + r.2.length))).bind (fun r => r.2[x - r.1]?))

/-- A load requests its source in tier A up to address `b`, of which it needs the bytes from `a` on (R302, R321). A FENCE holds the
request (R332). -/
def tierAsk (gb p : Nat) (e : Entry) (a b : Nat) : Act Unit := do
  let s ← get
  let x ← entryNow gb e
  let hi := (b + 31) / 32 * 32
  if a < b ∧ x.asked < hi then
    Act.check (!s.tierOk gb a (b - a) false) 0x0704 a
    if s.fencing gb then Act.wait 10 0 else pure ()
    let lo := if x.asked = 0 then a / 32 * 32 else x.asked
    modify (fun s => (s.askRows gb p e.id lo hi ((hi - lo) / 32 + 1)).modEntry gb e.id (fun y => { y with asked := hi }))
  else pure ()

/-- A load's read of its source in tier A through the front end: it waits for the bytes, and a run that failed lasting faults with
the front end's code (R302, R333). -/
def tierStream (gb p : Nat) (e : Entry) (a n : Nat) : Act (List Byte) := do
  tierAsk gb p e a (a + n)
  let x ← entryNow gb e
  match x.lost.find? (fun l => decide (l.1 < a + n) && decide (a < l.1 + l.2.1)) with
  | some l => Act.fault l.2.2.1 l.2.2.2
  | none => pure ()
  match arrived x.outs a n with
  | some bs => pure bs
  | none => Act.wait 10 0

/-- A transfer that is not under way and moves outwards, where it has lost pieces, becomes one transfer for each piece left, in the
order's same place (R333). -/
def State.regroup (s : State) (id : Nat) : State :=
  match s.xfers.find? (fun x => x.id == id) with
  | none => s
  | some x =>
    if x.inward || (x.pieces.map Piece.len).sum == x.len then s
    else
      let ys := x.pieces.mapIdx (fun k p =>
        { x with id := if k = 0 then x.id else s.nextXfer + k, ext := x.ext + p.off, len := p.len, pieces := [{ p with off := 0 }],
                 pot := p.pot.getD 0, kind := if p.emitted then .emit else .put, after := some x.born,
                 phase := if x.phase = .held ∧ k ≠ 0 then .queued else x.phase })
      { s with xfers := s.xfers.flatMap (fun y => if y.id = x.id then ys else [y]), nextXfer := s.nextXfer + x.pieces.length }

/-- The pieces of window entry `e` of a bench are abandoned: a transfer left with none is dropped where it is not requested, and
otherwise stays until it is answered (R333). -/
def State.abandon (s : State) (gb : Nat) (e : Nat) : State :=
  let mine := s.xfers.filter (fun x => x.gb == gb && x.pieces.any (fun p => p.entry == some e))
  mine.foldl (fun t x =>
    let left := x.pieces.filter (fun p => p.entry != some e)
    let asked := x.phase == .requested || x.phase == .staged
    if left.isEmpty && !asked then { t with xfers := t.xfers.filter (fun y => y.id != x.id) }
    else
      let u : State := { t with xfers := t.xfers.map (fun y => if y.id = x.id then { x with pieces := left } else y) }
      if asked then u else u.regroup x.id) s

/-- A pot's read of tier A through the front end. A lasting failure raises DMA_MEM_LASTING with the memory code and the address:
a failing read of row `row` that the surroundings name, or an error of the controller (R302, R333, R399, R524). -/
def tierRead (gb : Nat) (env : EngEnv) (row a n : Nat) : Act (List Byte) := do
  let s ← get
  Act.check (n != 0 && !s.tierOk gb a n false) 0x0704 a
  let ev := match env.rowFail with
    | some (r, c) => if r = row ∧ c = 0x0A01 then [(a / 64, Ecc.lasting)] else []
    | none => []
  match env.rowFail with
  | some (r, c) =>
    if r = row ∧ c ≠ 0x0A01 then
      modify (fun s => s.noteExt gb a)
      Act.fault 0x0709 (c * 2 ^ 48 + a)
    else pure ()
  | none => pure ()
  let r := s.tierFetch a n ev
  set r.1
  match r.2.1 with
  | some (c, b) =>
    modify (fun s => s.noteExt gb b)
    Act.fault 0x0709 (c * 2 ^ 48 + b)
  | none => pure ()
  pure r.2.2

end Sys2Proof.Machine
end

