-- ==== Sys2Proof/Machine/PotLoad.lean ====
section
/-! DEFINITION. Writing a pot's rows: plain loads (R121, R122, R302), tiled loads (R184 to R187), working loads (R202 to R206)
and update sweeps (R208 to R223). -/

namespace Sys2Proof.Machine

open Sys2Proof

/-- A pot whose next load is tiled (R184): the sparse role, or a forward-only pot among pots 12 to 15. -/
def tiledPot (role p : Nat) : Bool := role == 2 || (role == 3 && decide (12 ≤ p))

/-- An open shadow run discarded (R217). -/
def State.dropRun (s : State) (gp : Nat) : State := s.flag Reg.POT_UPD_STATUS_RUN gp false

/-- The fields of a POT_LOAD (R302). -/
structure LoadOp where
  tierA : Bool
  wfmt : Nat
  rowFirst : Nat
  rows : Nat
  src : Nat
  deriving DecidableEq, Repr

/-- The fields of a POT_LOAD word with its source register; a scratchpad source in bytes. -/
def Entry.load (e : Entry) : LoadOp :=
  let t := fld e.word 51 51 = 1
  { tierA := t, wfmt := fld e.word 50 48, rowFirst := fld e.word 47 38, rows := fld e.word 37 27,
    src := if t then e.va.toNat else 32 * fld e.va 13 0 }

/-- The issue checks of a POT_LOAD after those of R591's head (R302). -/
def loadChecks (s : State) (gp : Nat) (l : LoadOp) (tiled : Bool) (role : Nat) : Option Nat :=
  let len := 128 * l.rows
  if !tiled && decide (6 ≤ l.wfmt) then some 0x0103
  else if s.potOff.get false gp || (role == 2 && decide (gp % 16 < 12)) then some 0x0101
  else if l.rows == 0 || decide (1024 < l.rowFirst + l.rows) ||
    (l.tierA && (l.src % 128 != 0 || decide (0x8000000000 < l.src + (if tiled then 16 else len)))) ||
    (!l.tierA && decide (393216 < l.src + (if tiled then 16 else len))) ||
    (tiled && (l.rowFirst % 32 != 0 || l.rows % 32 != 0)) then some 0x0106
  else if !tiled && decide (l.rows < 1024) && l.wfmt != s.rd Reg.POT_CFG_WFMT gp then some 0x010A
  else none

/-- A stretch of a load's source: from tier A through the front end, or from the scratchpad, whose tags it waits for. -/
def loadBytes (gb p : Nat) (env : EngEnv) (e : Entry) (l : LoadOp) (off n : Nat) : Act (List Byte) :=
  if l.tierA then tierStream gb p e (l.src + off) n
  else do
    awaitTags gb [{ lo := l.src + off, len := n, wr := false, act := tagIn e.word }]
    spadRead gb env (l.src + off) n

/-- The shadow state after a plain load, or a full one from tier A; `ok` where it completed without fault (R141, R217). -/
def State.loadShadow (s : State) (gp : Nat) (l : LoadOp) (ok : Bool) : State :=
  let s := s.dropRun gp
  if l.tierA then
    if l.rows = 1024 ∧ ok then
      (s.flag Reg.POT_INTEG_SHADOW_OK gp true).wr Reg.POT_SHADOW_ADDR gp (l.src / 128)
    else if l.src = 128 * (s.rd Reg.POT_SHADOW_ADDR gp + l.rowFirst) then s
    else s.flag Reg.POT_INTEG_SHADOW_OK gp false
  else s.flag Reg.POT_INTEG_SHADOW_OK gp false

/-- The shadow state after a tiled load (R187, R217); a full one from tier A falls under R141. -/
def State.tiledShadow (s : State) (gp : Nat) (l : LoadOp) (ok : Bool) : State :=
  if l.tierA ∧ l.rows = 1024 then s.loadShadow gp l ok else (s.dropRun gp).flag Reg.POT_INTEG_SHADOW_OK gp false

/-- The state after a load that faulted, at issue or later: its shadow state, and no row still on its way (R141, R217, R333). -/
def State.loadFaulted (s : State) (gb p : Nat) (e : Entry) : State :=
  let gp := potIx gb p
  let s := s.abandon gb e.id
  if tiledPot (s.rd Reg.POT_CFG_ROLE gp) p then s.tiledShadow gp e.load false else s.loadShadow gp e.load false

/-- The tile table with row groups g to g + n - 1 of class c (R182). -/
def State.setClasses (s : State) (gp g n c : Nat) : State :=
  let x := s.potx gp
  s.setPotx gp { x with classes := x.classes.mapIdx (fun j k => if g ≤ j ∧ j < g + n then c else k) }

/-- The row groups of each class, and the blocks, shown in POT_SP_CFG (R200). -/
def State.showTiles (s : State) (gp : Nat) (tiled : Bool) : State :=
  if gp % 16 < 12 then s
  else
    let x := s.potx gp
    let n := fun c => (x.classes.filter (fun k => k == c)).length
    let i := spIx gp
    let s := s.flag Reg.POT_SP_CFG_TILED i tiled
    let s := s.wr Reg.POT_SP_CFG_BLOCKS i x.blocks
    let s := s.wr Reg.POT_SP_CFG_RG_DENSE i (n 0)
    let s := s.wr Reg.POT_SP_CFG_RG_LANE i (n 1)
    let s := s.wr Reg.POT_SP_CFG_RG_SUB i (n 2)
    s.wr Reg.POT_SP_CFG_RG_VOID i (n 3)

/-- Row `i` of a plain load written from its bytes (R50, R90, R121). -/
def plainRow (gp : Nat) (l : LoadOp) (f : WFmt) (i : Nat) (bs : List Byte) : Act Unit := do
  let row := ofBytes bs
  Act.check (f == WFmt.wt && wtReserved row) 0x0126
  modify (fun s => s.setRow gp (l.rowFirst + i) (f.trim row))

/-- The source region of a load from scratchpad. -/
def LoadOp.region (l : LoadOp) (w : DWord) (len : Nat) : List Region :=
  if l.tierA then [] else [{ lo := l.src, len := len, wr := false, act := tagIn w }]

/-- The region of row `i` of a plain load. -/
def LoadOp.rowRegion (l : LoadOp) (w : DWord) (i : Nat) : List Region := { l with src := l.src + 128 * i }.region w 128

/-- A load that completed: VALID, WFMT, and for a full load the end of a repair (R121, R142). -/
def State.loadDone (s : State) (gp wfmt : Nat) (full : Bool) : State :=
  let s := (s.flag Reg.POT_CFG_VALID gp true).wr Reg.POT_CFG_WFMT gp wfmt
  if full then s.flag Reg.POT_INTEG_SUSPECT gp false else s

/-- A plain load (R121, R302): its checks; VALID cleared and, from tier A, all its rows requested; its rows in ascending order, each
as it arrives. -/
def plainLoad (gb p : Nat) (env : EngEnv) (e : Entry) : Act Unit := do
  let gp := potIx gb p
  let l := e.load
  if (← entryNow gb e).stage = 0 then
    let s ← get
    match loadChecks s gp l false (s.rd Reg.POT_CFG_ROLE gp) with
    | some c => Act.fault c
    | none => pure ()
    Act.check (l.tierA && !s.tierOk gb l.src (128 * l.rows) false) 0x0704 l.src
  else pure ()
  let plan := [] :: (List.range l.rows).map (l.rowRegion e.word)
  let start : Act Unit := do
    modify (fun s => s.flag Reg.POT_CFG_VALID gp false)
    if l.tierA then tierAsk gb p e l.src (l.src + 128 * l.rows) else pure ()
  goOn gb e 0 (start :: (List.range l.rows).map (fun i => paced gb plan (i + 1) (do
    let bs ← loadBytes gb p env e l (128 * i) 128
    plainRow gp l ((WFmt.ofNum l.wfmt).getD .w4) i bs)))
  modify (fun s => (((s.setClasses gp (l.rowFirst / 32) ((l.rowFirst + l.rows - 1) / 32 + 1 - l.rowFirst / 32) 0).showTiles
    gp false).loadDone gp l.wfmt (l.rows == 1024)).loadShadow gp l true)

/-- POT_LOAD (R302): a plain load. A load that the role makes tiled is TILED_LOAD's. -/
def execPotLoad (gb p : Nat) (env : EngEnv) (s : State) : Host.Outcome State Fault Refusal :=
  okIf (gb < 2560 && p < 16)
    (if tiledPot (s.rd Reg.POT_CFG_ROLE (potIx gb p)) p then s
    else s.runPot gb p env (fun e => opc e.word == 0x12) (fun e => onFault (fun s => s.loadFaulted gb p e)) (plainLoad gb p env))

/-! ### Tiled loads -/

/-- A tile header (R184). -/
structure TileHdr where
  tag : Nat
  cls : Nat
  wfmt : Nat
  rgFirst : Nat
  rgCount : Nat
  logFirst : Nat
  metaLen : Nat
  crc : Nat
  reserved : Bool
  deriving DecidableEq, Repr

/-- The header that 16 bytes spell. -/
def TileHdr.ofBytes (bs : List Byte) : TileHdr :=
  let w0 := BitVec.ofNat 64 (Sys2Proof.ofBytes (bs.take 8))
  let w1 := BitVec.ofNat 64 (Sys2Proof.ofBytes (bs.drop 8))
  { tag := fld w0 63 56, cls := fld w0 55 54, wfmt := fld w0 53 51, rgFirst := fld w0 50 46, rgCount := fld w0 45 40,
    logFirst := fld w0 39 33, metaLen := fld w0 32 19, crc := fld w1 63 32, reserved := fld w0 18 0 != 0 || fld w1 31 0 != 0 }

/-- The metadata bytes of one row group of a class (R184). -/
def metaBytes (c : Nat) : Nat := if c = 1 then 64 else if c = 2 then 256 else 0

/-- The bytes of a tile's image after its header. -/
def tileBody (c n : Nat) : Nat := n * metaBytes c + (if c = 3 then 0 else 4096 * n)

/-- The bytes of a tiled image, from the tile headers as they stand (R184). -/
def State.tiledLen (s : State) (a : Nat) (rgs : Nat) : Nat → Nat
  | 0 => 0
  | fuel + 1 =>
    let h := TileHdr.ofBytes (s.bytes a 16)
    let n := 16 + tileBody h.cls h.rgCount
    if h.rgCount = 0 ∨ rgs ≤ h.rgCount then n else n + s.tiledLen (a + n) (rgs - h.rgCount) fuel

/-- How far a tiled load has come by the headers of its tiles: the source offset and row group due, its format so far, and the
logical block of that row group. -/
structure TilePos where
  off : Nat := 0
  next : Nat
  wf : Option Nat := none
  log : Nat
  deriving DecidableEq, Repr

/-- The position behind a tile. -/
def TilePos.past (t : TilePos) (h : TileHdr) : TilePos :=
  { off := t.off + 16 + tileBody h.cls h.rgCount, next := h.rgFirst + h.rgCount, wf := some h.wfmt,
    log := t.log + h.rgCount * classBlocks h.cls }

/-- The position of a load's first tile: the logical block is by the tiles that a partial load leaves standing (R183). -/
def State.tileStart (s : State) (gp : Nat) (l : LoadOp) : TilePos :=
  { next := l.rowFirst / 32, log := if l.rows = 1024 then 0 else (s.potx gp).logBlock (l.rowFirst / 32) }

/-- The header check that fails first, in the order of R185: `next` is the row group due, `wf` the load's format so far, `log`
the logical block of that row group by the tiles before it. -/
def hdrFault (s : State) (gp role : Nat) (l : LoadOp) (h : TileHdr) (next : Nat) (wf : Option Nat) (log : Nat) : Option Nat :=
  let part := decide (l.rows < 1024)
  let x := s.potx gp
  if h.tag ≠ 0xD5 ∨ h.reserved = true ∨ h.rgCount = 0 ∨ 32 < h.rgCount ∨ 32 < h.rgFirst + h.rgCount ∨
    h.metaLen ≠ h.rgCount * metaBytes h.cls ∨ 6 ≤ h.wfmt then some 0x0303
  else if (wf.isSome && wf != some h.wfmt) || (part && h.wfmt != s.rd Reg.POT_CFG_WFMT gp) then some 0x0303
  else if h.rgFirst ≠ next ∨ l.rowFirst + l.rows < 32 * (h.rgFirst + h.rgCount) then some 0x0303
  else if h.logFirst ≠ (if h.cls = 3 then 0 else log) then some 0x0303
  else if !serves (gp % 16) role 0 h.cls || (h.cls == 2 && role == 2) then some 0x0301
  else if part && (upFrom h.rgFirst h.rgCount).any (fun g => x.cls g != h.cls) then some 0x0303
  else if (if role = 2 then 32 else 64) < log + h.rgCount * classBlocks h.cls then some 0x0306
  else none

/-- Some cell of an empty slot of a payload row is 1: row r of a row group, under the words of its lanes or sub-lanes (R181). -/
def emptyNz (cls r row : Nat) (word : Nat → DWord) : Bool :=
  if cls = 1 then (List.range 8).any (fun k => (elemAt 1 (word k) r).isNone && row / 2 ^ (128 * k) % 2 ^ 128 != 0)
  else if cls = 2 then (List.range 32).any (fun k => (elemAt 2 (word k) r).isNone && row / 2 ^ (32 * k) % 2 ^ 32 != 0)
  else false

/-- The metadata words of a tile written into the metadata memory: words of 8 bytes, 8 or 32 to a row group (R182). -/
def State.putMeta (s : State) (gp : Nat) (h : TileHdr) (bs : List Byte) : State :=
  (List.range (bs.length / 8)).foldl (fun t k =>
    let per := if h.cls = 1 then 8 else 32
    let w := if h.cls = 1 then 4 * (k % per) else k % per
    let v := BitVec.ofNat 64 (ofBytes ((bs.drop (8 * k)).take 8))
    { t with metaRam := t.metaRam.put 0#64 (1024 * gp + 32 * (h.rgFirst + k / per) + w) v }) s

/-- The metadata bytes of row groups lo to lo + n - 1 of a class. -/
def State.metaImage (s : State) (gp cls lo n : Nat) : List Byte :=
  (upFrom lo n).flatMap (fun g => (List.range (if cls = 1 then 8 else if cls = 2 then 32 else 0)).flatMap (fun k =>
    leBytes 8 (s.metaRam.get 0#64 (1024 * gp + 32 * g + (if cls = 1 then 4 * k else k))).toNat))

/-- The checks of a tile's header (R185). -/
def tileHead (gp role : Nat) (l : LoadOp) (t : TilePos) (h : TileHdr) : Act Unit := do
  let s ← get
  match hdrFault s gp role l h t.next t.wf t.log with
  | some c => Act.fault c
  | none => pure ()

/-- The metadata of a tile checked and written, and its row groups' class (R182, R185). -/
def tileMeta (gp : Nat) (h : TileHdr) (mb : List Byte) : Act Unit := do
  Act.check ((List.range (mb.length / 8)).any (fun k => (List.range 16).any (fun q =>
    decide (2 < bitmapCount (bitmapOf (BitVec.ofNat 64 (ofBytes ((mb.drop (8 * k)).take 8))) q))))) 0x0302
  modify (fun s => (s.putMeta gp h mb).setClasses gp h.rgFirst h.rgCount h.cls)

/-- Row `i` of a tile checked and written; the rows of a void tile are zeroed (R185). -/
def tileRow (gp : Nat) (h : TileHdr) (i : Nat) (bs : List Byte) : Act Unit := do
  let r := 32 * h.rgFirst + i
  if h.cls = 3 then modify (fun s => s.setRow gp r 0)
  else
    let f := (WFmt.ofNum h.wfmt).getD .w4
    let row := ofBytes bs
    let s ← get
    Act.check (emptyNz h.cls (i % 32) row (fun k =>
      s.metaRam.get 0#64 (1024 * gp + 32 * (r / 32) + (if h.cls = 1 then 4 * k else k)))) 0x0305
    Act.check (f == WFmt.wt && wtReserved row) 0x0126
    modify (fun s => s.setRow gp r (f.trim row))

/-- The CRC of a tile, one cycle after its last payload row, retried once (R186): `body` its metadata and payload bytes. A check
that fails in transit and passes on the second read leaves what that read rewrites. -/
def tileCrc (gp : Nat) (env : EngEnv) (h : TileHdr) (body : List Byte) : Act Unit := do
  match (env.crc.find? (fun v => v.1 == h.rgFirst)).map Prod.snd with
  | some false => modify (fun s => s.bump Reg.POT_SP_CNT_CRC_TRANSIENT (spIx gp))
  | some true => Act.fault 0x0304
  | none => pure ()
  Act.check (h.crc != (if h.cls = 3 then 0 else crc32c body)) 0x0304

/-- The tiles of a repair reload from source offset on, up to `fuel` of them, read by `rd`; the answer is their format (R187). -/
def reloadTiles (gp role : Nat) (env : EngEnv) (l : LoadOp) (rd : Nat → Nat → Act (List Byte)) : Nat → TilePos → Act (Option Nat)
  | 0, t => pure t.wf
  | fuel + 1, t => do
    if 32 ≤ t.next then pure t.wf
    else
      let hb ← rd t.off 16
      let h := TileHdr.ofBytes hb
      tileHead gp role l t h
      let mLen := h.rgCount * metaBytes h.cls
      let mb ← rd (t.off + 16) mLen
      tileMeta gp h mb
      (List.range (32 * h.rgCount)).forM (fun i => do
        let bs ← if h.cls = 3 then pure [] else rd (t.off + 16 + mLen + 128 * i) 128
        tileRow gp h i bs)
      let body ← rd (t.off + 16) (tileBody h.cls h.rgCount)
      tileCrc gp env h body
      reloadTiles gp role env l rd fuel (t.past h)

/-- The slots of a tile from source offset `a` to before `b` take the load's tag once its CRC has passed, since a retry reads them
again; the slot that the next tile begins in takes it behind that tile (R186, R249, R252). -/
def LoadOp.tileSlots (l : LoadOp) (w : DWord) (a b : Nat) (last : Bool) : List Region :=
  let lo := (l.src + a) / 1024
  let hi := if last then (l.src + b + 1023) / 1024 else (l.src + b) / 1024
  if l.tierA ∨ hi ≤ lo then [] else [{ lo := 1024 * lo, len := 1024 * (hi - lo), wr := false, act := tagIn w }]

/-- The bytes of a load's source that it has read already. -/
def srcBytes (gb : Nat) (e : Entry) (l : LoadOp) (off n : Nat) : Act (List Byte) := do
  let s ← get
  let x ← entryNow gb e
  pure (if l.tierA then (arrived x.outs (l.src + off) n).getD [] else s.bytes (spadBase gb + l.src + off) n)

/-- The tile whose header is the last of those that the entry keeps: its metadata, its rows and its CRC, each a step. -/
def loadTile (gb p : Nat) (env : EngEnv) (e : Entry) (l : LoadOp) (t : TilePos) (h : TileHdr) : Act Unit := do
  let gp := potIx gb p
  let mLen := h.rgCount * metaBytes h.cls
  let body := tileBody h.cls h.rgCount
  let meta_ : Act Unit := do
    if l.tierA then tierAsk gb p e (l.src + t.off + 16) (l.src + t.off + 16 + body) else pure ()
    let mb ← loadBytes gb p env e l (t.off + 16) mLen
    tileMeta gp h mb
  let rows := (List.range (32 * h.rgCount)).map (fun i => do
    let bs ← if h.cls = 3 then pure [] else loadBytes gb p env e l (t.off + 16 + mLen + 128 * i) 128
    tileRow gp h i bs)
  let close : Act Unit := do
    let bs ← srcBytes gb e l (t.off + 16) body
    tileCrc gp env h bs
    applyTags gb (l.tileSlots e.word t.off (t.off + 16 + body) (decide (l.rowFirst + l.rows ≤ 32 * (h.rgFirst + h.rgCount))))
  goOn gb e 1 (meta_ :: rows ++ [close])

/-- The headers that 16-byte runs spell. -/
def tileHdrs : Nat → List Byte → List TileHdr
  | 0, _ => []
  | n + 1, bs => if bs.length < 16 then [] else TileHdr.ofBytes (bs.take 16) :: tileHdrs n (bs.drop 16)

/-- The tiles of a load that remain, up to `fuel` of them (R184 to R186). The entry keeps the headers read; its stage counts the
steps of the last one's tile, 0 where that is complete. -/
def loadTiles (gb p role : Nat) (env : EngEnv) (e : Entry) (l : LoadOp) (start : TilePos) : Nat → Act Unit
  | 0 => pure ()
  | fuel + 1 => do
    let gp := potIx gb p
    let x ← entryNow gb e
    let hs := tileHdrs 32 x.kept
    if x.stage = 0 then
      let t := hs.foldl TilePos.past start
      if l.rowFirst + l.rows ≤ 32 * t.next then pure ()
      else
        Act.check (!l.tierA && decide (393216 < l.src + t.off + 16)) 0x0106
        let hb ← loadBytes gb p env e l t.off 16
        let h := TileHdr.ofBytes hb
        tileHead gp role l t h
        Act.check (!l.tierA && decide (393216 < l.src + t.off + 16 + tileBody h.cls h.rgCount)) 0x0106
        modNow gb e (fun y => { y with kept := y.kept ++ hb, stage := 1 })
        loadTile gb p env e l t h
        modNow gb e (fun y => { y with stage := 0 })
        loadTiles gb p role env e l start fuel
    else
      match hs.getLast? with
      | none => pure ()
      | some h =>
        loadTile gb p env e l (hs.dropLast.foldl TilePos.past start) h
        modNow gb e (fun y => { y with stage := 0 })
        loadTiles gb p role env e l start fuel

/-- The headers of a tiled source in the scratchpad are waited for, one after the other, so that its length is known at issue (R302;
DESIGN CHOICE, assumption log 85). -/
def awaitHeaders (gb : Nat) (w : DWord) (a : Nat) (rgs : Nat) : Nat → Act Unit
  | 0 => pure ()
  | fuel + 1 => do
    if 393216 < a + 16 then pure ()
    else
      awaitTags gb [{ lo := a, len := 16, wr := false, act := tagIn w }]
      let s ← get
      let h := TileHdr.ofBytes (s.bytes (spadBase gb + a) 16)
      if h.rgCount = 0 ∨ rgs ≤ h.rgCount then pure ()
      else awaitHeaders gb w (a + 16 + tileBody h.cls h.rgCount) (rgs - h.rgCount) fuel

/-- A tiled load (R184 to R187). -/
def tiledLoad (gb p : Nat) (env : EngEnv) (e : Entry) : Act Unit := do
  let gp := potIx gb p
  let l := e.load
  let x ← entryNow gb e
  if x.stage = 0 ∧ x.kept.isEmpty = true ∧ x.asked = 0 then
    let s ← get
    match loadChecks s gp l true (s.rd Reg.POT_CFG_ROLE gp) with
    | some c => Act.fault c
    | none => pure ()
    if l.tierA then pure () else awaitHeaders gb e.word l.src (l.rows / 32) 32
    let n := s.tiledLen (if l.tierA then l.src else spadBase gb + l.src) (l.rows / 32) 32
    Act.check (decide ((if l.tierA then 0x8000000000 else 393216) < l.src + n)) 0x0106
    Act.check (l.tierA && !s.tierOk gb l.src n false) 0x0704 l.src
    modify (fun s => s.flag Reg.POT_CFG_VALID gp false)
  else pure ()
  let s ← get
  loadTiles gb p (s.rd Reg.POT_CFG_ROLE gp) env e l (s.tileStart gp l) 33
  let hs := tileHdrs 32 (← entryNow gb e).kept
  modify (fun s => ((s.showTiles gp true).loadDone gp ((hs.head?.map TileHdr.wfmt).getD 0) (l.rows == 1024)).tiledShadow gp l true)

/-- TILED_LOAD (R185): a POT_LOAD of a pot whose role makes it tiled. -/
def execTiledLoad (gb p : Nat) (env : EngEnv) (s : State) : Host.Outcome State Fault Refusal :=
  okIf (gb < 2560 && p < 16)
    (if !tiledPot (s.rd Reg.POT_CFG_ROLE (potIx gb p)) p then s
    else s.runPot gb p env (fun e => opc e.word == 0x12) (fun e => onFault (fun s => s.loadFaulted gb p e)) (tiledLoad gb p env))

/-! ### The update descriptor -/

/-- The fields of an update descriptor (R211), with IREG applied. -/
structure Upd where
  op : Nat
  rnd : Bool
  rowFirst : Nat
  rows : Nat
  deltaEn : Bool
  resIn : Bool
  resOut : Bool
  wfmt : Nat
  a : Nat
  asign : Bool
  align : Bool
  data : Nat
  dscale : Nat
  res : Nat
  table : Nat
  wtarget : Nat
  rtarget : Nat
  deriving DecidableEq, Repr

def Entry.upd (e : Entry) : Upd :=
  let w0 := e.dw 0; let w1 := e.dw 1
  { op := fld w0 63 62, rnd := fld w0 61 61 = 1, rowFirst := fld w0 60 51, rows := fld w0 50 40, deltaEn := fld w0 39 39 = 1,
    resIn := fld w0 38 38 = 1, resOut := fld w0 37 37 = 1, wfmt := fld w0 36 34, a := fld w0 33 31 + 1,
    asign := fld w0 30 30 = 1, align := fld w0 29 29 = 1, data := e.inAddr (fld w1 63 50), dscale := fld w1 49 36,
    res := fld w1 35 22, table := fld w1 21 8, wtarget := 128 * fld (e.dw 2) 63 32, rtarget := 128 * fld (e.dw 3) 63 32 }

/-- The descriptor breaks POT_DESC (R204, R211). A sweep whose WFMT names no format breaks POT_FMT instead, since no pot holds it. -/
def updDescBad (e : Entry) : Bool :=
  let d := e.upd
  decide (2 ≤ d.op) || fld (e.dw 0) 28 0 != 0 || fld (e.dw 1) 7 0 != 0 || fld (e.dw 2) 31 0 != 0 || fld (e.dw 3) 31 0 != 0 ||
  (d.op == 1 && (d.rnd || decide (6 ≤ d.wfmt)))

/-- RB and UB of a format (R209). -/
def WFmt.rb (f : WFmt) : Nat := f.outputs / 2
def WFmt.ub (f : WFmt) : Nat := 8 * ceilDiv f.perSeg 32

/-- The update blocks of a row: first weight and count of each (R208). -/
def WFmt.updBlocks (f : WFmt) : List (Nat × Nat) :=
  (List.range 8).flatMap (fun sg => (List.range (ceilDiv f.perSeg 32)).map (fun k =>
    (sg * f.perSeg + 32 * k, min 32 (f.perSeg - 32 * k))))

/-- The regions of a sweep (R211, R298). -/
def Upd.sweepRegions (d : Upd) (f : WFmt) (w : DWord) : List Region :=
  (if d.deltaEn then [⟨32 * d.data, 32 * d.rows * f.ub, false, tagIn w⟩, ⟨32 * d.dscale, d.rows * f.ub, false, tagIn w⟩]
   else []) ++
  (if d.resIn then [⟨32 * d.res, d.rows * f.rb, false, tagIn w⟩] else [])

/-- NB of a working load's source (R203). -/
def WFmt.nb (f : WFmt) : Nat := ceilDiv f.outputs 32

/-- The elements of block `b` of a row that stand for outputs (R203). -/
def WFmt.realIn (f : WFmt) (b : Nat) : Nat := min 32 (f.outputs - 32 * b)

/-- The bytes of one row's payload that are read: those past the last output are not (R203). -/
def Upd.rowLen (d : Upd) (f : WFmt) : Nat := (f.nb - 1) * (4 * d.a) + ceilDiv (f.realIn (f.nb - 1) * d.a) 8

/-- The payload and the scale bytes of row `t` of a working load. -/
def Upd.payload (d : Upd) (f : WFmt) (w : DWord) (t : Nat) : Region :=
  ⟨32 * d.data + t * f.nb * (4 * d.a), d.rowLen f, false, tagIn w⟩
def Upd.rowScales (d : Upd) (f : WFmt) (w : DWord) (t n : Nat) : Region := ⟨32 * d.dscale + t * f.nb, n * f.nb, false, tagIn w⟩

/-- The exponent table of a working load. -/
def Upd.tableRegion (d : Upd) (f : WFmt) (w : DWord) : Region :=
  if d.align then ⟨32 * d.table, 2 * f.outputs, false, 0⟩ else ⟨32 * d.table, 2 * f.outputs, true, tagOut w⟩

/-- The regions of a working load (R203, R298). -/
def Upd.workRegions (d : Upd) (f : WFmt) (w : DWord) : List Region :=
  [⟨32 * d.data, (d.rows - 1) * (f.nb * (4 * d.a)) + d.rowLen f, false, tagIn w⟩, d.rowScales f w 0 d.rows, d.tableRegion f w]

/-! ### The sweep -/

/-- The outcome of one weight of a sweep (R212): the new value, the new residue, and whether the weight, the residue were
clamped and a delta bit was lost. -/
structure SweepOut where
  w : Int
  r : Int
  wClamp : Bool
  rClamp : Bool
  dLoss : Bool
  deriving DecidableEq, Repr

/-- The lowest and highest value of a format (R212). -/
def WFmt.lo : WFmt → Int
  | .w4 => -8 | .w3 => -4 | .w2 => -2 | .wt => -1 | .wb => -1 | .w5 => -16
def WFmt.hi : WFmt → Int
  | .w4 => 7 | .w3 => 3 | .w2 => 1 | .wt => 1 | .wb => 1 | .w5 => 15

/-- One weight of a sweep (R212): stored value w, old residue r, delta d at scale e, and the draw under stochastic rounding. -/
def sweepWeight (f : WFmt) (w r d : Int) (e : Nat) (u : Option Nat) : SweepOut :=
  let wb := f == WFmt.wb
  let k : Int := (e : Int) - (if wb then 110 else 111)
  let dd := if 0 ≤ k then d * (2 ^ k.toNat : Nat) else rne d (-k).toNat
  let lost := decide (k < 0) && decide (d % (2 ^ (-k).toNat : Nat) ≠ 0)
  let up := fun (x : Int) (sh : Nat) => match u with
    | none => rne x sh
    | some dr => stochastic x sh dr
  if wb then
    let x := (w + 1) * 65536 + r * 16384 + dd
    let c := clampTo (-1) 1 (2 * up x 17 - 1)
    let r2 := clampTo (-8) 7 (rne (x - (c.1 + 1) * 65536) 14)
    ⟨c.1, r2.1, c.2, r2.2, lost⟩
  else
    let x := w * 65536 + r * 8192 + dd
    let c := clampTo f.lo f.hi (up x 16)
    let r2 := clampTo (-8) 7 (rne (x - c.1 * 65536) 13)
    ⟨c.1, r2.1, c.2, r2.2, lost⟩

/-- The raw columns of a value (R49, R212). -/
def WFmt.encode (f : WFmt) (v : Int) : Nat :=
  match f with
  | .wt => if v = 1 then 1 else if v = -1 then 2 else 0
  | .wb => if v = 1 then 1 else 0
  | _ => pattern f.cols v

/-- Whether weight i of row r of a pot is a kept slot or dense (R188). -/
def State.weightKept (s : State) (gp : Nat) (f : WFmt) (r i : Nat) : Bool :=
  let cls := (s.potx gp).cls (r / 32)
  (elemAt cls (s.metaAt gp cls (r / 32) (f.col i)) (r % 32)).isSome

/-- One row of a sweep: the new row, the residue image, and the counts of R225. -/
structure SweepRow where
  row : Nat
  res : List Byte
  wClamps : Nat
  rClamps : Nat
  dLoss : Bool
  deriving DecidableEq, Repr

/-- Row r of a sweep (R209, R210, R212, R213): `x0` is the substream before the row, `delta i` and `scale b` the row's own
bytes, `oldRes` its residue bytes as a number. -/
def State.sweepRow (s : State) (gp : Nat) (f : WFmt) (d : Upd) (r : Nat) (x0 : DWord) (delta : Nat → Nat → Int)
    (scale : Nat → Nat) (oldRes : Nat) : SweepRow :=
  let row := s.row gp r
  let outs := (f.updBlocks.mapIdx (fun b blk => (List.range blk.2).map (fun k =>
    let i := blk.1 + k
    if s.weightKept gp f r i then
      let u := if d.rnd then some (prngDraw (prngSkip i x0)).2 else none
      (i, sweepWeight f (f.value (rawWeight f row i)) (if d.resIn then signed 4 (oldRes / 16 ^ i) else 0)
        (if d.deltaEn then delta b k else 0) (if d.deltaEn then scale b else 127) u, true)
    else (i, ⟨0, 0, false, false, false⟩, false)))).flatten
  { row := (outs.map (fun o => if o.2.2 then f.encode o.2.1.w * 2 ^ f.col o.1 else 0)).sum,
    res := leBytes f.rb ((outs.map (fun o => pattern 4 o.2.1.r * 16 ^ o.1)).sum),
    wClamps := (outs.filter (fun o => o.2.1.wClamp)).length, rClamps := (outs.filter (fun o => o.2.1.rClamp)).length,
    dLoss := outs.any (fun o => o.2.1.dLoss) }

/-- The tile of row group g in a set: first row group and count of the run of one class (R188, R218; the runs are taken as
the tiles, DESIGN CHOICE, assumption log 14). -/
def PotX.tileOf (x : PotX) (g : Nat) : Nat × Nat :=
  let lo := ((List.range (g + 1)).filter (fun k => (upFrom k (g - k)).all (fun j => x.cls j == x.cls g))).headD g
  let n := ((upFrom g (32 - g)).takeWhile (fun j => x.cls j == x.cls g)).length
  (lo, g - lo + n)

/-- The byte offset of tile `lo` in the image of a tiled set (R184). -/
def PotX.tileOff (x : PotX) (lo : Nat) : Nat :=
  ((List.range lo).map (fun g =>
    (if (x.tileOf g).1 = g then 16 else 0) + tileBody (x.cls g) 1)).sum

/-- The 16 header bytes of a tile of the set as it stands in the cells (R184, R218). -/
def State.tileHeader (s : State) (gp lo n : Nat) : List Byte :=
  let x := s.potx gp
  let c := x.cls lo
  let wf := s.rd Reg.POT_CFG_WFMT gp
  let body := s.metaImage gp c lo n ++
    (if c = 3 then [] else (upFrom (32 * lo) (32 * n)).flatMap (fun r => leBytes 128 (s.row gp r)))
  let crc := if c = 3 then 0 else crc32c body
  leBytes 8 (0xD5 * 2 ^ 56 + c * 2 ^ 54 + wf * 2 ^ 51 + lo * 2 ^ 46 + n * 2 ^ 40 +
    (if c = 3 then 0 else x.logBlock lo) * 2 ^ 33 + n * metaBytes c * 2 ^ 19) ++ leBytes 8 (crc * 2 ^ 32)

/-- What the emission of row r writes, address and bytes: its image, its residue row, and for a tiled set its place in the tile
image with the header and metadata at a tile's first row and the header again at its last (R216, R218). -/
def State.rowEmission (s : State) (gp : Nat) (d : Upd) (f : WFmt) (tiled : Bool) (r : Nat) (res : List Byte) : List (Nat × List Byte) :=
  let img := leBytes 128 (s.row gp r)
  let x := s.potx gp
  let t := x.tileOf (r / 32)
  let c := x.cls (r / 32)
  let base := d.wtarget + x.tileOff t.1
  let mLen := t.2 * metaBytes c
  (if tiled then
    (if r = 32 * t.1 then [(base, s.tileHeader gp t.1 t.2 ++ s.metaImage gp c t.1 t.2)] else []) ++
    (if c = 3 then [] else [(base + 16 + mLen + 128 * (r - 32 * t.1), img)]) ++
    (if r + 1 = 32 * (t.1 + t.2) then [(base, s.tileHeader gp t.1 t.2)] else [])
  else [(d.wtarget + 128 * r, img)]) ++
  (if d.resOut then [(d.rtarget + f.rb * r, res)] else [])

/-- The regions of row `i` of a sweep (R211). -/
def Upd.rowRegions (d : Upd) (f : WFmt) (w : DWord) (i : Nat) : List Region :=
  (if d.deltaEn then [⟨32 * (d.data + i * f.ub), 32 * f.ub, false, tagIn w⟩, ⟨32 * d.dscale + i * f.ub, f.ub, false, tagIn w⟩]
   else []) ++
  (if d.resIn then [⟨32 * d.res + i * f.rb, f.rb, false, tagIn w⟩] else [])

/-- The bytes of one row's deltas, scales and old residues, as the entry keeps them, and where they divide. -/
def Upd.inBytes (d : Upd) (f : WFmt) : Nat := (if d.deltaEn then 33 * f.ub else 0) + (if d.resIn then f.rb else 0)
def Upd.divide (d : Upd) (f : WFmt) (bs : List Byte) : List Byte × List Byte × List Byte :=
  let k := if d.deltaEn then 32 * f.ub else 0
  let n := if d.deltaEn then f.ub else 0
  (bs.take k, (bs.drop k).take n, bs.drop (k + n))

/-- The deltas, scales and old residues of row `i` read from the scratchpad (R211). -/
def sweepInputs (gb : Nat) (env : EngEnv) (e : Entry) (d : Upd) (f : WFmt) (i : Nat) : Act Unit :=
  (d.rowRegions f e.word i).forM (fun r => do
    let bs ← spadRead gb env r.lo r.len
    modNow gb e (fun x => { x with kept := x.kept ++ bs }))

/-- The read cycle of row `i`: its row witnesses, reread once at two cycles of RETRY, and its scales before its first draw (R212,
R215). -/
def sweepVerify (gb p : Nat) (env : EngEnv) (e : Entry) (d : Upd) (f : WFmt) (i : Nat) : Act Unit := do
  let gp := potIx gb p
  let r := d.rowFirst + i
  let s ← get
  let evs := env.wit.filter (fun v => v.pos == r)
  let _ ← witCheck gp 0 (r / 32) (r % 32) true 0x0162 (fun s => s.bump Reg.POT_FRZ_RETRY_COUNT gp 2) evs (s.rowPairs gp f r evs)
  let x ← entryNow gb e
  let sb := (d.divide f (x.kept.drop (x.kept.length - d.inBytes f))).2.1
  Act.check (sb.any (fun b => b.toNat == 255 ||
    decide (19 < (b.toNat : Int) - (if f == WFmt.wb then 110 else 111)))) 0x0160

/-- Row `i` computed, written and emitted; NEXT_ROW follows it (R212, R213, R216, R225). A row whose bytes the 64 KiB emission buffer
cannot take is not accepted, and waits unwritten (R44, R216, R335). -/
def sweepWrite (gb p : Nat) (e : Entry) (d : Upd) (f : WFmt) (tiled : Bool) (i : Nat) : Act Unit := do
  let gp := potIx gb p
  let r := d.rowFirst + i
  let s ← get
  let x ← entryNow gb e
  let v := d.divide f (x.kept.take (d.inBytes f))
  let x0 := s.prngOf gb p
  let o := s.sweepRow gp f d r x0 (fun b k => signed 8 ((v.1.getD (32 * b + k) 0).toNat))
    (fun b => (v.2.1.getD b 0).toNat) (ofBytes v.2.2)
  let t := s.setRow gp r o.row
  let out := t.rowEmission gp d f tiled r o.res
  if 65536 < s.emitHeld gb + (out.map (fun w => w.2.length)).sum then Act.wait 10 p else pure ()
  let t := if d.rnd then t.setPrng gb p (prngSkip f.outputs x0) else t
  let t := t.bump Reg.POT_UPD_CLAMP_WEIGHT gp o.wClamps
  let t := t.bump Reg.POT_UPD_CLAMP_RESIDUE gp o.rClamps
  let t := t.bump Reg.POT_UPD_ROWS_COUNT gp
  let t := if o.dLoss then t.flag Reg.POT_UPD_STATUS_DLOSS gp true else t
  set ((out.foldl (fun u w => u.emitRow gb p w.1 w.2 64) t).wr Reg.POT_UPD_STATUS_NEXT_ROW gp (r + 1))
  modNow gb e (fun y => { y with kept := y.kept.drop (d.inBytes f) })

/-- A sweep is in place where its target is the shadow at issue (R217). -/
def State.sweepInPlace (s : State) (gp : Nat) (d : Upd) : Bool :=
  s.on Reg.POT_INTEG_SHADOW_OK gp && d.wtarget == 128 * s.rd Reg.POT_SHADOW_ADDR gp

/-- A sweep continues the open run (R217). -/
def State.sweepContinues (s : State) (gp : Nat) (d : Upd) : Bool :=
  s.on Reg.POT_UPD_STATUS_RUN gp && d.wtarget == 128 * s.rd Reg.POT_UPD_RUN_ADDR gp &&
    d.rowFirst == s.rd Reg.POT_UPD_STATUS_RUN_NEXT gp

/-- The shadow state when a sweep retires (R217); `inPlace` is as it was at issue. -/
def State.sweepShadow (s : State) (gp : Nat) (d : Upd) (inPlace : Bool) : State :=
  let t := d.wtarget / 128
  if inPlace then s
  else if d.rowFirst = 0 ∧ d.rows = 1024 then
    ((s.dropRun gp).flag Reg.POT_INTEG_SHADOW_OK gp true).wr Reg.POT_SHADOW_ADDR gp t
  else if d.rowFirst = 0 then
    let s := (s.flag Reg.POT_INTEG_SHADOW_OK gp false).flag Reg.POT_UPD_STATUS_RUN gp true
    (s.wr Reg.POT_UPD_RUN_ADDR gp t).wr Reg.POT_UPD_STATUS_RUN_NEXT gp d.rows
  else if s.sweepContinues gp d then
    let s := s.wr Reg.POT_UPD_STATUS_RUN_NEXT gp (d.rowFirst + d.rows)
    if d.rowFirst + d.rows = 1024 then
      ((s.dropRun gp).flag Reg.POT_INTEG_SHADOW_OK gp true).wr Reg.POT_SHADOW_ADDR gp t
    else s
  else (s.dropRun gp).flag Reg.POT_INTEG_SHADOW_OK gp false

/-- The shadow state after a sweep that faulted past its first read (R222). -/
def State.sweepFaulted (s : State) (gp : Nat) (d : Upd) (inPlace : Bool) : State :=
  let go := inPlace || s.sweepContinues gp d || d.rowFirst == 0
  let s := s.flag Reg.POT_INTEG_SHADOW_OK gp false
  if go then
    let s := s.flag Reg.POT_UPD_STATUS_RUN gp true
    (s.wr Reg.POT_UPD_RUN_ADDR gp (d.wtarget / 128)).wr Reg.POT_UPD_STATUS_RUN_NEXT gp (s.rd Reg.POT_UPD_STATUS_NEXT_ROW gp)
  else s.dropRun gp

/-- The state that a fault of a sweep leaves, or its abandonment: before its first row is read nothing but NEXT_ROW changes
(R217, R222). -/
def State.sweepStopped (s : State) (gb p : Nat) (e : Entry) : State :=
  let x := ((s.seq gb).window.find? (fun y => y.id == e.id)).getD e
  if x.stage = 0 then s.wr Reg.POT_UPD_STATUS_NEXT_ROW (potIx gb p) e.upd.rowFirst
  else s.sweepFaulted (potIx gb p) e.upd x.inPlace

/-- The first of the checks that fails. -/
def updChecks (cs : List (Bool × Nat)) : Act Unit :=
  match cs.find? (fun c => c.1) with
  | some c => Act.fault c.2
  | none => pure ()

/-- The steps of a sweep's `n` rows. A row is read before the one ahead of it is written (R214), so a row that faults leaves the one
ahead of it unwritten (DEDUCED, assumption log 79). -/
def sweepSteps (gb p : Nat) (env : EngEnv) (e : Entry) (d : Upd) (f : WFmt) (tiled : Bool) (n : Nat) : List (Act Unit) :=
  let plan := (List.range n).map (d.rowRegions f e.word)
  (List.range n).flatMap (fun i => [paced gb plan i (sweepInputs gb env e d f i), sweepVerify gb p env e d f i] ++
    (if i = 0 then [] else [sweepWrite gb p e d f tiled (i - 1)])) ++ [sweepWrite gb p e d f tiled (n - 1)]

/-- An update sweep (R208 to R222). -/
def sweep (gb p : Nat) (env : EngEnv) (e : Entry) : Act Unit := do
  let gp := potIx gb p
  let d0 := e.upd
  let s ← get
  let role := s.rd Reg.POT_CFG_ROLE gp
  let f := (WFmt.ofNum d0.wfmt).getD .w4
  let d := if e.empty then d0 else { d0 with rows := clip d0.rows e.remN }
  let tiled := s.on Reg.POT_SP_CFG_TILED (spIx gp) && decide (12 ≤ p)
  if (← entryNow gb e).stage = 0 then
    updChecks [(updDescBad e, 0x0103), (s.potOff.get false gp || (role != 0 && role != 2), 0x0101), (!s.on Reg.POT_CFG_VALID gp, 0x0102),
      (d.wfmt != s.rd Reg.POT_CFG_WFMT gp, 0x0104), (d.wfmt == 5, 0x0161),
      (d.rows == 0 || decide (1024 < d.rowFirst + d.rows) || (d.sweepRegions f e.word).any Region.past, 0x0106),
      (!s.tierOk gb (d.wtarget + 128 * d.rowFirst) (128 * d.rows) true ||
        (d.resOut && !s.tierOk gb (d.rtarget + f.rb * d.rowFirst) (f.rb * d.rows) true), 0x0704),
      (tagSelf (d.sweepRegions f e.word), 0x0503)]
  else pure ()
  if e.empty then
    awaitTags gb (d.sweepRegions f e.word)
    applyTags gb (d.sweepRegions f e.word)
    modify (fun s => s.bump Reg.SEQ_EMPTY_CNT_COUNT gb)
  else
    if (← entryNow gb e).stage = 0 then
      modify (fun s => s.wr Reg.POT_UPD_STATUS_NEXT_ROW gp d.rowFirst)
      modNow gb e (fun x => { x with inPlace := s.sweepInPlace gp d })
    else pure ()
    goOn gb e 0 (sweepSteps gb p env e d f tiled d.rows)
    let x ← entryNow gb e
    modify (fun s => s.sweepShadow gp d x.inPlace)

/-- UPDATE_SWEEP (R212, R301): POT_UPD with descriptor OP 0b00, or with a reserved OP, which faults (R211). -/
def execUpdateSweep (gb p : Nat) (env : EngEnv) (s : State) : Host.Outcome State Fault Refusal :=
  okIf (gb < 2560 && p < 16)
    (s.runPot gb p env (fun e => opc e.word == 0x11 && e.upd.op != 1) (fun e => onFault (fun s => s.sweepStopped gb p e))
      (sweep gb p env))

/-! ### The working load -/

/-- One element of a working load moved from exponent e to E: the value, whether a bit was lost, whether it was clamped
(R204). -/
def workElem (f : WFmt) (x : Int) (sh : Int) : Int × Bool × Bool :=
  let y := if 0 ≤ sh then x * (2 ^ sh.toNat : Nat) else rne x (-sh).toNat
  let lost := decide (sh < 0) && decide (x % (2 ^ (-sh).toNat : Nat) ≠ 0)
  let c := clampTo f.lo f.hi y
  (c.1, lost, c.2)

/-- Element i of block b of row t of a working load's source, 0 past the last output (R54, R203). -/
def State.workSrc (s : State) (gb : Nat) (d : Upd) (f : WFmt) (t b i : Nat) : Int :=
  let n := s.num (spadBase gb + 32 * d.data + (t * f.nb + b) * (4 * d.a)) (if b + 1 = f.nb then ceilDiv (f.realIn b * d.a) 8 else 4 * d.a)
  if i < f.realIn b then (if d.asign then signed d.a (n / 2 ^ (d.a * i)) else (n / 2 ^ (d.a * i) % 2 ^ d.a : Nat)) else 0

/-- The scale byte of block b of row t of that source. -/
def State.workScale (s : State) (gb : Nat) (d : Upd) (f : WFmt) (t b : Nat) : Nat := s.num (spadBase gb + 32 * d.dscale + t * f.nb + b) 1

/-- E(b) under ALIGN = 0: the largest e(t, b) + s(t, b) of the load's rows (R204). -/
def State.workMax (s : State) (gb : Nat) (d : Upd) (f : WFmt) (b : Nat) : Nat :=
  (List.range d.rows).foldl (fun m t => max m (s.workScale gb d f t b +
    (((List.range 32).foldl (fun k i => max k (sbits (s.workSrc gb d f t b i))) 0) - f.cols))) 0

/-- Row t of a working load aligned and written; `ex b` is E(b) (R204, R205). -/
def workRow (gb p : Nat) (d : Upd) (f : WFmt) (ex : Nat → Nat) (t : Nat) : Act Unit := do
  let gp := potIx gb p
  let s ← get
  let outs := (List.range f.outputs).map (fun i =>
    (i, workElem f (s.workSrc gb d f t (i / 32) (i % 32)) ((s.workScale gb d f t (i / 32) : Int) - ex (i / 32))))
  modify (fun s =>
    let s := s.setRow gp (d.rowFirst + t) ((outs.map (fun o => f.encode o.2.1 * 2 ^ f.col o.1)).sum)
    let s := if outs.any (fun o => o.2.2.1) then s.flag Reg.POT_UPD_STATUS_WLOSS gp true else s
    let s := if outs.any (fun o => o.2.2.2) then s.flag Reg.POT_UPD_STATUS_WSAT gp true else s
    s.wr Reg.POT_UPD_STATUS_NEXT_ROW gp (d.rowFirst + t + 1))

/-- The reads of some regions, in order. -/
def readRegions (gb : Nat) (env : EngEnv) (rs : List Region) : Act Unit := rs.forM (fun r => do
  let _ ← spadRead gb env r.lo r.len
  pure ())

/-- The steps of a working load (R205), each with the regions it touches. Under ALIGN = 0: the scale bytes of all rows, the scan of
every row, the rows again to write them, and the table. Under ALIGN = 1: the table, and each row with its scale bytes. A slot takes its
tag in the write stage at the earliest. -/
def workSteps (gb p : Nat) (env : EngEnv) (e : Entry) (d : Upd) (f : WFmt) : List (List Region × Act Unit) :=
  let w := e.word
  let rows := List.range d.rows
  let bad := fun (s : State) t => (List.range f.nb).any (fun b => s.workScale gb d f t b == 255)
  let row := fun t => [d.payload f w t, d.rowScales f w t 1]
  let tab := d.tableRegion f w
  if d.align then
    ([tab], do
      let bs ← spadRead gb env tab.lo tab.len
      Act.check ((List.range f.nb).any (fun b => (bs.getD (64 * b) 0).toNat == 255)) 0x0165
      modNow gb e (fun x => { x with kept := bs })) ::
    rows.map (fun t => (row t, do
      readRegions gb env [d.rowScales f w t 1]
      let s ← get
      Act.check (bad s t) 0x0165
      readRegions gb env [d.payload f w t]
      let x ← entryNow gb e
      workRow gb p d f (fun b => (x.kept.getD (64 * b) 0).toNat) t))
  else
    ([d.rowScales f w 0 d.rows], do
      readRegions gb env [d.rowScales f w 0 d.rows]
      let s ← get
      Act.check (rows.any (bad s)) 0x0165) ::
    rows.map (fun t => ([d.payload f w t], readRegions gb env [d.payload f w t])) ++
    [([], do
      let s ← get
      let ex := (List.range f.nb).map (s.workMax gb d f)
      Act.check (ex.any (fun x => decide (254 < x))) 0x0165
      modNow gb e (fun x => { x with kept := ex.map (BitVec.ofNat 8) }))] ++
    rows.map (fun t => (row t, do
      readRegions gb env [d.payload f w t]
      let x ← entryNow gb e
      workRow gb p d f (fun b => (x.kept.getD b 0).toNat) t)) ++
    [([tab], do
      let x ← entryNow gb e
      spadPut gb env tab.lo ((List.range f.outputs).flatMap (fun i => [x.kept.getD (i / 32) 0, 0#8])))]

/-- A working load (R202 to R206). -/
def workLoad (gb p : Nat) (env : EngEnv) (e : Entry) : Act Unit := do
  let gp := potIx gb p
  let d0 := e.upd
  let s ← get
  let f := (WFmt.ofNum d0.wfmt).getD .w4
  let d := if e.empty then d0 else { d0 with rows := clip d0.rows e.remN }
  let rs := d.workRegions f e.word
  if (← entryNow gb e).stage = 0 then
    updChecks [(updDescBad e, 0x0103), (s.potOff.get false gp || s.rd Reg.POT_CFG_ROLE gp != 1, 0x0101), (d.wfmt == 3 || d.wfmt == 4, 0x0164),
      (d.rows == 0 || decide (1024 < d.rowFirst + d.rows) || rs.any Region.past, 0x0106),
      (decide (d.rows < 1024) && d.wfmt != s.rd Reg.POT_CFG_WFMT gp, 0x010A), (tagSelf rs, 0x0503)]
  else pure ()
  if e.empty then
    awaitTags gb rs
    applyTags gb rs
    modify (fun s => s.bump Reg.SEQ_EMPTY_CNT_COUNT gb)
  else
    let steps := workSteps gb p env e d f
    let plan := [] :: steps.map Prod.fst
    let start : Act Unit := modify (fun s => (((s.flag Reg.POT_CFG_VALID gp false).dropRun gp).flag Reg.POT_INTEG_SHADOW_OK gp false).wr
      Reg.POT_UPD_STATUS_NEXT_ROW gp d.rowFirst)
    goOn gb e 0 (start :: steps.mapIdx (fun k q => paced gb plan (k + 1) q.2))
    modify (fun s => s.loadDone gp d.wfmt (d.rows == 1024))

/-- The state that a fault of a working load leaves: no shadow and no open run, at issue too (R141, R205, R217). -/
def State.workStopped (s : State) (gb p : Nat) (e : Entry) : State :=
  let gp := potIx gb p
  let x := ((s.seq gb).window.find? (fun y => y.id == e.id)).getD e
  let s := (s.dropRun gp).flag Reg.POT_INTEG_SHADOW_OK gp false
  if x.stage = 0 then s.wr Reg.POT_UPD_STATUS_NEXT_ROW gp e.upd.rowFirst else s

/-- WORKING_LOAD (R204, R301): POT_UPD with descriptor OP 0b01. -/
def execWorkingLoad (gb p : Nat) (env : EngEnv) (s : State) : Host.Outcome State Fault Refusal :=
  okIf (gb < 2560 && p < 16)
    (s.runPot gb p env (fun e => opc e.word == 0x11 && e.upd.op == 1) (fun e => onFault (fun s => s.workStopped gb p e))
      (workLoad gb p env))

/-- The first address of an emission and its pot: the transfer's own, and each further emitted piece's. -/
def Xfer.emitted (x : Xfer) : List (Nat × Nat × Nat) :=
  (if x.emission then [(x.pot, x.ext, 1)] else []) ++
  (x.pieces.filter Piece.emitted).map (fun p => (p.pot.getD x.pot, x.ext + p.off, p.len))

/-- What follows (R223, R335) from the lasting failure of the emitted rows of a transfer: the front end reports DMA_EMIT, each pot
POT_UPD_EMIT, and the shadow or an open run of a pot that holds one of its failed addresses is given up. -/
def State.emissionLost (s : State) (x : Xfer) : State :=
  let s := s.noteExt x.gb x.ext
  let s := s.benchReport x.gb 19 0x070A x.ext
  let s := ((x.emitted.map Prod.fst).eraseDups).foldl (fun t p => t.benchReport x.gb p 0x0163 0) s
  x.emitted.foldl (fun t q =>
    let gp := potIx x.gb q.1
    let len := if 12 ≤ q.1 ∧ t.on Reg.POT_SP_CFG_TILED (spIx gp) = true then (t.potx gp).tileOff 32 else 131072
    let inImage := fun a : Nat => decide (128 * a < q.2.1 + q.2.2) && decide (q.2.1 < 128 * a + len)
    if inImage (t.rd Reg.POT_SHADOW_ADDR gp) || (t.on Reg.POT_UPD_STATUS_RUN gp && inImage (t.rd Reg.POT_UPD_RUN_ADDR gp)) then
      (t.dropRun gp).flag Reg.POT_INTEG_SHADOW_OK gp false
    else t) s

end Sys2Proof.Machine
end

