-- ==== Sys2Proof/Machine/Dma.lean ====
section
/-! DEFINITION. The DMA front end: transfer descriptors (R324 to R328), the tracker and the regulator (R322, R330), and the
life of a transfer (R329 to R335). -/

namespace Sys2Proof.Machine

open Sys2Proof

/-! ### The descriptor -/

/-- The fields of a transfer descriptor (R324), with IREG applied. -/
structure DmaOp where
  op : Nat
  tgt : Nat
  walk : Bool
  table : Nat
  rtag : Nat
  rows : Nat
  rowLen : Nat
  spad : Nat
  ext : Nat
  stride : Int
  w0 : Int
  w1 : Int
  spadStride : Nat
  nbuf : Nat
  bufStride : Nat
  deriving DecidableEq, Repr

def Entry.dma (e : Entry) : DmaOp :=
  { op := fld (e.dw 0) 63 61, tgt := fld (e.dw 0) 60 59, walk := fld (e.dw 0) 58 58 = 1, table := fld (e.dw 0) 57 54,
    rtag := fld (e.dw 0) 53 52, rows := fld (e.dw 0) 51 40 + 1, rowLen := fld (e.dw 0) 39 26 + 1,
    spad := e.inAddr (fld (e.dw 0) 25 12), ext := (e.dw 1).toNat, stride := signed 32 (fld (e.dw 2) 63 32),
    w0 := signed 32 (fld (e.dw 2) 31 0), w1 := signed 32 (fld (e.dw 3) 63 32), spadStride := fld (e.dw 3) 31 18,
    nbuf := fld (e.dw 3) 17 14 + 1, bufStride := fld (e.dw 3) 13 0 }

/-- The descriptor as the bounds clip it (R326); an empty instruction keeps its unclipped extents (R272). -/
def Entry.dmaClip (e : Entry) : DmaOp :=
  let d := e.dma
  if e.empty then d
  else { d with rowLen := clip d.rowLen e.remK, rows := if d.walk then d.rows else clip d.rows e.remN }

/-- One tile: its external base and its first scratchpad granule (R326, R327). -/
structure Tile where
  ext : Int
  spad : Nat
  deriving DecidableEq, Repr

/-- The tiles of a transfer in the order in which they run; `n` is the number of walk entries taken (R327). -/
def State.dmaTiles (s : State) (gb : Nat) (d : DmaOp) (n : Nat) : List Tile :=
  if d.walk then
    (List.range n).map (fun i =>
      let v := s.walkRam.get 0#64 (1024 * gb + (s.rd Reg.SEQ_WALK_DIR_BASE gb d.table + i) % 1024)
      ⟨(d.ext : Int) + (fld v 15 0 : Int) * d.w0 + (fld v 31 16 : Int) * d.w1, d.spad + i % d.nbuf * d.bufStride⟩)
  else [⟨d.ext, d.spad⟩]

/-- The walk entries taken: LEN, as BN clips it (R326). -/
def State.dmaEntries (s : State) (gb : Nat) (d : DmaOp) (e : Entry) : Nat :=
  let n := s.rd Reg.SEQ_WALK_DIR_LEN gb d.table
  if e.empty then n else clip n e.remN

/-- The rows of a tile: external address modulo 2^64, and the first scratchpad byte. -/
def DmaOp.rowsOf (d : DmaOp) (t : Tile) : List (Nat × Nat) :=
  (List.range d.rows).map (fun (r : Nat) => (((t.ext + (r : Int) * d.stride) % (2 ^ 64 : Nat)).toNat, 32 * (t.spad + r * d.spadStride)))

/-- The scratchpad regions of a tile, under the tag action of its direction (R326). -/
def DmaOp.regions (d : DmaOp) (w : DWord) (t : Tile) : List Region :=
  (d.rowsOf t).map (fun r => ⟨r.2, 32 * d.rowLen, d.op == 0, if d.op = 0 then tagOut w else tagIn w⟩)

/-- A device-local address that a DMA instruction of bench gb may name (R325, R353, R365, R366, R389). -/
def State.localOk (s : State) (gb a : Nat) (put : Bool) : Bool :=
  match placeOf a with
  | .tierA => s.inWindow (s.partOf gb) a put
  | .tierB => s.inWindow (s.partOf gb) a put
  | .spad _ _ => true
  | .imem _ _ => true
  | .bcast _ off => put && (match benchPlace 0 off with
    | .spad _ _ => true
    | .imem _ _ => true
    | _ => false)
  | _ => false

/-- A fabric address that it may name: its partition has a tag, the reserved bits are zero, and the local address is mapped, no
register, and no broadcast for a GET (R325, R439). -/
def State.fabricOk (s : State) (gb a : Nat) (put : Bool) : Bool :=
  a < 2 ^ 52 && s.partOf gb < 16 && s.rd Reg.PART_CFG_FAB_TAG 0 (s.partOf gb) != 0 &&
  (match placeOf (a % 2 ^ 43) with
  | .tierA => true
  | .tierB => true
  | .spad _ _ => true
  | .imem _ _ => true
  | .bcast _ off => put && (match benchPlace 0 off with
    | .spad _ _ => true
    | .imem _ _ => true
    | _ => false)
  | _ => false)

/-- The bus address of `n` bytes at a host address in window form, for a function; none where R554 refuses the access. -/
def State.hostAddr (s : State) (fn a n : Nat) (write : Bool) : Option Nat :=
  let w := a / 2 ^ 61
  let off := a % 2 ^ 61
  if s.on Reg.HOST_WIN_CFG_VALID fn w ∧ off + n ≤ (s.rd Reg.HOST_WIN_CFG_SIZE fn w + 1) * 4096 ∧
    (write = false ∨ s.on Reg.HOST_WIN_CFG_WRITE fn w = true) then
    some (s.rd Reg.HOST_WIN_HI_BASE_HI fn w * 2 ^ 32 + s.rd Reg.HOST_WIN_LO_BASE_LO fn w * 4096 + off)
  else none

/-- The function that owns a bench (R389): the HOST_FN of its partition. -/
def State.fnOf (s : State) (gb : Nat) : Nat := s.rd Reg.PART_CFG_HOST_FN 0 (s.partOf gb)

/-- The external bytes of a row may be moved (R325). -/
def State.rowOk (s : State) (gb : Nat) (d : DmaOp) (a : Nat) : Bool :=
  let n := 32 * d.rowLen
  let steps := (upFrom (a / 1024) ((a + n - 1) / 1024 + 1 - a / 1024)).map (fun b => max a (1024 * b))
  match d.tgt with
  | 0 => a + n ≤ 2 ^ 43 && steps.all (fun x => s.localOk gb x (d.op == 1))
  | 1 => steps.all (fun x => s.fabricOk gb x (d.op == 1) && x / 2 ^ 43 == a / 2 ^ 43)
  | _ => (s.hostAddr (s.fnOf gb) a n (d.op == 1)).isSome

/-- A descriptor that raises DMA_DESC (R324, R326, R439); a FENCE ignores the fields it does not use. -/
def Entry.dmaBad (e : Entry) : Bool :=
  let d := e.dma
  fld (e.dw 0) 11 0 != 0 || decide (2 < d.op) ||
  (d.op != 2 && (d.tgt == 3 || d.rtag == 3 || decide (12288 < d.rowLen))) ||
  (d.op != 1 && tagIn e.word != 0) || (d.op != 0 && tagOut e.word != 0) ||
  (d.op == 0 && d.tgt == 1 && d.rtag == 2)

/-- The issue checks of a GET or PUT, in order; a fault's INFO0 is the descriptor's external address (R324 to R327, R554). -/
def dmaChecks (gb : Nat) (e : Entry) : Act Unit := do
  let d := e.dmaClip
  let s ← get
  Act.check (d.walk && (s.rd Reg.SEQ_WALK_DIR_LEN gb d.table == 0 ||
    !([1, 2].contains (s.rd Reg.SEQ_WALK_DIR_LEVEL gb d.table)))) 0x0705 d.ext
  let tiles := s.dmaTiles gb d (s.dmaEntries gb d e)
  Act.check (tiles.any (fun t => (d.regions e.word t).any Region.past)) 0x0702 d.ext
  Act.check (d.stride % 32 != 0 || d.ext % 32 != 0 || tiles.any (fun t => t.ext % 32 != 0)) 0x0703 d.ext
  let bad := (d.tgt == 0 && decide (2 ^ 43 ≤ d.ext)) || (d.tgt == 1 && decide (2 ^ 52 ≤ d.ext)) || tiles.any (fun t => (d.rowsOf t).any (fun r => !s.rowOk gb d r.1))
  if bad && d.tgt == 2 then modify (fun s => s.record (mkRec 0x1008 0 (s.partOf gb) Config.hostSource 31 0 0) (s.ringOf (s.partOf gb)))
  else pure ()
  Act.check bad 0x0704 d.ext

/-! ### Making transfers -/

/-- The regulator class of a transfer (R323). -/
def xferClass (tgt ext : Nat) (put : Bool) : Nat :=
  if tgt ≠ 0 then 2
  else match placeOf ext with
    | .tierA => if put then 1 else 0
    | .tierB => if put then 1 else 0
    | _ => 2

/-- RTAG where it governs a far scratchpad, bypass elsewhere (R326). -/
def rtagFor (tgt ext rtag : Nat) : Nat :=
  if tgt = 2 then 0
  else match placeOf (ext % 2 ^ 43) with
    | .spad _ _ => rtag
    | .bcast _ _ => rtag
    | _ => 0

/-- The pieces of `n` bytes between external address `ext` and scratchpad byte `spad`, none crossing a slot or a 1 KiB
boundary of its external address (R321). -/
def State.addRow (s : State) (gb : Nat) (d : DmaOp) (w : DWord) (id tile ext spad n : Nat) : Nat → State
  | 0 => s
  | fuel + 1 =>
    if n = 0 then s
    else
      let k := min n (min (1024 - ext % 1024) (1024 - spad % 1024))
      let put := d.op == 1
      let p : Piece := { entry := some id, spad := spad, off := 0, len := k, act := if put then tagIn w else tagOut w, tile := tile }
      (s.addPiece gb (if put then .put else .get) d.tgt (xferClass d.tgt ext put) ext k (rtagFor d.tgt ext d.rtag) 0 p).addRow
        gb d w id tile (ext + k) (spad + k) (n - k) fuel

/-- All pieces of an instruction, tile by tile and row by row. -/
def State.addTiles (s : State) (gb : Nat) (e : Entry) : State :=
  let d := e.dmaClip
  ((s.dmaTiles gb d (s.dmaEntries gb d e)).mapIdx (fun i t => (i, t))).foldl (fun s it =>
    (d.rowsOf it.2).foldl (fun s r => s.addRow gb d e.word e.id it.1 r.1 r.2 (32 * d.rowLen) 800) s) s

/-- The oldest issued DMA instruction that the front end has not begun, where none before it has yet to issue (R265). -/
def State.dmaFresh (s : State) (gb : Nat) : Option Entry :=
  ((s.seq gb).oldest 19 (fun e => e.phase != .done && e.stage == 0)).filter (fun e => e.phase == .issued)

/-- The tag actions of an empty instruction, tile after tile from the entry's next one on (R272). -/
def emptyTiles (gb : Nat) (env : EngEnv) (e : Entry) (d : DmaOp) : List Tile → Nat → Act Unit
  | [], _ => pure ()
  | t :: rest, i => do
    if e.iter ≤ i then
      awaitTags gb (d.regions e.word t)
      applyTags gb (d.regions e.word t)
      modify (fun s => s.modEntry gb e.id (fun x => { x with iter := i + 1 }))
    else pure ()
    emptyTiles gb env e d rest (i + 1)

/-- The start of a DMA instruction: its checks, and then its pieces; an empty one applies its tag actions, and a FENCE closes
every merge and remembers which transfers come before it (R332, R347). -/
def dmaBegin (gb : Nat) (env : EngEnv) (e : Entry) : Act Bool := do
  frontChecks gb env e 0x0702
  Act.check e.dmaBad 0x0701 e.dma.ext
  let d := e.dmaClip
  if d.op = 2 then
    modify (fun s =>
      let s : State := { s with xfers := s.xfers.map (fun x =>
        if x.gb = gb ∧ x.phase = .merging then { x with phase := .queued } else x) }
      s.modEntry gb e.id (fun x => { x with stage := s.nextXfer + 1 }))
    pure false
  else
    dmaChecks gb e
    if e.empty then
      countEmpty gb
      modify (fun s => s.modEntry gb e.id (fun x => { x with stage := 1 }))
      let s ← get
      emptyTiles gb env e d (s.dmaTiles gb d (s.dmaEntries gb d e)) 0
      pure true
    else
      modify (fun s => (s.modEntry gb e.id (fun x => { x with stage := 1 })).addTiles gb e)
      pure false

/-- Begun FENCEs whose earlier PUTs and emissions are complete retire, and begun empty instructions go on (R272, R331). -/
def State.dmaPoll (s : State) (gb : Nat) (env : EngEnv) : State :=
  ((s.seq gb).window.filter (fun e => unitOf e.word == 19 && e.phase == .issued && e.stage != 0)).foldl (fun s e =>
    let d := e.dmaClip
    if d.op = 2 then
      if s.xfers.any (fun x => x.gb == gb && !x.inward && decide (x.born + 1 < e.stage)) then s
      else s.runEntry gb 19 e (pure true)
    else if e.empty then
      s.runEntry gb 19 e (do
        emptyTiles gb env e d (s.dmaTiles gb d (s.dmaEntries gb d e)) 0
        pure true)
    else s) s

/-- The piece moves bytes of the bench's own scratchpad. -/
def Piece.inSpad (p : Piece) : Bool := p.entry.isSome && p.pot.isNone

/-- A transfer of a bench waits on another bench, whose clock is stopped where `stopped` is given, or on the fabric (R34, R287). -/
def Xfer.waitsRemote (s : State) (x : Xfer) (stopped : Bool) : Bool :=
  x.phase == .requested && x.resp.isNone && !x.pieces.isEmpty && (match x.tgt, placeOf x.ext with
    | 0, .spad t _ => !stopped || s.clockStopped t
    | 0, .imem t _ => !stopped || s.clockStopped t
    | 0, .bcast sel _ => !stopped || (s.selected sel).any (fun t => s.clockStopped t && s.partOf t == s.partOf x.gb && !x.acks.contains t)
    | 1, _ => !stopped
    | _, _ => false)

/-- The wait of a front end that is to be seen: of its oldest transfer that waits (R344). -/
def State.dmaWait (s : State) (gb : Nat) : State :=
  let cause := fun (x : Xfer) => match x.phase with
    | .queued =>
      match x.pieces.find? (fun p => p.act == 1 && (x.kind == .get) && s.tag gb (p.spad / 1024)) with
      | some p => some (2, p.spad / 1024)
      | none =>
        match x.pieces.find? (fun p => p.act != 0 && (x.kind == .put) && !s.tag gb (p.spad / 1024)) with
        | some p => some (1, p.spad / 1024)
        | none => some (10, 0)
    | .held => some (10, 0)
    | .requested => if x.waitsRemote s true then some (11, 0) else if x.waitsRemote s false then some (8, 0) else none
    | _ => none
  if s.held gb 19 then s
  else s.setWait gb 19 ((s.xfers.filter (fun x => x.gb == gb && x.pieces.any Piece.inSpad)).findSome? cause)

/-- The front end takes its next instruction where its descriptor has operation `op`, and looks to those begun. -/
def State.dmaRun (s : State) (gb : Nat) (env : EngEnv) (op : Nat → Bool) : State :=
  if s.clockStopped gb then s
  else
    let s := match s.dmaFresh gb with
      | none => s
      | some e => if s.held gb 19 || !op (fld (e.dw 0) 63 61) then s else s.runEntry gb 19 e (dmaBegin gb env e)
    (s.dmaPoll gb env).dmaWait gb

/-- DMA_GET (R305, R326); a descriptor with a reserved OP faults here too. -/
def execDmaGet (gb : Nat) (env : EngEnv) (s : State) : Host.Outcome State Fault Refusal :=
  okIf (gb < 2560) (s.dmaRun gb env (fun o => o != 1 && o != 2))

/-- DMA_PUT (R305, R326). -/
def execDmaPut (gb : Nat) (env : EngEnv) (s : State) : Host.Outcome State Fault Refusal :=
  okIf (gb < 2560) (s.dmaRun gb env (fun o => o == 1))

/-- DMA_FENCE (R332). -/
def execDmaFence (gb : Nat) (env : EngEnv) (s : State) : Host.Outcome State Fault Refusal :=
  okIf (gb < 2560) (s.dmaRun gb env (fun o => o == 2))

/-! ### The end of transfers -/

/-- The state without a transfer. -/
def State.dropXfer (s : State) (id : Nat) : State := { s with xfers := s.xfers.filter (fun x => x.id != id) }

/-- A lasting failure of a transfer (R329, R333): every DMA instruction that contributed a piece faults, a load learns which of its rows
will not come (R302), and what failed of emitted rows is reported (R223, R335). -/
def State.failXfer (s : State) (id code info0 : Nat) : State :=
  match s.xfer id with
  | none => s
  | some x =>
    if x.emission then (s.dropXfer id).emissionLost x
    else if x.pieces.isEmpty then s.dropXfer id
    else
      let es := (x.pieces.filterMap Piece.entry).eraseDups
      let s := s.dropXfer id
      let s := if x.emitted.isEmpty then s else s.emissionLost x
      let s := s.noteExt x.gb x.ext
      es.foldl (fun s e =>
        match (s.seq x.gb).window.find? (fun w => w.id == e) with
        | none => s
        | some w =>
          if x.kind ≠ .load then
            let s := (s.abandon x.gb e).modEntry x.gb e (fun y => { y with phase := .faulted })
            (s.setWait x.gb 19 none).raise x.gb 19 code w.pc 0 info0
          else s.modEntry x.gb e (fun y => { y with lost := y.lost ++
            (x.pieces.filter (fun p => p.entry == some e)).map (fun p => (x.ext + p.off, p.len, code, info0)) })) s

/-- EMISSION_WRITE_FAIL (R223, R335). -/
def execEmissionWriteFail (id : Nat) (s : State) : Host.Outcome State Fault Refusal :=
  .next (match s.xfers.find? (fun x => x.id == id && decide (x.kind = .emit)) with
    | some x => (s.dropXfer id).emissionLost x
    | none => match s.xfer id with
      | none => s
      | some x => if x.emitted.isEmpty then s else s.failXfer id 0x0708 x.ext)

/-- A request made again once; the second failure is lasting (R333). -/
def State.retryXfer (s : State) (id : Nat) : State :=
  match s.xfer id with
  | none => s
  | some x =>
    if x.pieces.isEmpty then s.dropXfer id
    else if x.retried then s.failXfer id 0x0708 x.ext
    else s.modXfer id (fun y => { y with retried := true, phase := .held, resp := none })

/-- The tag action of piece `p` of a transfer that completes, where no other piece of its entry and tile that touches its slot is
outstanding (R249, R250, R335). -/
def State.pieceTags (s : State) (x : Xfer) (p : Piece) (rest : List Piece) : State :=
  let same := fun (q : Piece) => q.entry == p.entry && q.tile == p.tile && q.spad / 1024 == p.spad / 1024
  if !p.inSpad || rest.any same || s.xfers.any (fun y => y.gb == x.gb && y.id != x.id && y.pieces.any same) then s
  else s.regionTags x.gb ⟨p.spad, p.len, x.kind == .get, p.act⟩

/-- The pieces of a complete transfer: a GET's bytes are written, a load's reach its pot, and the tags follow (R302, R331). -/
def State.landPieces (s : State) (x : Xfer) (ecc : List (Nat × Ecc)) : List Piece → State
  | [] => s
  | p :: rest =>
    let bs := (x.data.drop p.off).take p.len
    let s := match x.kind, p.entry with
      | .load, some e => s.modEntry x.gb e (fun y => { y with outs := y.outs ++ [(x.ext + p.off, bs)] })
      | .get, _ => s.spadWrite x.gb ecc p.spad bs
      | _, _ => s
    (s.pieceTags x p rest).landPieces x ecc rest

/-- The entries of a bench whose last piece is complete retire (R331). -/
def State.dmaRetire (s : State) (gb : Nat) (es : List Nat) : State :=
  es.foldl (fun s e =>
    if s.xfers.any (fun y => y.gb == gb && y.pieces.any (fun p => p.entry == some e)) then s
    else (s.modEntry gb e (fun x => if x.phase = .issued ∧ unitOf x.word = 19 then { x with phase := .done } else x))) s

/-- A transfer reaches its completion point (R331): its entry of the tracker is free, and it is counted. -/
def State.finishXfer (s : State) (x : Xfer) (ecc : List (Nat × Ecc)) : State :=
  let s := s.dropXfer x.id
  if x.pieces.isEmpty then s
  else
    let s := s.landPieces x ecc x.pieces
    let s := s.bump Reg.DMA_XFER_CNT_COUNT x.gb
    let s := if x.retried then s.bump Reg.DMA_RETRY_CNT_COUNT x.gb else s
    let s := s.bumpKib (if x.inward then Reg.DMA_KIB_RD_COUNT else Reg.DMA_KIB_WR_COUNT) x.gb x.len
    (s.dmaRetire x.gb ((x.pieces.filterMap Piece.entry).eraseDups)).dmaWait x.gb

/-- An error answer ends a transfer as R333 says. -/
def State.errorXfer (s : State) (x : Xfer) : XResp → State
  | .memError c => s.failXfer x.id 0x0709 (c * 2 ^ 48 + x.ext % 2 ^ 43)
  | .denied => s.failXfer x.id 0x0706 x.ext
  | .poison => s.failXfer x.id 0x0707 x.ext
  | .failed => s.failXfer x.id 0x0708 x.ext
  | _ => s

/-! ### Gating, the tracker and the regulator -/

/-- The transfer holds an entry of the tracker (R321). -/
def Xfer.tracked (x : Xfer) : Bool := x.phase == .held || x.phase == .requested || x.phase == .staged

/-- A transfer is held behind a FENCE that began before it was made (R332). -/
def State.fenced (s : State) (x : Xfer) : Bool :=
  !x.emission && (s.seq x.gb).window.any (fun e => unitOf e.word == 19 && e.phase == .issued && e.stage != 0 &&
    fld (e.dw 0) 63 61 == 2 && decide (e.stage ≤ x.born + 1))

/-- A queued transfer may not be requested for its slots: a produce whose slot is full, a source under peek or consume whose slot
is empty, or a slot with an earlier transfer outstanding (R249, R328, R334). -/
def State.slotGated (s : State) (x : Xfer) : Bool :=
  match x.kind with
  | .emit => false
  | .load => false
  | .get =>
    x.pieces.any (fun p => p.act == 1 && s.tag x.gb (p.spad / 1024)) ||
    s.xfers.any (fun y => y.gb == x.gb && decide (y.born < x.born) &&
      y.pieces.any (fun q => q.inSpad && x.pieces.any (fun p => p.inSpad && p.spad / 1024 == q.spad / 1024)))
  | .put => x.pieces.any (fun p => p.act != 0 && !s.tag x.gb (p.spad / 1024))

/-- The transfer asks the tracker for an entry. -/
def State.asks (s : State) (x : Xfer) : Bool := x.phase == .queued && !s.fenced x && !s.slotGated x

/-- The entries that a bench holds, and those beyond its QUOTA (R322). -/
def State.entriesOf (s : State) (gb : Nat) : Nat := (s.xfers.filter (fun x => x.gb == gb && x.tracked)).length
def State.pooledOf (s : State) (gb : Nat) : Nat := s.entriesOf gb - s.rd Reg.DMA_CFG_QUOTA gb

/-- Transfers below their bench's QUOTA obtain their entries at once (R322). -/
def State.grantQuota (s : State) (die : Nat) : State :=
  s.xfers.foldl (fun t x =>
    if x.gb / 160 = die ∧ t.asks x = true ∧ t.entriesOf x.gb < min (t.rd Reg.DMA_CFG_QUOTA x.gb) (t.rd Reg.DMA_CFG_CAP x.gb) then
      t.modXfer x.id (fun y => { y with phase := .held }) else t) s

/-- One free entry of the die's pool to the first requesting bench at or after the pointer (R322). -/
def State.grantPool (s : State) (die : Nat) : State :=
  let benches := upFrom (160 * die) 160
  let free := 2048 - (benches.map (fun b => s.rd Reg.DMA_CFG_QUOTA b)).sum - (benches.map s.pooledOf).sum
  let share := fun (p : Nat) => ((benches.filter (fun b => s.partOf b == p)).map s.pooledOf).sum
  let may := fun (b : Nat) => decide (s.entriesOf b < s.rd Reg.DMA_CFG_CAP b) &&
    decide (share (s.partOf b) < s.rd Reg.DMA_REG_CFG_POOL die (s.partOf b)) &&
    s.xfers.any (fun x => x.gb == b && s.asks x)
  let start := s.trackPtr.get 0 die
  match (if free = 0 then none else ((List.range 160).map (fun k => 160 * die + (start + k) % 160)).find? may) with
  | none => s
  | some b =>
    match s.xfers.find? (fun x => x.gb == b && s.asks x) with
    | none => s
    | some x =>
      let s := s.modXfer x.id (fun y => { y with phase := .held })
      { s with trackPtr := s.trackPtr.put 0 die ((b % 160 + 1) % 160) }

/-- The bucket of a transfer. -/
def State.bucketKey (s : State) (x : Xfer) : Nat := 4096 * (x.gb / 160) + 4 * s.partOf x.gb + x.cls

/-- The data that moves outwards: a PUT's read from the scratchpad, and an emission's from the emission buffer (R258, R335); the bytes,
or a protection fault with its granule. -/
def putData (gb : Nat) (ecc : List (Nat × Ecc)) : List Piece → Act (List Byte)
  | [] => pure []
  | p :: rest => do
    let a ← if p.emitted then pure p.data else spadRead gb { ecc := ecc } p.spad p.len
    let b ← putData gb ecc rest
    pure (a ++ b)

/-- The fabric request of a transfer (R435, R436). -/
def State.xferMsg (s : State) (x : Xfer) : FabMsg :=
  { typ := if x.kind = .get then 1 else 2, dst := x.ext / 2 ^ 43 % 512, ftag := s.rd Reg.PART_CFG_FAB_TAG 0 (s.partOf x.gb),
    len := x.len, gen := s.partGen.get 0 (s.partOf x.gb), addr := x.ext % 2 ^ 43, rtag := x.rtag,
    payload := if x.kind = .get then [] else x.data }

/-- A host transfer fails lasting (R548, R555). -/
def State.loseHost (s : State) (x : Xfer) : State :=
  (s.record (mkRec 0x1003 0 (s.partOf x.gb) Config.hostSource 31 0 0) (s.ringOf (s.partOf x.gb))).failXfer x.id 0x0708 x.ext

/-- A held transfer's request leaves where its bucket holds its bytes (R330): a PUT reads its source then, and a fabric target
needs a TID (R438). With the host link down, or its path through die 0 cut, a host transfer fails at once (R25, R482, R548). -/
def State.release (s : State) (x : Xfer) (ecc : List (Nat × Ecc)) : State :=
  let k := s.bucketKey x
  let have_ := s.buckets.get 0 k
  if x.phase ≠ .held ∨ have_ < x.len then s
  else if x.inward = false ∧ (x.pieces.map Piece.len).sum ≠ x.len then s.regroup x.id
  else
    let paid := fun (t : State) => ({ t with buckets := t.buckets.put 0 k (have_ - x.len) } : State)
    let r := if x.inward then (.ok x.data, s) else (putData x.gb ecc x.pieces).run s
    match r with
    | (.error (.fault c g), t) => t.failXfer x.id c g
    | (.error (.wait _ _), t) => t
    | (.ok bs, t) =>
      let x := { x with data := bs }
      let out := t.modXfer x.id (fun y => { y with phase := .requested, data := bs })
      if x.tgt = 2 ∧ (t.on Reg.HOST_LINK_UP 0 = false ∨ t.hostPathCut (x.gb / 160) = true) then t.loseHost x
      else if x.tgt = 1 then
        match t.request (.xfer x.id) (t.xferMsg x) (x.gb / 160) with
        | (u, .sent _) => paid (u.modXfer x.id (fun y => { y with phase := .requested, data := bs }))
        | (u, .noTid) => u
        | (u, .unreach) => u.failXfer x.id 0x0708 x.ext
      else if s.reachable (x.gb / 160) (dieAt x.ext) = false ∧ x.tgt = 0 then
        (paid out).reportUnreachable (x.gb / 160) (dieAt x.ext) |>.respond x.id .failed
      else paid out

/-- Every held transfer of a die whose bucket allows it leaves, in order. -/
def State.releaseAll (s : State) (die : Nat) (ecc : List (Nat × List (Nat × Ecc))) : State :=
  (s.xfers.filter (fun x => x.gb / 160 == die)).foldl (fun t x =>
    match t.xfer x.id with
    | some y => t.release y (((ecc.find? (fun p => p.1 == y.gb)).map Prod.snd).getD [])
    | none => t) s

/-- The benches of a die counted for the waits that stand (R348), and their causes noted. -/
def State.countWaits (s : State) (die : Nat) : State :=
  (s.xfers.map Xfer.gb).eraseDups.foldl (fun t gb =>
    if gb / 160 ≠ die then t
    else
      let mine := t.xfers.filter (fun x => x.gb == gb)
      let t := if mine.any t.asks then t.bump Reg.DMA_WAIT_TRACK_COUNT gb else t
      let t := if mine.any (fun x => x.phase == .held) then t.bump Reg.DMA_WAIT_REG_COUNT gb else t
      let t := if mine.any (fun x => x.phase == .queued && t.slotGated x) then t.bump Reg.DMA_WAIT_SLOT_COUNT gb else t
      -- the tags that such a transfer waits for (R251)
      let tagged := fun (get : Bool) => mine.any (fun x => x.phase == .queued && x.pieces.any (fun p => p.inSpad &&
        if get then x.kind == .get && p.act == 1 && t.tag gb (p.spad / 1024) else x.kind == .put && p.act != 0 && !t.tag gb (p.spad / 1024)))
      let t := if tagged false then t.bump Reg.SPAD_TAG_WAIT_RD_COUNT gb else t
      let t := if tagged true then t.bump Reg.SPAD_TAG_WAIT_WR_COUNT gb else t
      t.dmaWait gb) s

/-- TRACKER_GRANT (R322): one die cycle of a die's tracker; requests whose bucket holds enough leave in it (R330). -/
def execTrackerGrant (die : Nat) (ecc : List (Nat × List (Nat × Ecc))) (s : State) : Host.Outcome State Fault Refusal :=
  okIf (die < 16) ((((s.grantQuota die).grantPool die).releaseAll die ecc).countWaits die)

/-- The amount of a partition's class in one window (R330). -/
def State.windowBytes (s : State) (die p cls : Nat) : Nat :=
  let split := match cls with
    | 0 => s.rd Reg.DMA_REG_CFG_READ die p
    | 1 => s.rd Reg.DMA_REG_CFG_WRITE die p
    | _ => s.rd Reg.DMA_REG_CFG_REMOTE die p
  512 * s.rd Reg.DMA_REG_CFG_SHARE die p * split

/-- REGULATOR_WINDOW (R330, R347): every bucket of a die is set to its window's amount, a small one accumulating to 1,024; a
request that waits sees the new bucket. -/
def execRegulatorWindow (die : Nat) (ecc : List (Nat × List (Nat × Ecc))) (s : State) : Host.Outcome State Fault Refusal :=
  okIf (die < 16)
    (let fill := (List.range 48).foldl (fun (t : State) k =>
      let p := k / 3
      let c := k % 3
      let n := s.windowBytes die p c
      let key := 4096 * die + 4 * p + c
      let v := if n < 1024 then min 1024 (t.buckets.get 0 key + n) else n
      { t with buckets := t.buckets.put 0 key v }) s
    fill.releaseAll die ecc)

/-- MERGE_TIMEOUT (R329): the first piece of a merging transfer has waited 32 cycles. -/
def execMergeTimeout (id : Nat) (s : State) : Host.Outcome State Fault Refusal :=
  .next (s.modXfer id (fun x => if x.phase = .merging then { x with phase := .queued } else x))

/-- INBOUND_TRANSFER_ARRIVAL (R333): the answer to a requested GET is staged in the 8 KiB buffer and its CRC checked; a failed
check, or a host's poisoned completion or completion timeout, repeats the request once; a host's refusal is lasting (R555). The
failed check of a PUT at its receiving end repeats it once too. An answer to an abandoned transfer is discarded. -/
def execInboundTransferArrival (id : Nat) (inb : Inbound) (s : State) : Host.Outcome State Fault Refusal :=
  .next (match s.xfer id with
    | none => s
    | some x =>
      if x.phase ≠ .requested ∨ s.clockStopped x.gb = true then s
      else if !x.inward then (if !inb.good && x.resp.isNone then s.retryXfer id else s)
      else if x.tgt = 2 ∧ s.hostPathCut (x.gb / 160) = true then
        if x.pieces.isEmpty then s.dropXfer id else s.loseHost x
      else
        let data := if x.tgt = 2 then inb.host.map XResp.data else x.resp
        let full := decide (8192 < ((s.xfers.filter (fun y => y.gb == x.gb && y.phase == .staged)).map Xfer.len).sum + x.len)
        let lost := fun (t : State) => if x.tgt = 2 then
          t.record (mkRec 0x1003 0 (s.partOf x.gb) Config.hostSource 31 0 0) (s.ringOf (s.partOf x.gb)) else t
        match data with
        | none => if x.tgt = 2 then (lost s).failXfer id 0x0708 x.ext else s
        | some (.data bs) =>
          if x.pieces.isEmpty then s.dropXfer id
          else if full then s
          else if inb.good then s.modXfer id (fun y => { y with phase := .staged, data := bs, resp := none })
          else (if x.retried then lost s else s).retryXfer id
        | some r => if x.pieces.isEmpty then s.dropXfer id else s.errorXfer x r)

/-- A host write of a transfer handed to the link (R331, R554). -/
def State.hostPut (s : State) (x : Xfer) : State :=
  match s.hostAddr (s.fnOf x.gb) x.ext x.len true with
  | some a => s.hostStore a x.data
  | none => s

/-- TRANSFER_COMPLETE (R331): a staged GET is written into the scratchpad; an acknowledged PUT or emission ends; a host write is
handed to the link after every earlier host write of its bench. -/
def execTransferComplete (id : Nat) (ecc : List (Nat × Ecc)) (s : State) : Host.Outcome State Fault Refusal :=
  .next (match s.xfer id with
    | none => s
    | some x =>
      if s.clockStopped x.gb then s
      else if x.phase = .staged then s.finishXfer x ecc
      else if x.phase ≠ .requested ∨ x.inward = true then s
      else if x.tgt = 2 then
        if s.xfers.any (fun y => y.gb == x.gb && y.tgt == 2 && y.kind == .put && decide (y.born < x.born)) then s
        else if s.hostPathCut (x.gb / 160) then (if x.pieces.isEmpty then s.dropXfer id else s.loseHost x)
        else (s.hostPut x).finishXfer x ecc
      else match x.resp with
        | none => s
        | some .ack => s.finishXfer x ecc
        | some r => if x.pieces.isEmpty then s.dropXfer id else s.errorXfer x r)

/-- TRANSFER_TIMEOUT (R333): no completion within 2^TMO cycles of a transfer whose target is a tier or the host. -/
def execTransferTimeout (id : Nat) (s : State) : Host.Outcome State Fault Refusal :=
  .next (match s.xfer id with
    | none => s
    | some x =>
      let timed := x.tgt == 2 || (x.tgt == 0 && (match placeOf x.ext with
        | .tierA => true
        | .tierB => true
        | _ => false))
      if timed && x.phase == .requested && x.resp.isNone then s.retryXfer id else s)

end Sys2Proof.Machine
end

