-- ==== Sys2Proof/Machine/Punty.lean ====
section
/-! DEFINITION. The punty queue ports (R336 to R343), and the detection of benches that wait on each other (R344 to R346). -/

namespace Sys2Proof.Machine

open Sys2Proof

/-! ### Handles -/

/-- A handle's fields (R336). -/
def Handle.ofWord (w : DWord) : Handle :=
  { device := fld w 63 55, bench := fld w 54 43, first := fld w 42 34, count := fld w 33 25, sq := fld w 24 17,
    empty := fld w 16 16 = 1, user := fld w 15 0 }

/-- A handle's word. -/
def Handle.word (h : Handle) : DWord :=
  BitVec.ofNat 64 (h.device % 512 * 2 ^ 55 + h.bench % 4096 * 2 ^ 43 + h.first % 512 * 2 ^ 34 + h.count % 512 * 2 ^ 25 +
    h.sq % 256 * 2 ^ 17 + (if h.empty then 2 ^ 16 else 0) + h.user % 65536)

/-- The out-port's handles, and the in-port, of a bench. -/
def State.outPort (s : State) (gb : Nat) : List OutHandle := s.pqOut.get [] gb
def State.inPort (s : State) (gb : Nat) : InPort := s.pqIn.get {} gb

/-- The state with an out-port's handles replaced; OUT_Q counts those not yet sent (R348). -/
def State.setOut (s : State) (gb : Nat) (q : List OutHandle) : State :=
  ({ s with pqOut := s.pqOut.put [] gb q } : State).wr Reg.PQ_STATUS_OUT_Q gb (q.filter (fun h => decide (h.stage < 2))).length

/-- The state with an in-port replaced; IN_Q counts the handles queued. -/
def State.setIn (s : State) (gb : Nat) (x : InPort) : State :=
  ({ s with pqIn := s.pqIn.put {} gb x } : State).wr Reg.PQ_STATUS_IN_Q gb x.queue.length

/-- The bytes of a handle's payload: none where it is empty. -/
def Handle.len (h : Handle) : Nat := if h.empty then 0 else 1024 * (h.count + 1)

/-- The checks of a punty instruction before those of its row (R591): bound words, and PQ_TAG (R341). A bound word past the
scratchpad is reported as PQ_HANDLE (DEDUCED, assumption log 43). -/
def pqFront (e : Entry) (put : Bool) : Act Unit := do
  Act.check e.frontRange 0x0801
  match e.bad with
  | some (c, g) => Act.fault c g
  | none => pure ()
  Act.check (tagOut e.word != 0 || (if put then tagIn e.word == 3 else tagIn e.word != 0)) 0x0804

/-- PQ_PUT (R316, R338): the handle is queued and the instruction retires; a full queue makes it wait. -/
def execPqPut (gb : Nat) (env : EngEnv) (s : State) : Host.Outcome State Fault Refusal :=
  okIf (gb < 2560) (s.runUnit gb 21 (fun e => opc e.word == 0x30) (fun e => do
    pqFront e true
    let s ← get
    let h := Handle.ofWord e.vb
    Act.check (!s.on Reg.PQ_OUT_ROUTE_VALID gb) 0x0802
    Act.check (h.count != s.rd Reg.PQ_OUT_CREDIT_HSLOTS gb || decide (383 < h.first + h.count)) 0x0801
    modify (fun s => s.bump Reg.PQ_CREDIT_WAIT_COUNT gb env.stallOut)
    let q := s.outPort gb
    if 16 ≤ (q.filter (fun x => decide (x.stage < 2))).length then Act.wait 4 0 else pure ()
    if e.empty then countEmpty gb else pure ()
    let w := { h with device := s.devId, bench := gb, sq := 0, empty := e.empty }.word
    modify (fun s => s.setOut gb (q ++ [{ word := w, act := tagIn e.word, pc := e.pc }]))))

/-- PQ_GET (R316, R339): the oldest delivered handle to a scalar register. -/
def execPqGet (gb : Nat) (env : EngEnv) (s : State) : Host.Outcome State Fault Refusal :=
  okIf (gb < 2560) (s.runUnit gb 20 (fun e => opc e.word == 0x31) (fun e => do
    pqFront e false
    modify (fun s => s.bump Reg.PQ_GET_WAIT_COUNT gb env.stallIn)
    let s ← get
    let x := s.inPort gb
    match x.queue with
    | [] => Act.wait 5 0
    | w :: rest =>
      modify (fun s => ((s.setIn gb { x with queue := rest }).setSreg gb (loadTarget e.word) w).bump Reg.PQ_GET_CNT_COUNT gb)))

/-- The producer number of a device and bench at an in-port (R337). -/
def State.producerOf (s : State) (gb device bench : Nat) : Option Nat :=
  (List.range 16).find? (fun j => s.producers.get 0 (16 * gb + j) == device * 4096 + bench + 1 &&
    s.on Reg.PQ_IN_PROD_VALID gb j)

/-- PQ_REL (R316, R340): the handle's slots are emptied and one credit returns to its producer. -/
def execPqRel (gb : Nat) (_env : EngEnv) (s : State) : Host.Outcome State Fault Refusal :=
  okIf (gb < 2560) (s.runUnit gb 20 (fun e => opc e.word == 0x32) (fun e => do
    pqFront e false
    let s ← get
    let x := s.inPort gb
    let h := Handle.ofWord e.vb
    let mine := fun (w : DWord) =>
      let k := Handle.ofWord w
      k.first == h.first && k.device == h.device && k.bench == h.bench && k.sq == h.sq
    match x.owned.find? mine with
    | none => Act.fault 0x0803
    | some w =>
      let k := Handle.ofWord w
      modify (fun s =>
        let s := (s.setIn gb { x with owned := x.owned.erase w }).setTags gb k.first false (k.count + 1)
        let s := match s.producerOf gb k.device k.bench with
          | some j => s.wr Reg.PQ_IN_PROD_OUT gb (s.rd Reg.PQ_IN_PROD_OUT gb j - 1) j
          | none => s
        s.emit (.credit k.device k.bench))))

/-! ### Delivery -/

/-- The region that a handle names, under its action. -/
def OutHandle.region (h : OutHandle) : Region :=
  let k := Handle.ofWord h.word
  ⟨1024 * k.first, 1024 * (k.count + 1), false, h.act⟩

/-- A consume of a handle's source takes effect (R338). -/
def State.outConsume (s : State) (gb : Nat) (h : OutHandle) : State := s.regionTags gb h.region

/-- The fabric messages of a handle: payload pieces of at most 1,024 bytes and then the handle, numbered in FSEQ (R436, R442).
They name the destination bench by its window's first address (DESIGN CHOICE, assumption log 44). -/
def State.handleMsgs (s : State) (gb : Nat) (w : DWord) (bs : List Byte) : List FabMsg :=
  let p := s.partOf gb
  let f0 := s.fseqOut.get 0 gb
  let base : FabMsg := { typ := 4, dst := s.rd Reg.PQ_OUT_ROUTE_DEVICE gb, ftag := s.rd Reg.PART_CFG_FAB_TAG 0 p,
                         gen := s.partGen.get 0 p, addr := spadBase (s.rd Reg.PQ_OUT_ROUTE_BENCH gb) }
  let parts := (chunks 1024 bs 64).map (fun b => { base with payload := b, len := b.length })
  let all : List FabMsg := parts ++ [{ base with typ := 5, payload := leBytes 8 w.toNat, len := 8 }]
  all.mapIdx (fun i m => { m with aux := (f0 + i) % 65536 + gb % 4096 * 65536 })

/-- The handle and its payload leave, across the fabric once the device's location is valid (R47, DESIGN CHOICE, assumption log 81):
within the device over the die and package networks, and otherwise as transactions of the
fabric, for all of which TIDs must be free (R338, R438). -/
def sendHandle (gb : Nat) (w : DWord) (bs : List Byte) : Act Unit := do
  let s ← get
  let dev := s.rd Reg.PQ_OUT_ROUTE_DEVICE gb
  if dev = s.devId then
    modify (fun s => s.emit (.handle dev (s.rd Reg.PQ_OUT_ROUTE_BENCH gb) w bs))
  else
    if s.on Reg.DEV_LOCATION_VALID 0 then pure () else Act.wait 4 0
    let ms := s.handleMsgs gb w bs
    let sq := (Handle.ofWord w).sq
    match s.firstPort { (ms.getD 0 { typ := 5 }) with src := s.devId } (gb / 160) with
    | none =>
      modify (fun s => s.fabUnreachable 0 dev)
      Act.fault 0x0806
    | some k =>
      let used := (s.txns.filter (fun x => x.msg.tid / 2048 == k)).length
      if 2048 < used + ms.length then
        modify (fun s => s.bump Reg.FAB_TID_INUSE_WAIT k)
        Act.wait 4 0
      else
        modify (fun s => ms.foldl (fun t m =>
          (t.request (if m.typ = 5 then .hdl gb sq else .hdlData gb sq) m (gb / 160)).1) s)
        modify (fun s => { s with fseqOut := s.fseqOut.put 0 gb ((s.fseqOut.get 0 gb + ms.length) % 65536) })

/-- The out-port's work on its first unsent handle (R338): a credit and SEQ, the payload under TAGI, the handle. -/
def outStep (gb : Nat) (env : EngEnv) (pre : List OutHandle) (h : OutHandle) (post : List OutHandle) : Act Unit := do
  modify (fun s => s.bump Reg.PQ_CREDIT_WAIT_COUNT gb env.stallOut)
  let s ← get
  let h1 ← (if h.stage = 0 then do
      let c := s.rd Reg.PQ_OUT_CREDIT_CREDIT gb
      if c = 0 then Act.wait 4 0 else pure ()
      let sq := s.rd Reg.PQ_OUT_CREDIT_SEQ gb
      let y := { h with word := { Handle.ofWord h.word with sq := sq }.word, stage := 1 }
      modify (fun s => ((s.wr Reg.PQ_OUT_CREDIT_CREDIT gb (c - 1)).wr Reg.PQ_OUT_CREDIT_SEQ gb (sq + 1)).setOut gb
        (pre ++ y :: post))
      pure y
    else pure h : Act OutHandle)
  let k := Handle.ofWord h1.word
  awaitTags gb [h1.region]
  let bs ← spadRead gb env (1024 * k.first) k.len
  sendHandle gb h1.word bs
  modify (fun s => s.setOut gb (pre ++ { h1 with stage := 2 } :: post))

/-- A fault of the out-port on a handle: unit 21, at the PQ_PUT that supplied it (R343); the handle is kept. -/
def State.outFault (s : State) (gb code info0 : Nat) (h : OutHandle) : State :=
  ((s.setOut gb ((s.outPort gb).map (fun x => if x.word = h.word ∧ x.pc = h.pc then { x with stage := 3 } else x))).setWait gb 21
    none).raise gb 21 code h.pc 0 info0

/-- PQ_HANDLE_SEND (R338). -/
def execPqHandleSend (gb : Nat) (env : EngEnv) (s : State) : Host.Outcome State Fault Refusal :=
  okIf (gb < 2560)
    (let q := s.outPort gb
    let pre := q.takeWhile (fun h => decide (2 ≤ h.stage))
    match q.drop pre.length with
    | [] => s
    | h :: post =>
      if s.held gb 21 || s.clockStopped gb then s
      else match (outStep gb env pre h post).run s with
        | (.ok _, t) => t.setWait gb 21 none
        | (.error (.wait c o), t) => t.setWait gb 21 (some (c, o))
        | (.error (.fault c g), t) =>
          match (t.outPort gb)[pre.length]? with
          | some y => t.outFault gb c g y
          | none => t)

/-- The unit's PQ_GET that waits, faulted with the port (R343). -/
def State.faultGet (s : State) (gb : Nat) : State × Nat :=
  match s.current gb 20 with
  | some e => (s.modEntry gb e.id (fun x => { x with phase := .faulted }), e.pc)
  | none => ((s.free).2, (s.free).1.toNat % 4096)

/-- The next position of producer `j`'s sub-ring, as the slots of a handle (R337, R339). -/
def State.ringRegion (s : State) (gb j : Nat) (h : Handle) : Region :=
  ⟨1024 * (s.rd Reg.PQ_IN_PROD_BASE gb j + s.ringPos.get 0 (16 * gb + j) * (h.count + 1)), 1024 * (h.count + 1), true, 1⟩

/-- An accepted handle is stored at its producer's next position, whose slots are set full, and queued (R339, R341). -/
def State.ringStore (s : State) (gb j : Nat) (h : Handle) (payload : List Byte) (ecc : List (Nat × Ecc)) : State :=
  let reg := s.ringRegion gb j h
  let t := if h.empty then s else s.spadWrite gb ecc reg.lo payload
  let t := t.regionTags gb reg
  let k := { h with first := reg.lo / 1024 }.word
  let x := t.inPort gb
  let t := (t.setIn gb { x with queue := x.queue ++ [k], owned := x.owned ++ [k] }).bump Reg.PQ_IN_PROD_OUT gb 1 j
  { t with ringPos := t.ringPos.put 0 (16 * gb + j) ((s.ringPos.get 0 (16 * gb + j) + 1) % max 1 (t.rd Reg.PQ_IN_PROD_ALLOT gb j)) }

/-- What the in-port does with a handle of a known producer: it is discarded, it is the expected one, or one before it is lacking
(R342). -/
inductive Judged where
  | unknown
  | duplicate
  | next (j : Nat)
  | lacking (j : Nat)
  deriving DecidableEq, Repr

/-- The test of a handle's SEQ (R342). -/
def State.judge (s : State) (gb : Nat) (h : Handle) : Judged :=
  match s.producerOf gb h.device h.bench with
  | none => .unknown
  | some j =>
    let d := (h.sq + 256 - s.rd Reg.PQ_IN_PROD_EXPECT gb j) % 256
    if 128 ≤ d then .duplicate else if d ≠ 0 then .lacking j else .next j

/-- The in-port raises PQ_SEQ (R342, R343). -/
def State.seqFault (s : State) (gb j : Nat) : State :=
  let r := s.faultGet gb
  let t := r.1.setIn gb { r.1.inPort gb with lack := some j }
  (t.setWait gb 20 none).raise gb 20 0x0805 r.2 0 0

/-- The handles that wait in the in-port for their ring slots, in order of arrival: each is stored and acknowledged where its slots are
empty and no earlier one of its producer waits (R339, R347). -/
def State.settleAll (s : State) (gb : Nat) (blocked : List Nat) : List InWait → State
  | [] => s
  | x :: rest =>
    let h := Handle.ofWord x.word
    if blocked.contains x.prod || (s.regionWait gb (s.ringRegion gb x.prod h)).isSome then
      (s.setIn gb { s.inPort gb with waiting := (s.inPort gb).waiting ++ [x] }).settleAll gb (x.prod :: blocked) rest
    else ((s.ringStore gb x.prod h x.payload x.ecc).emit (.delivered h.device h.bench h.sq)).settleAll gb blocked rest

/-- The handles that wait in the in-port of a bench whose clock runs are stored where they can be. -/
def State.settleIn (s : State) (gb : Nat) : State :=
  let x := s.inPort gb
  if x.waiting = [] ∨ s.clockStopped gb = true then s else (s.setIn gb { x with waiting := [] }).settleAll gb [] x.waiting

/-- A handle with its payload that comes over the fabric (R339, R341, R342): it waits in the network where its ring slots are not empty
or the bench's clock is stopped, and its FSEQ with it. The second component is false where it waits. -/
def State.handleArrive (s : State) (gb : Nat) (w : DWord) (payload : List Byte) (ecc : List (Nat × Ecc)) : State × Bool :=
  let h := Handle.ofWord w
  if s.clockStopped gb then (s, false)
  else match s.judge gb h with
    | .unknown => (s, true)
    | .duplicate => (s.bump Reg.PQ_DUP_CNT_COUNT gb, true)
    | .lacking j => (s.seqFault gb j, true)
    | .next j =>
      if (s.regionWait gb (s.ringRegion gb j h)).isSome then (s, false)
      else ((s.ringStore gb j h payload ecc).wr Reg.PQ_IN_PROD_EXPECT gb (h.sq + 1) j, true)

/-- PQ_HANDLE_ARRIVAL (R339, R342, R347): a handle of this device's die or package network. The expected one is accepted; it is stored
and its delivery acknowledged where its ring slots are empty, and waits in the in-port otherwise. It waits in the network while the
clock of the bench is stopped (R34). -/
def execPqHandleArrival (gb : Nat) (word : DWord) (payload : List Byte) (ecc : List (Nat × Ecc)) (s : State) :
    Host.Outcome State Fault Refusal :=
  okIf (gb < 2560)
    (if s.clockStopped gb then s
    else match s.judge gb (Handle.ofWord word) with
      | .unknown => s
      | .duplicate => s.bump Reg.PQ_DUP_CNT_COUNT gb
      | .lacking j => s.seqFault gb j
      | .next j =>
        let t := s.wr Reg.PQ_IN_PROD_EXPECT gb ((Handle.ofWord word).sq + 1) j
        let x := t.inPort gb
        (t.setIn gb { x with waiting := x.waiting ++ [{ prod := j, word := word, payload := payload, ecc := ecc }] }).settleIn gb)

/-- A handle that was under way has arrived or failed: a report of its wait says nothing of the next (R345). -/
def State.endSend (s : State) (gb : Nat) : State := { s with longSaid := s.longSaid.put false (32 * gb + 21) false }

/-- The delivery of a sent handle is complete: its consume takes effect and it is counted (R338, R339). -/
def State.delivered (s : State) (gb sq : Nat) : State :=
  match (s.outPort gb).find? (fun h => h.stage == 2 && (Handle.ofWord h.word).sq == sq) with
  | none => s
  | some h =>
    let t := ((s.setOut gb ((s.outPort gb).erase h)).outConsume gb h).endSend gb
    (t.bump Reg.PQ_PUT_CNT_COUNT gb).bump Reg.PQ_KIB_COUNT gb ((Handle.ofWord h.word).len / 1024)

/-- A delivery failed lasting: PQ_LASTING (R338, R343). -/
def State.undelivered (s : State) (gb sq : Nat) : State :=
  match (s.outPort gb).find? (fun h => h.stage == 2 && (Handle.ofWord h.word).sq == sq) with
  | none => s
  | some h => (s.endSend gb).outFault gb 0x0806 0 h

/-- PQ_DELIVERY_ACK (R339): the completion of a delivery, or its lasting failure, reaches the out-port. -/
def execPqDeliveryAck (gb sq : Nat) (fails : Bool) (s : State) : Host.Outcome State Fault Refusal :=
  okIf (gb < 2560) (if s.clockStopped gb then s else if fails then s.undelivered gb sq else s.delivered gb sq)

/-- One credit more, up to ALLOT. -/
def State.creditBack (s : State) (gb : Nat) : State :=
  s.wr Reg.PQ_OUT_CREDIT_CREDIT gb (min (s.rd Reg.PQ_OUT_CREDIT_CREDIT gb + 1) (s.rd Reg.PQ_OUT_CREDIT_ALLOT gb))

/-- PQ_CREDIT_RETURN (R340). -/
def execPqCreditReturn (gb : Nat) (s : State) : Host.Outcome State Fault Refusal :=
  okIf (gb < 2560) (if s.clockStopped gb then s else s.creditBack gb)

/-- The out-port drops its faulted handles (R343, RESUME_SKIP): the source of each takes its consume, its credit returns and its SEQ is
given back. -/
def State.dropFaulted (s : State) (gb : Nat) : State :=
  ((s.outPort gb).filter (fun h => h.stage == 3)).foldl (fun t h =>
    let t := ((t.setOut gb ((t.outPort gb).erase h)).outConsume gb h).creditBack gb
    t.wr Reg.PQ_OUT_CREDIT_SEQ gb (t.rd Reg.PQ_OUT_CREDIT_SEQ gb + 255)) s

/-- The out-port sends its faulted handle again under its SEQ (R343, RESUME_REISSUE). -/
def State.resendFaulted (s : State) (gb : Nat) : State :=
  s.setOut gb ((s.outPort gb).map (fun h => if h.stage = 3 then { h with stage := 1 } else h))

/-- The in-port passes over the SEQ it lacked (R343). -/
def State.passLacked (s : State) (gb : Nat) : State :=
  match (s.inPort gb).lack with
  | none => s
  | some j => (s.setIn gb { s.inPort gb with lack := none }).wr Reg.PQ_IN_PROD_EXPECT gb (s.rd Reg.PQ_IN_PROD_EXPECT gb j + 1) j

/-! ### Benches that wait on each other -/

/-- The wait of a unit, with 22 the sequencer's barrier wait. -/
def State.waitOf (s : State) (gb u : Nat) : Option (Nat × Nat) := s.waits.get none (32 * gb + u)

/-- The ring slot that the in-port waits for, to store a handle (R339, R344). -/
def State.ringWait (s : State) (gb : Nat) : Option (Nat × Nat) :=
  (s.inPort gb).waiting.findSome? (fun x => s.regionWait gb (s.ringRegion gb x.prod (Handle.ofWord x.word)))

/-- A handle of the bench is under way to a bench of the device whose clock is stopped (R34, R345). -/
def State.sendsToStopped (s : State) (gb : Nat) : Bool :=
  s.on Reg.PQ_OUT_ROUTE_VALID gb && s.rd Reg.PQ_OUT_ROUTE_DEVICE gb == s.devId &&
    s.clockStopped (s.rd Reg.PQ_OUT_ROUTE_BENCH gb) && (s.outPort gb).any (fun h => h.stage == 2)

/-- The wait of a unit as a bench's record of it shows (R344): the one that stands, that of the in-port for its ring slots, or that of the
out-port for a stopped bench. -/
def State.unitWait (s : State) (gb u : Nat) : Option (Nat × Nat) :=
  match s.waitOf gb u with
  | some w => some w
  | none => if u = 20 then s.ringWait gb else if u = 21 ∧ s.sendsToStopped gb = true then some (11, 0) else none

/-- A group spans devices (R364). -/
def State.spans (s : State) (group : Nat) : Bool := (List.range 16).any (fun d => s.on Reg.NOC_BAR_CFG_SPANS d group)

/-- The wait of a unit lies outside (R345). -/
def State.waitsOutside (s : State) (gb u : Nat) : Bool :=
  match s.waitOf gb u with
  | some (4, _) => s.rd Reg.PQ_OUT_ROUTE_DEVICE gb != s.devId
  | some (5, _) => (List.range 16).any (fun j => s.on Reg.PQ_IN_PROD_VALID gb j &&
      (s.producers.get 0 (16 * gb + j) - 1) / 4096 != s.devId)
  | some (9, c) => s.spans (s.rd Reg.SEQ_BAR_INFO_GROUP gb c)
  | _ => false

/-- Some wait of a bench lies outside, a fabric transfer's among them (R345). -/
def State.outside (s : State) (gb : Nat) : Bool :=
  (List.range 23).any (s.waitsOutside gb) || s.xfers.any (fun x => x.gb == gb && x.tgt == 1 && x.phase == .requested)

/-- The first unit that waits on a cause of R344; a barrier that spans devices is none. -/
def State.firstWait (s : State) (gb : Nat) : Option (Nat × Nat × Nat) :=
  (List.range 23).findSome? (fun u => match s.unitWait gb u with
    | some (c, o) => if c = 9 ∧ s.waitsOutside gb u = true then none else some (u, c, o)
    | none => none)

/-- BENCH_STUCK (R344): `cycles` of the bench's own cycles, at least 32,768, have passed without progress while a unit waits. -/
def execBenchStuck (gb cycles : Nat) (s : State) : Host.Outcome State Fault Refusal :=
  okIf (gb < 2560)
    (if 32768 ≤ cycles ∧ (s.firstWait gb).isSome then
      (s.flag Reg.BENCH_WAIT_STATUS_STUCK gb true).wr Reg.BENCH_WAIT_CYC_CYCLES gb (min cycles (2 ^ 32 - 1))
    else s)

/-- A handle that the out-port has sent stands in the in-port at the route's end and waits there for its ring slots. -/
def State.atInPort (s : State) (gb : Nat) (h : OutHandle) : Bool :=
  (s.inPort (s.rd Reg.PQ_OUT_ROUTE_BENCH gb)).waiting.any (fun x => x.word == h.word)

/-- A handle or a credit of a route within the device is in transit: a handle sent that has not reached its in-port, or whose
acknowledgement is under way, or a credit that neither end holds (R345). -/
def State.inTransit (s : State) (gb : Nat) : Bool :=
  s.on Reg.PQ_OUT_ROUTE_VALID gb && s.rd Reg.PQ_OUT_ROUTE_DEVICE gb == s.devId &&
  (let sent := ((s.outPort gb).filter (fun h => decide (1 ≤ h.stage))).length
   let t := s.rd Reg.PQ_OUT_ROUTE_BENCH gb
   let out := match s.producerOf t s.devId gb with
     | some j => s.rd Reg.PQ_IN_PROD_OUT t j
     | none => 0
   (s.outPort gb).any (fun h => h.stage == 2 && !s.atInPort gb h) || s.rd Reg.PQ_OUT_CREDIT_CREDIT gb + sent + out != s.rd Reg.PQ_OUT_CREDIT_ALLOT gb)

/-- The partition is deadlocked (R345). -/
def State.deadlocked (s : State) (p : Nat) : Bool :=
  let bs := (List.range 2560).filter (fun gb => s.partOf gb == p)
  bs.any (fun gb => s.on Reg.BENCH_WAIT_STATUS_STUCK gb) &&
  bs.all (fun gb => (s.on Reg.BENCH_WAIT_STATUS_STUCK gb || [SeqState.idle, .halted, .ended, .fault].contains (s.seqState gb)) &&
    !s.outside gb && !s.clockStopped gb && !s.xfers.any (fun x => x.gb == gb && x.tracked) && !s.inTransit gb)

/-- The OBJECT of a wait (R346): the slot, pot or barrier context that it names; for a wait for a credit, the next ring slot of the
bench at the end of the route, on which that bench waits (DEDUCED, assumption log 26). -/
def State.waitObject (s : State) (gb cause obj : Nat) : Nat :=
  let t := s.rd Reg.PQ_OUT_ROUTE_BENCH gb
  match cause, s.producerOf t s.devId gb with
  | 4, some j =>
    if s.rd Reg.PQ_OUT_ROUTE_DEVICE gb = s.devId then
      s.rd Reg.PQ_IN_PROD_BASE t j + s.ringPos.get 0 (16 * t + j) * (s.rd Reg.PQ_OUT_CREDIT_HSLOTS gb + 1)
    else obj
  | _, _ => obj

/-- The wait word of a bench (R346). -/
def State.waitWord (s : State) (gb : Nat) : Nat :=
  let w := (s.firstWait gb).getD (31, 0, 0)
  gb * 2 ^ 52 + w.1 * 2 ^ 47 + w.2.1 * 2 ^ 43 + s.waitObject gb w.2.1 w.2.2 % 512 * 2 ^ 34 + (s.seqState gb).num * 2 ^ 31 + s.pc gb * 2 ^ 19 +
    min (s.rd Reg.BENCH_WAIT_CYC_CYCLES gb) (2 ^ 19 - 1)

/-- A partition fault puts a bench into FAULT (R282, R346, R482); its units stay where they are. -/
def State.faultBench (s : State) (code gb : Nat) : State :=
  if s.seqState gb = .fault then s.flag Reg.SEQ_STATUS_MULTI gb true
  else
    let t := (s.setSeqState gb .fault).wr Reg.SEQ_FAULT_CODE gb code
    let t := (t.wr Reg.SEQ_FAULT_PC gb (s.pc gb)).wr Reg.SEQ_FAULT_POS_UNIT gb 22
    t.wr Reg.SEQ_FAULT_POS_ITER gb 0

/-- DEADLOCK_DETECT (R345, R346): a further 32,768 cycles have passed for a partition that is deadlocked. -/
def execDeadlockDetect (p : Nat) (s : State) : Host.Outcome State Fault Refusal :=
  okIf (p < 16)
    (if s.deadlocked p then
      let a := s.rd Reg.PART_SNAPSHOT_ADDR 0 p * 128
      let bs := (List.range 2560).filter (fun gb => s.partOf gb == p)
      let t := bs.foldl (fun t gb => t.storeNum (a + 8 * gb) 8 (s.waitWord gb)) s
      let t := bs.foldl (fun t gb => t.faultBench 0x0720 gb) t
      let t := t.wr Reg.PART_STATUS_STATE 0 3 p
      t.record (mkRec 0x0720 2 p (bs.headD 0) 31 a 0) (t.ringOf p)
    else s)

/-- The report of a long wait was made for the wait of a unit that stands, and the state in which it was (R345). -/
def State.saidLong (s : State) (gb u : Nat) : Bool := s.longSaid.get false (32 * gb + u)
def State.sayLong (s : State) (gb u : Nat) : State := { s with longSaid := s.longSaid.put false (32 * gb + u) true }

/-- PQ_REMOTE_LONG (R345): a punty wait that lies outside has lasted 2^24 cycles; one report for the wait. -/
def execPqRemoteLong (gb : Nat) (s : State) : Host.Outcome State Fault Refusal :=
  okIf (gb < 2560)
    (match [20, 21].find? (fun u => s.waitsOutside gb u && !s.saidLong gb u) with
    | some u => (s.sayLong gb u).benchReport gb u 0x0807 0
    | none => s)

/-- STREAM_CLOCK_WAIT (R345): a wait on a bench whose clock is stopped has lasted 65,536 cycles; one report for the wait. -/
def execStreamClockWait (gb : Nat) (s : State) : Host.Outcome State Fault Refusal :=
  okIf (gb < 2560)
    (match (List.range 22).find? (fun u => (s.unitWait gb u).map Prod.fst == some 11 && !s.saidLong gb u) with
    | some u => (s.sayLong gb u).benchReport gb u 0x0721 0
    | none => s)

end Sys2Proof.Machine
end

