-- ==== Sys2Proof/Machine/Integrity.lean ====
section
/-! DEFINITION. Storms, self-test slices, cullet lists and shadow reloads of a pot (R135 to R148, R198). -/

namespace Sys2Proof.Machine

open Sys2Proof

/-- The state after a slice has completed: it runs no longer, the age and deferral counts start again, and the request that it answers
is spent (R146, R147, R149). A slice of the metadata leaves a wanted slice of the cells. -/
def State.sliceDone (s : State) (gb p result waited : Nat) (meta_ : Bool) : State :=
  let gp := potIx gb p
  let x := s.potx gp
  let s := s.setPotx gp (if meta_ then { x with metaDue := false, forced := false, overdue := false, ageAt := s.lifeNs }
    else { x with want := none, forced := false, overdue := false, suspects := [], ageAt := s.lifeNs })
  let s := s.flag Reg.POT_INTEG_ST_PENDING gp ((s.potx gp).due.isSome)
  let s := s.wr Reg.POT_ST_INFO_AGE gp 0
  let s := s.wr Reg.POT_ST_INFO_DEFERRALS gp 0
  ((s.wr Reg.POT_ST_INFO_RESULT gp result).bump Reg.BENCH_ST_WAIT_COUNT gb waited).endSlice gb p

/-- The cullet entries of a pot, as segment, column and spare. -/
def State.cullets (s : State) (gp : Nat) : List (Nat × Nat × Nat) :=
  (List.range (s.rd Reg.POT_INTEG_CULLET_USED gp)).map (fun k =>
    (s.rd Reg.POT_CULLET_SEGMENT gp k, s.rd Reg.POT_CULLET_COLUMN gp k, s.rd Reg.POT_CULLET_SPARE gp k))

/-- One entry added to the cullet list (R140, R150). -/
def State.addCullet (s : State) (gb p seg col spare : Nat) (marginal : Bool) : State :=
  let gp := potIx gb p
  let k := s.rd Reg.POT_INTEG_CULLET_USED gp
  let s := s.flag Reg.POT_CULLET_VALID gp true k
  let s := s.wr Reg.POT_CULLET_SEGMENT gp seg k
  let s := s.wr Reg.POT_CULLET_COLUMN gp col k
  let s := s.wr Reg.POT_CULLET_SPARE gp spare k
  let s := s.flag Reg.POT_CULLET_MARGINAL gp marginal k
  (s.wr Reg.POT_INTEG_CULLET_USED gp (k + 1)).benchReport gb p 0x0148 0

/-- The pot retired (R140). -/
def State.retire (s : State) (gb p : Nat) : State := s.flag Reg.POT_INTEG_RETIRED (potIx gb p) true

/-- One bad element remapped, a spare barred, or the pot retired (R140). A spare already barred and a column already remapped are
in no use, and nothing follows from them (DEDUCED, assumption log 78). -/
def State.remapElem (s : State) (gb p : Nat) (b : BadElem) : State :=
  let gp := potIx gb p
  let mine := (s.cullets gp).filter (fun c => c.1 == b.segment)
  let usedSpare := fun k => mine.any (fun c => c.2.2 == k)
  if 132 ≤ b.column then
    let k := b.column - 132
    if mine.any (fun c => c.2.2 == k && decide (c.2.1 < 132)) then s.retire gb p
    else if usedSpare k then s
    else s.addCullet gb p b.segment b.column k b.marginal
  else if mine.any (fun c => c.2.1 == b.column) then s
  else if usedSpare 0 = false then s.addCullet gb p b.segment b.column 0 b.marginal
  else if usedSpare 1 = false then s.addCullet gb p b.segment b.column 1 b.marginal
  else s.retire gb p

/-- The bad elements in the order in which a slice acts on them: segments ascending (R139), and in a segment the spares before the
columns, since a column moves to a good spare (R140). -/
def slicedOrder (bad : List BadElem) : List BadElem :=
  (List.range 8).flatMap (fun g =>
    let mine := bad.filter (fun b => b.segment == g)
    mine.filter (fun b => decide (132 ≤ b.column)) ++ mine.filter (fun b => decide (b.column < 132)))

/-- The cells of a segment cleared (R139). -/
def State.clearSegment (s : State) (gp seg : Nat) : State :=
  let cut := fun v : Nat => v - v / 2 ^ (128 * seg) % 2 ^ 128 * 2 ^ (128 * seg)
  { s with cells := (s.cells.map (fun e =>
             if e.1 / 1024 = gp then (e.1, BitVec.ofNat 1024 (cut e.2.toNat)) else e)).filter (fun e => e.2 != 0) }

/-- What follows a slice that cleared cells: the reload from the shadow becomes due, or the pot reports that it has none
(R142). -/
def State.afterSlice (s : State) (gb p : Nat) : State :=
  let gp := potIx gb p
  let s := s.flag Reg.POT_CFG_VALID gp false
  if s.on Reg.POT_INTEG_RETIRED gp then s
  else if s.on Reg.POT_INTEG_SHADOW_OK gp then s.setPotx gp { s.potx gp with reload := true }
  else s.benchReport gb p 0x0143 0

/-- POT_WIT_STORM (R137): the sixteenth transient of an epoch. The slice is to test the segment of that transient. -/
def execPotWitStorm (gb p : Nat) (s : State) : Host.Outcome State Fault Refusal :=
  okIf (gb < 2560 && p < 16)
    (let gp := potIx gb p
     let x := s.potx gp
     if x.stormCount < 16 then s
     else (((s.setPotx gp { x with stormCount := 0 }).suspect gp [x.stormSeg]).beginSlice gb p false).benchReport gb p 0x0141 0)

/-- A slice command finds its slice: running, so that it ends now; or due, in which case the whole slice is this step where it may
start, and is deferred where the window is shut (R145, R146; assumption log 21). `act` is what the slice does. -/
def State.runSlice (s : State) (gb p : Nat) (due running : Bool) (act : State → State) : State :=
  if !due || s.on Reg.POT_INTEG_RETIRED (potIx gb p) then s
  else if running then act s
  else if !s.potIdle gb p then s
  else if s.windowOk (gb / 160) then act s
  else s.deferSlice gb p

/-- The pot's slice of cells, or of metadata, runs (R149). -/
def State.sliceRuns (s : State) (gp : Nat) (k : SliceKind) (meta_ : Bool) : Bool :=
  s.on Reg.POT_INTEG_ST_ACTIVE gp && s.rd Reg.POT_INTEG_ST_KIND gp == k.num && (s.potx gp).metaRun == meta_

/-- TARGETED_SLICE (R138 to R140, R142, R145): `bad` lists the elements found bad in the suspect segments, `logic` says that a
row, a tree, a position counter or the column-witness file failed, `waited` counts cycles instructions waited. -/
def execTargetedSlice (gb p : Nat) (bad : List BadElem) (logic : Bool) (waited : Nat) (s : State) :
    Host.Outcome State Fault Refusal :=
  okIf (gb < 2560 && p < 16)
    (let gp := potIx gb p
     let x := s.potx gp
     s.runSlice gb p (x.want == some .targeted) (s.sliceRuns gp .targeted false) (fun s =>
       let mine := slicedOrder (bad.filter (fun b => x.suspects.contains b.segment))
       let used := s.rd Reg.POT_INTEG_CULLET_USED gp
       let s := x.suspects.foldl (fun t g => t.clearSegment gp g) s
       let s := mine.foldl (fun t b => t.remapElem gb p b) s
       let s := if logic then s.retire gb p else s
       let retired := s.on Reg.POT_INTEG_RETIRED gp
       let same := decide (s.rd Reg.POT_INTEG_CULLET_USED gp = used)
       let s := if same ∧ retired = false then s.bump Reg.POT_INTEG_NFF gp else s
       ((s.sliceDone gb p (if retired then 3 else if same then 4 else 2) waited false).afterSlice gb p).nextSlice gb))

/-- Row `i` of a repair reload from the shadow: read, written, and its witnesses compared (R142, R148). -/
def reloadRow (gb p : Nat) (env : EngEnv) (l : LoadOp) (f : WFmt) (i : Nat) : Act Unit := do
  let gp := potIx gb p
  let bs ← tierRead gb env i (l.src + 128 * i) 128
  plainRow gp l f i bs
  let s ← get
  let evs := env.wit.filter (fun v => v.pos == i)
  let _ ← witCheck gp 0 (i / 32) (i % 32) false 0x0140 (fun s => s.bump Reg.POT_FRZ_RETRY_COUNT gp 2) evs (s.rowPairs gp f i evs)

/-- SHADOW_RELOAD (R142, R187): all rows from the shadow, as a full load, or a full tiled load whose headers give the format. A
failure leaves VALID at 0; with the bench's clock stopped nothing happens (R33). -/
def execShadowReload (gb p : Nat) (env : EngEnv) (s : State) : Host.Outcome State Fault Refusal :=
  okIf (gb < 2560 && p < 16)
    (let gp := potIx gb p
     let x := s.potx gp
     if x.reload = false ∨ s.clockStopped gb = true then s
     else
       let s := s.setPotx gp { x with reload := false }
       let role := s.rd Reg.POT_CFG_ROLE gp
       let wf := s.rd Reg.POT_CFG_WFMT gp
       let l : LoadOp := { tierA := true, wfmt := wf, rowFirst := 0, rows := 1024,
                           src := 128 * s.rd Reg.POT_SHADOW_ADDR gp }
       let body : Act Nat :=
         if tiledPot role p then do
           let w ← reloadTiles gp role env l (fun off n => tierRead gb env (off / 128) (l.src + off) n) 33 { next := 0, log := 0 }
           modify (fun s => s.showTiles gp true)
           pure (w.getD wf)
         else do
           (List.range 1024).forM (reloadRow gb p env l ((WFmt.ofNum wf).getD .w4))
           pure wf
       match body.run (s.dropRun gp) with
       | (.ok w, t) => t.loadDone gp w true
       | (.error (.fault c _), t) =>
         (t.benchReport gb p (if c = 0x0709 then 0x0144 else c) (if c = 0x0140 then t.witInfo gp else 0)).bump Reg.FLT_DEP_COUNT 0
       | (.error _, t) => t)

/-- ST_REQ (R146, R149): a request for a pot with a slice pending is absorbed, one for a retired pot ignored. The slice starts where it
may. -/
def execStReq (gb p : Nat) (s : State) : Host.Outcome State Fault Refusal :=
  okIf (gb < 2560 && p < 16)
    (let gp := potIx gb p
     let s := s.wr Reg.BENCH_ST_CTRL_POT gb p
     if s.on Reg.POT_INTEG_RETIRED gp ∨ (s.potx gp).want.isSome = true then s
     else ((s.setPotx gp { s.potx gp with want := some .inService }).flag Reg.POT_INTEG_ST_PENDING gp true).beginSlice gb p false)

/-- IN_SERVICE_SLICE (R144 to R147): `fails` lists the segments that failed, `logic` says that logic of no one segment failed,
`metaBad` that a metadata word or tile entry did (R198). A failure starts the targeted slice at once. -/
def execInServiceSlice (gb p : Nat) (fails : List Nat) (logic metaBad : Bool) (waited : Nat) (s : State) :
    Host.Outcome State Fault Refusal :=
  okIf (gb < 2560 && p < 16)
    (let gp := potIx gb p
     s.runSlice gb p ((s.potx gp).want == some .inService) (s.sliceRuns gp .inService false) (fun s =>
       -- a pot with VALID = 0 gets the destructive march over all columns
       let s := if s.on Reg.POT_CFG_VALID gp then s
                else { s with cells := s.cells.clear (1024 * gp) (1024 * gp + 1024) }
       -- a failed slice leaves RESULT to the targeted slice that follows (DEDUCED, assumption log 78)
       let ok := fails.isEmpty && !logic && !metaBad
       let s := s.sliceDone gb p (if ok then 1 else s.rd Reg.POT_ST_INFO_RESULT gp) waited false
       if ok then s.nextSlice gb
       else
         let s := if metaBad then s.metaBad gp else s
         let s := if fails.isEmpty ∧ logic = false then s else s.suspect gp (if logic then List.range 8 else fails)
         (s.benchReport gb p 0x0147 (s.witInfo gp)).beginSlice gb p true))

/-- SLICE_FORCE_TIMEOUT (R146): a pending slice has waited 1 s; the pot holds its next instruction. -/
def execSliceForceTimeout (gb p : Nat) (s : State) : Host.Outcome State Fault Refusal :=
  okIf (gb < 2560 && p < 16)
    (let gp := potIx gb p
     if (s.potx gp).due.isSome then s.setPotx gp { s.potx gp with forced := true } else s)

/-- POT_ST_OVERDUE (R147): AGE reaches 600 s; the pot reports once and keeps working. -/
def execPotStOverdue (gb p : Nat) (s : State) : Host.Outcome State Fault Refusal :=
  okIf (gb < 2560 && p < 16)
    (let gp := potIx gb p
     let shown := max 600 (s.rd Reg.POT_ST_INFO_AGE gp)
     let s := (s.wr Reg.POT_ST_INFO_AGE gp shown).setPotx gp
       { s.potx gp with ageAt := s.lifeNs - (max 600 (s.potAge gp) - shown) * 10 ^ 9 }
     if (s.potx gp).overdue then s
     else (s.setPotx gp { s.potx gp with overdue := true }).benchReport gb p 0x0146 0)

/-- META_SLICE (R198, R199): after a lasting metadata fault, behind a wanted slice of the cells; `badWord` says that the march found a
bad word. -/
def execMetaSlice (gb p : Nat) (badWord : Bool) (waited : Nat) (s : State) : Host.Outcome State Fault Refusal :=
  okIf (gb < 2560 && p < 16)
    (let gp := potIx gb p
     let x := s.potx gp
     s.runSlice gb p (x.metaDue && x.want.isNone) (s.sliceRuns gp .targeted true) (fun s =>
       let s := { s with metaRam := s.metaRam.clear (1024 * gp) (1024 * gp + 1024) }
       let s := if badWord then (s.retire gb p).benchReport gb p 0x0311 0 else s.bump Reg.POT_INTEG_NFF gp
       ((s.sliceDone gb p (if badWord then 3 else 4) waited true).afterSlice gb p).nextSlice gb))

end Sys2Proof.Machine
end

