-- ==== Sys2Proof/Machine/Jack.lean ====
section
/-! DEFINITION. The jack engine: the multiply array (R227 to R234) and the jack's checks, regions and self-test (R240, R241,
R533). -/

namespace Sys2Proof.Machine

open Sys2Proof

/-- What a jack holds beside its banks and registers, and the state with it replaced. -/
def State.jackx (s : State) (gb : Nat) : JackX := s.jacks.get {} gb
def State.setJackx (s : State) (gb : Nat) (x : JackX) : State :=
  ({ s with jacks := s.jacks.put {} gb x } : State).flag Reg.JACK_STATUS_CHAIN gb x.kept.isSome

/-- A jack descriptor (R241) with IREG, bounds and iteration i applied (R271, R273, R296). Addresses are granules. -/
structure JackOp where
  op : Nat
  bf : Bool
  asign : Bool
  ssign : Bool
  cont : Bool
  flushFault : Bool
  outfmt : Nat
  eb : Nat
  m : Nat
  kt : Nat
  /-- the reduction extent that BK leaves in the last tile, none where it does not clip -/
  remK : Option Nat
  reuse : Bool
  vop : Nat
  rnd : Bool
  a : Nat
  vsign : Bool
  vtype : Nat
  bcast : Bool
  mxfmt : Nat
  inAddr : Int
  iscale : Int
  outAddr : Int
  oscale : Int
  stat : Nat
  sscale : Nat
  vlen : Nat
  vrows : Nat
  imm : Word
  deriving DecidableEq, Repr

def Entry.jack (e : Entry) (i : Nat) : JackOp :=
  let w0 := e.dw 0; let w1 := e.dw 1; let w2 := e.dw 2; let w3 := e.dw 3
  let rk := if e.empty then none else e.remK
  let rn := if e.empty then none else e.remN
  { op := fld w0 63 60, bf := fld w0 59 59 = 1, asign := fld w0 58 58 = 1, ssign := fld w0 57 57 = 1, cont := fld w0 56 56 = 1,
    flushFault := fld w0 55 55 = 1, outfmt := fld w0 54 53, eb := fld w0 52 45, m := clip (fld w0 44 37 + 1) rn,
    kt := match rk with
      | some r => min (fld w0 36 30 + 1) (ceilDiv r.toNat 32)
      | none => fld w0 36 30 + 1,
    remK := rk.map Int.toNat, reuse := fld w0 29 29 = 1, vop := fld w0 28 25, rnd := fld w0 24 24 = 1, a := fld w0 23 21 + 1,
    vsign := fld w0 20 20 = 1, vtype := fld w0 19 18, bcast := fld w0 17 17 = 1, mxfmt := fld w0 16 15,
    inAddr := advanceAddr (e.inAddr (fld w1 63 50)) (e.stride 0) i, iscale := advanceAddr (fld w1 49 36) (e.stride 1) i,
    outAddr := advanceAddr (fld w1 35 22) (e.stride 2) i, oscale := advanceAddr (fld w1 21 8) (e.stride 3) i,
    stat := fld w2 63 50, sscale := fld w2 49 36, vlen := clip (fld w3 63 52 + 1) rk, vrows := clip (fld w3 51 44 + 1) rn,
    imm := BitVec.ofNat 32 (fld w3 43 12) }

/-- The types that a VOP takes (R235). -/
def vopTypes (vop : Nat) : List Nat :=
  match vop with
  | 0 => [0, 1, 2] | 1 => [0, 1, 2] | 2 => [0, 1, 2] | 8 => [0, 1, 2] | 9 => [0, 1, 2]
  | 12 => [2, 3] | 13 => [0, 1, 2, 3] | 14 => [0, 1, 2, 3] | 15 => [1, 3]
  | _ => [0, 1]

/-- The descriptor breaks JACK_DESC (R232, R236, R241). -/
def jackDescBad (e : Entry) : Bool :=
  let d := e.jack 0
  decide (2 ≤ d.op) || fld (e.dw 0) 14 0 != 0 || fld (e.dw 1) 7 0 != 0 || fld (e.dw 2) 35 0 != 0 || fld (e.dw 3) 11 0 != 0 ||
  (d.op == 0 && (d.outfmt == 3 || (d.outfmt == 1 && !d.bf))) ||
  (d.op == 1 && (!(vopTypes d.vop).contains d.vtype || (decide (14 ≤ d.vop) && decide (2 ≤ d.mxfmt))))

/-- Bytes of an element of a plain type, and blocks of a row. -/
def JackOp.size (d : JackOp) : Nat := if d.vtype = 1 then 2 else 4
def JackOp.nb (d : JackOp) : Nat := ceilDiv d.vlen 32

/-- Bytes of one row in a type: 3 is A-a blocks. -/
def JackOp.rowBytes (d : JackOp) (t : Nat) : Nat := if t = 3 then d.nb * (4 * d.a) else d.vlen * (if t = 1 then 2 else 4)

/-- Bytes of one MX block of a format: 32 elements of 4 or 8 bits. -/
def JackOp.mxBytes (d : JackOp) : Nat := if d.mxfmt = 0 then 16 else 32

/-- The second operand exists: ADD, MUL, MAX. -/
def JackOp.two (d : JackOp) : Bool := decide (d.vop ≤ 2)

/-- The scales of the input are read: A-a input, or an MX import. -/
def JackOp.scaled (d : JackOp) : Bool := d.vop == 14 || ([12, 13, 15].contains d.vop && d.vtype == 3)

/-- Bytes of one input row, one output row, one row of output scales (R235, R238, R239, R78 to R80). -/
def JackOp.inRow (d : JackOp) : Nat := if d.vop = 14 then d.nb * d.mxBytes else d.rowBytes d.vtype
def JackOp.outRow (d : JackOp) : Nat :=
  match d.vop with
  | 8 => d.size
  | 9 => d.size
  | 11 => d.nb * (4 * d.a)
  | 12 => d.vlen * 4
  | 14 => d.nb * 32
  | 15 => d.nb * d.mxBytes
  | _ => d.rowBytes d.vtype
def JackOp.outScaled (d : JackOp) : Bool := d.vop == 11 || d.vop == 14 || d.vop == 15 || (d.vop == 13 && d.vtype == 3)

/-- An MXFP4 import writes row images of the W5 format, one for each element of a row, and a weight-scale table (R78, assumption
log 33). -/
def JackOp.image (d : JackOp) : Bool := d.vop == 14 && d.mxfmt == 0

/-- The bytes of a row's blocks of `bits`-bit elements that hold its elements: what pads the last block is not read (R37, R271). -/
def JackOp.blockBytes (d : JackOp) (bits : Nat) : Nat := (d.nb - 1) * (4 * bits) + ceilDiv ((d.vlen - 32 * (d.nb - 1)) * bits) 8

/-- The bytes of an input row that are read. -/
def JackOp.inReal (d : JackOp) : Nat :=
  if d.vop = 14 then d.blockBytes (if d.mxfmt = 0 then 4 else 8) else if d.vtype = 3 then d.blockBytes d.a else d.inRow

/-- The input regions of a VEC: first operand, second operand, scales. -/
def JackOp.vecIn (d : JackOp) (w : DWord) : List Region :=
  [regionAt d.inAddr 0 ((d.vrows - 1) * d.inRow + d.inReal) false (tagIn w)] ++
  (if d.two then [regionAt d.stat 0 (d.vrows * (if d.bcast then d.size else d.inRow)) false (tagIn w)] else []) ++
  (if d.scaled then [regionAt d.iscale 0 (d.vrows * d.nb) false (tagIn w)] else [])

/-- The output regions of a VEC: elements, scales. -/
def JackOp.vecOut (d : JackOp) (w : DWord) : List Region :=
  if d.image then
    [regionAt d.outAddr 0 (128 * d.vlen * ceilDiv d.vrows 200) true (tagOut w),
     regionAt d.oscale 0 (2 * d.vrows) true (tagOut w)]
  else
    [regionAt d.outAddr 0 (d.vrows * d.outRow) true (tagOut w)] ++
    (if d.outScaled then [regionAt d.oscale 0 (d.vrows * d.nb) true (tagOut w)] else [])

/-- The reduction extent within the last tile: BK may clip it (R271). -/
def JackOp.lastLim (d : JackOp) : Nat :=
  match d.remK with
  | some r => min 32 (r - 32 * (d.kt - 1))
  | none => 32

/-- The reduction extent within tile `kt`. -/
def JackOp.limAt (d : JackOp) (kt : Nat) : Nat := if kt + 1 = d.kt then d.lastLim else 32

/-- Bytes of an element of an MM, of a slice, and of a tile. -/
def JackOp.esz (d : JackOp) : Nat := if d.bf then 2 else 1
def JackOp.sliceLen (d : JackOp) : Nat := 32 * d.esz
def JackOp.tileLen (d : JackOp) : Nat := 1024 * d.esz

/-- The regions of an MM (R228, R298): a region that the operation does not read or write is left out, and what lies past the clipped
extent of the last tile or slice is not read (R271). -/
def JackOp.mmIn (d : JackOp) (w : DWord) : List Region :=
  [regionAt d.inAddr 0 ((d.m * d.kt - 1) * d.sliceLen + d.lastLim * d.esz) false (tagIn w)] ++
  (if d.bf then [] else [regionAt d.iscale 0 (d.m * d.kt) false (tagIn w)]) ++
  (if d.reuse then [] else [regionAt d.stat 0 ((d.kt - 1) * d.tileLen + d.lastLim * d.sliceLen) false (tagIn w)] ++
    (if d.bf then [] else [regionAt d.sscale 0 (32 * d.kt) false (tagIn w)]))
def JackOp.mmOut (d : JackOp) (w : DWord) : List Region :=
  if d.outfmt = 2 then [] else [regionAt d.outAddr 0 (d.m * (if d.outfmt = 1 then 64 else 128)) true (tagOut w)]

/-- The input and the output regions of a jack instruction. -/
def JackOp.ins (d : JackOp) (w : DWord) : List Region := if d.op = 0 then d.mmIn w else d.vecIn w
def JackOp.outs (d : JackOp) (w : DWord) : List Region := if d.op = 0 then d.mmOut w else d.vecOut w

/-- The issue checks of R591 for JACK. -/
def jackChecks (gb : Nat) (e : Entry) (d : JackOp) : Act Unit := do
  let s ← get
  let x := s.jackx gb
  Act.check (jackDescBad e) 0x0401
  Act.check (d.op == 0 && d.cont && x.kept != some (Bool.num d.bf, d.m, d.eb)) 0x0407
  Act.check (d.op == 0 && d.reuse && (d.kt != 1 || (match x.tile with
    | some t => t.1 != Bool.num d.bf
    | none => true))) 0x0408
  Act.check ((d.ins e.word ++ d.outs e.word).any Region.past) 0x0402
  Act.check (tagSelf (d.ins e.word ++ d.outs e.word)) 0x0503

/-- The state with JACK_FAULT_POS set. -/
def State.jackPos (s : State) (gb tile row : Nat) : State :=
  (s.wr Reg.JACK_FAULT_POS_TILE gb tile).wr Reg.JACK_FAULT_POS_ROW gb row

/-- An action whose fault is recorded at a tile and row (R240, R243). -/
def atPos {α : Type} (gb tile row : Nat) (a : Act α) : Act α :=
  tryCatch a (fun st => do
    match st with
    | .fault _ _ => modify (fun s => s.jackPos gb tile row)
    | .wait _ _ => pure ()
    throw st)

/-! ### The multiply array -/

/-- Element r of a byte string of INT8 elements, signed or not; 0 for an index at or past `lim`. -/
def int8At (bs : List Byte) (sg : Bool) (lim i r : Nat) : Int :=
  if lim ≤ r then 0
  else
    let n := (bs.getD i 0).toNat
    if sg then signed 8 n else n

/-- The FP32 pattern of BF16 element i of a byte string; +0 for an index at or past `lim`. -/
def bfAt (bs : List Byte) (lim i r : Nat) : Word :=
  if lim ≤ r then 0 else BitVec.ofNat 32 (((bs.getD (2 * i) 0).toNat + 256 * (bs.getD (2 * i + 1) 0).toNat) * 65536)

/-- The tree sum of R231: index i is added to i + n / 2, level by level, over 2^k values. -/
def treeSum (f : Nat → Word) : Nat → Word
  | 0 => f 0
  | k + 1 => treeSum (fun i => add32 (f i) (f (i + 2 ^ k))) k

/-- A NaN result sets the sticky NANF flag (R231). -/
def State.noteNan (s : State) (gb : Nat) (w : Word) : State :=
  if w = 0x7FC00000 then s.flag Reg.JACK_STATUS_NANF gb true else s

/-- Accumulator of row m and column n of a bank. -/
def accKey (gb bank m n : Nat) : Nat := 16384 * gb + 8192 * bank + 32 * m + n

/-- The contribution of an INT8 slice and column to its accumulator (R230). -/
def int8Add (gb bank m n eA eS : Nat) (d : JackOp) (dot : Int) : Act Unit := do
  let k : Int := (eA : Int) + eS - 127 - d.eb
  if 8 < k then Act.fault 0x0403
  else if k < 0 then
    if d.flushFault then Act.fault 0x0405
    else modify (fun s => (s.flag Reg.JACK_STATUS_FLUSH gb true).bump Reg.JACK_FLUSH_CNT_COUNT gb)
  else
    let s ← get
    let v := signed 32 (s.jackAcc.get 0 (accKey gb bank m n)).toNat + dot * (2 ^ k.toNat : Nat)
    Act.check (decide (v < -(2 ^ 31)) || decide (2 ^ 31 - 1 < v)) 0x0406
    set { s with jackAcc := s.jackAcc.put 0 (accKey gb bank m n) (BitVec.ofInt 32 v) }

/-- The scratchpad accesses of a tile's load, and of slice (m, kt) (R228). -/
def JackOp.tileAt (d : JackOp) (w : DWord) (kt : Nat) : List Region :=
  if d.reuse then []
  else [⟨32 * d.stat + kt * d.tileLen, d.limAt kt * d.sliceLen, false, tagIn w⟩] ++
    (if d.bf then [] else [⟨32 * d.sscale + 32 * kt, 32, false, tagIn w⟩])
def JackOp.sliceAt (d : JackOp) (w : DWord) (kt m : Nat) : List Region :=
  [⟨32 * d.inAddr.toNat + (m * d.kt + kt) * d.sliceLen, d.limAt kt * d.esz, false, tagIn w⟩] ++
    (if d.bf then [] else [⟨32 * d.iscale.toNat + m * d.kt + kt, 1, false, tagIn w⟩])

/-- One slice of row m against the tile that the entry keeps (R229 to R231, R234). -/
def mmSlice (gb : Nat) (env : EngEnv) (e : Entry) (d : JackOp) (kt m : Nat) : Act Unit := do
  let x ← entryNow gb e
  let tile := x.kept.take d.tileLen
  let sc := x.kept.drop d.tileLen
  let lim := d.limAt kt
  let bs ← spadRead gb env (32 * d.inAddr.toNat + (m * d.kt + kt) * d.sliceLen) (lim * d.esz)
  let eA ← if d.bf then pure 0 else spadNum gb env (32 * d.iscale.toNat + m * d.kt + kt) 1
  Act.check (!d.bf && eA == 255) 0x0404
  let s ← get
  let bank := (s.jackx gb).bank
  modify (fun s => s.bump Reg.JACK_SLICE_CNT_COUNT gb)
  if env.res.any (fun r => r.1 == kt && r.2.1 == m) then
    modify (fun s => s.bump Reg.JACK_SLICE_CNT_COUNT gb)
    if env.res.any (fun r => r.1 == kt && r.2.1 == m && r.2.2) then Act.fault 0x0410
    else modify (fun s => s.bump Reg.JACK_RES_CNT_COUNT gb)
  else pure ()
  (List.range 32).forM (fun n => do
    if d.bf then
      let v := treeSum (fun i => mul32 (bfAt bs lim i i) (bfAt tile lim (32 * i + n) i)) 5
      modify (fun s =>
        let t := add32 (s.jackAcc.get 0 (accKey gb bank m n)) v
        ({ s with jackAcc := s.jackAcc.put 0 (accKey gb bank m n) t } : State).noteNan gb t)
    else
      let dot := ((List.range 32).map (fun r =>
        int8At bs d.asign lim r r * int8At tile d.ssign lim (32 * r + n) r)).sum
      int8Add gb bank m n eA (sc.getD n 0).toNat d dot)

/-- Tile kt enters the stationary buffer, rows past the clipped extent as zeros; with REUSE it stands there (R229, R230). -/
def mmTile (gb : Nat) (env : EngEnv) (e : Entry) (d : JackOp) (kt : Nat) : Act Unit := do
  let s ← get
  let old := (s.jackx gb).tile
  let bs ← if d.reuse then pure ((old.map (fun t => t.2.1)).getD [])
    else spadRead gb env (32 * d.stat + kt * d.tileLen) (d.limAt kt * d.sliceLen)
  let tile := bs ++ List.replicate (d.tileLen - bs.length) 0#8
  let sc ← if d.reuse then pure ((old.map (fun t => t.2.2)).getD [])
    else if d.bf then pure [] else spadRead gb env (32 * d.sscale + 32 * kt) 32
  Act.check (!d.bf && sc.any (fun b => b == 255#8)) 0x0404
  modify (fun s => s.setJackx gb { s.jackx gb with tile := if d.kt = 1 then some (Bool.num d.bf, tile, sc) else none })
  modNow gb e (fun x => { x with kept := tile ++ sc })

/-- The bytes of an output row (R228, R232). -/
def State.mmRow (s : State) (gb bank : Nat) (d : JackOp) (m : Nat) : List Byte :=
  (List.range 32).flatMap (fun n =>
    let v := s.jackAcc.get 0 (accKey gb bank m n)
    if d.outfmt = 1 then leBytes 2 ((toBf v).toNat / 65536) else leBytes 4 v.toNat)

/-- The bank of an MM: with CONT = 0 the other one, from zero (R232). -/
def mmStart (gb : Nat) (d : JackOp) : Act Unit :=
  modify (fun s =>
    let x := s.jackx gb
    let bank := if d.cont then x.bank else 1 - x.bank
    let s := if d.cont then s else
      { s with jackAcc := s.jackAcc.clear (16384 * gb + 8192 * bank) (16384 * gb + 8192 * bank + 8192) }
    s.setJackx gb { x with bank := bank, kept := none })

/-- Row m of the result leaves the bank (R228, R232). -/
def mmDrain (gb : Nat) (env : EngEnv) (d : JackOp) (m : Nat) : Act Unit := do
  let s ← get
  spadPut gb env (32 * d.outAddr.toNat + m * (if d.outfmt = 1 then 64 else 128)) (s.mmRow gb (s.jackx gb).bank d m)

/-- The steps of one MM in order: the bank, every tile and its slices, and the rows of the result or the kept bank (R229, R232). Each
waits on the slots that it is the first to touch (R249, R250). -/
def mmSteps (gb : Nat) (env : EngEnv) (e : Entry) (d : JackOp) : List (Act Unit) :=
  let w := e.word
  let plan := (List.range d.kt).flatMap (fun kt => d.tileAt w kt :: (List.range d.m).map (d.sliceAt w kt))
  let rows := (List.range d.m).map (fun m =>
    [(⟨32 * d.outAddr.toNat + m * (if d.outfmt = 1 then 64 else 128), if d.outfmt = 1 then 64 else 128, true, tagOut w⟩ : Region)])
  [mmStart gb d] ++
  (List.range d.kt).flatMap (fun kt =>
    atPos gb kt 0 (paced gb plan (kt * (d.m + 1)) (mmTile gb env e d kt)) ::
    (List.range d.m).map (fun m => atPos gb kt m (paced gb plan (kt * (d.m + 1) + m + 1) (mmSlice gb env e d kt m)))) ++
  (if d.outfmt = 2 then [modify (fun s => s.setJackx gb { s.jackx gb with kept := some (Bool.num d.bf, d.m, d.eb) })]
   else (List.range d.m).map (fun m => paced gb rows m (mmDrain gb env d m)))

/-- One iteration of a jack instruction with the steps that `steps` gives, after its issue checks (R591); an empty one only applies
its tag actions (R272). -/
def jackIter (gb : Nat) (e : Entry) (steps : JackOp → List (Act Unit)) (it : Nat) : Act Unit := do
  let d := e.jack it
  let x ← entryNow gb e
  if x.stage = 0 then jackChecks gb e d else pure ()
  if e.empty then
    awaitTags gb (d.ins e.word ++ d.outs e.word)
    countEmpty gb
    applyTags gb (d.ins e.word ++ d.outs e.word)
  else goOn gb e 0 (steps d)

/-- The jack runs its executing instruction where `sel` takes it, iteration by iteration (R304); `faulted` is what a fault of the
instruction leaves. A retired jack faults every instruction (R533). -/
def State.runJack (s : State) (gb : Nat) (env : EngEnv) (sel : Entry → Bool) (faulted : State → State)
    (iter : Entry → Nat → Act Unit) : State :=
  s.runUnit gb 17 (fun e => opc e.word == 0x1C && sel e) (fun e => onFault faulted (do
    modify (fun s => (s.bump Reg.JACK_STALL_IN_COUNT gb env.stallIn).bump Reg.JACK_STALL_OUT_COUNT gb env.stallOut)
    frontChecks gb env e 0x0402
    let s ← get
    Act.check (s.jackx gb).retired 0x0431
    runReps gb e (iter e)))

/-- A faulted MM leaves no chain and no tile (R232, R240, R242). -/
def State.mmFaulted (s : State) (gb : Nat) : State := s.setJackx gb { s.jackx gb with kept := none, tile := none }

/-- MM (R228 to R233), and the fault of a descriptor that names no operation (R241). -/
def execMm (gb : Nat) (env : EngEnv) (s : State) : Host.Outcome State Fault Refusal :=
  okIf (gb < 2560) (s.runJack gb env (fun e => (e.jack 0).op != 1) (fun s => s.mmFaulted gb)
    (fun e => jackIter gb e (mmSteps gb env e)))

/-- JACK_SLICE (R533): with no jack instruction executing and the die in the window of R145, the self-test runs; a mismatch that
its repeat confirms retires the jack. -/
def execJackSlice (gb : Nat) (fails : Bool) (waited : Nat) (s : State) : Host.Outcome State Fault Refusal :=
  okIf (gb < 2560)
    (if s.windowOk (gb / 160) = false ∨ (s.current gb 17).isSome = true ∨ s.clockStopped gb = true then s
    else
      let s := s.bump Reg.BENCH_ST_WAIT_COUNT gb waited
      if fails then (s.setJackx gb { s.jackx gb with retired := true, kept := none, tile := none }).benchReport gb 17 0x0430 0
      else s.setJackx gb { s.jackx gb with kept := none, tile := none })

end Sys2Proof.Machine
end

