-- ==== Sys2Proof/Machine/Vector.lean ====
section
/-! DEFINITION. The vector unit (R235 to R239) and the interchange with OCP MX (R78 to R81). -/

namespace Sys2Proof.Machine

open Sys2Proof

/-- The elements of a row of a plain type: FP32 or INT32 words, BF16 as FP32 patterns. -/
def elems (t : Nat) (bs : List Byte) (n : Nat) : List Word :=
  (List.range n).map (fun i =>
    if t = 1 then BitVec.ofNat 32 (((bs.getD (2 * i) 0).toNat + 256 * (bs.getD (2 * i + 1) 0).toNat) * 65536)
    else BitVec.ofNat 32 (ofBytes ((bs.drop (4 * i)).take 4)))

/-- An element of a result as its type stores it: BF16 rounded to nearest even (R235). -/
def storeElem (t : Nat) (w : Word) : List Byte := if t = 1 then leBytes 2 ((toBf w).toNat / 65536) else leBytes 4 w.toNat

/-- What a row gives: the bytes written at offsets of the output regions (0 elements, 1 scales), the flags it sets, the
rounding state after it, and the report it raises. -/
structure RowOut where
  outs : List (Nat × Nat × List Byte) := []
  nan : Bool := false
  vsat : Bool := false
  qclamp : Bool := false
  rloss : Bool := false
  prng : DWord
  report : Option Nat := none
  deriving DecidableEq, Repr

/-- Saturation of an INT32 result (R236). -/
def sat32w (v : Int) : Word × Bool := (BitVec.ofInt 32 (sat32 v).1, (sat32 v).2)

/-- The element-wise operations VOP 0 to 7 on one element (R235, R236), with whether INT32 saturated. -/
def vecElem (d : JackOp) (a b : Word) : Word × Bool :=
  if d.vtype = 2 then
    match d.vop with
    | 0 => sat32w (a.toInt + b.toInt)
    | 1 => sat32w (a.toInt * b.toInt)
    | _ => (if a.slt b then b else a, false)
  else
    (match d.vop with
    | 0 => add32 a b
    | 1 => mul32 a b
    | 2 => max32 a b
    | 3 => mul32 a d.imm
    | 4 => add32 a d.imm
    | 5 => exp32 a
    | 6 => recip32 a
    | _ => sqrt32 a, false)

/-- The fold of R237: lane l folds elements l, l + 64, … in order, and the lanes are combined in a tree; an absent lane takes no
part. -/
def laneFold (f : Word → Word → Word) (xs : List Word) : Option Word :=
  let lane := fun l : Nat =>
    ((List.range 64).filterMap (fun k => xs[l + 64 * k]?)).foldl (fun acc x => match acc with
      | none => some x
      | some y => some (f y x)) (none : Option Word)
  let join := fun (x y : Option Word) => match x, y with
    | some a, some b => some (f a b)
    | some a, none => some a
    | none, b => b
  let rec tree : Nat → (Nat → Option Word) → Option Word
    | 0, g => g 0
    | k + 1, g => tree k (fun i => join (g i) (g (i + 2 ^ k)))
  tree 6 lane

/-- The INT32 row sum in the same order, none where a partial sum leaves 32 bits. -/
def intSum (xs : List Word) : Word :=
  let r := (List.range 64).map (fun l => (List.range 64).filterMap (fun k => xs[l + 64 * k]?))
  let fits := fun v : Int => decide (-(2 ^ 31) ≤ v) && decide (v ≤ 2 ^ 31 - 1)
  let fold := fun (ws : List Word) => ws.foldl (fun (acc : Int × Bool) w =>
    (acc.1 + w.toInt, acc.2 && fits (acc.1 + w.toInt))) ((0, true) : Int × Bool)
  let rec tree : Nat → (Nat → Int × Bool) → Int × Bool
    | 0, g => g 0
    | k + 1, g => tree k (fun i => ((g i).1 + (g (i + 2 ^ k)).1, (g i).2 && (g (i + 2 ^ k)).2 && fits ((g i).1 + (g (i + 2 ^ k)).1)))
  let t := tree 6 (fun i => fold (r.getD i []))
  if t.2 then BitVec.ofInt 32 t.1 else Config.rowSumOpen xs

/-- RSUM, RMAX and SOFTMAX of a row (R237), on numbers whose subnormals count as zero (R231). -/
def rowReduce (d : JackOp) (vs : List Word) : List Word :=
  let xs := if d.vtype = 2 then vs else vs.map (fun v => fround 24 (fval v))
  let mx := (laneFold (fun a b => if d.vtype = 2 then (if a.slt b then b else a) else max32 a b) xs).getD 0
  match d.vop with
  | 8 => [if d.vtype = 2 then intSum xs else (laneFold add32 xs).getD 0]
  | 9 => [mx]
  | _ =>
    let neg := mx ^^^ 0x80000000
    let es := xs.map (fun x => exp32 (add32 x neg))
    let r := recip32 ((laneFold add32 es).getD 0)
    es.map (fun x => mul32 x r)

/-- A row of VOP 0 to 10. -/
def vecPlainRow (d : JackOp) (x0 : DWord) (bs bs2 : List Byte) : RowOut :=
  let xs := elems d.vtype bs d.vlen
  let ys := elems d.vtype bs2 (if d.bcast then 1 else d.vlen)
  let rs : List (Word × Bool) :=
    if 8 ≤ d.vop then (rowReduce d xs).map (fun w => (w, false))
    else xs.mapIdx (fun i a => vecElem d a (ys.getD (if d.bcast then 0 else i) 0))
  { outs := [(0, 0, rs.flatMap (fun r => storeElem d.vtype r.1))], prng := x0, vsat := rs.any Prod.snd,
    nan := d.vtype != 2 && rs.any (fun r => r.1 == 0x7FC00000) }

/-! ### Blocks -/

/-- One value rounded to an integer after multiplication by 2^x: exactly where it is one, else to nearest even or with a 16-bit
draw (R70). -/
def FVal.round (u : Option Nat) (x : Int) : FVal → Int
  | .fin neg m e =>
    let v : Int := if neg then -(m : Int) else m
    if 0 ≤ e + x then v * (2 ^ (e + x).toNat : Nat)
    else match u with
      | none => rne v (-(e + x)).toNat
      | some d => stochastic v (-(e + x)).toNat d
  | _ => 0

/-- The draws of a block's positions. -/
def drawAt (rnd : Bool) (x0 : DWord) (i : Nat) : Option Nat := if rnd then some (prngDraw (prngSkip i x0)).2 else none

/-- One QUANT block (R238): elements, scale byte, QCLAMP, RLOSS, and whether it holds a NaN or infinity. -/
def quantVals (d : JackOp) (x0 : DWord) (vs : List FVal) : List Int × Nat × Bool × Bool × Bool :=
  quantFloats d.vsign d.a (drawAt d.rnd x0) vs

/-- The blocks of a row, one after another with their draws: the block function gives payload bytes, scale byte and flags. However many
blocks of a row are reported, the row raises one report (R81, DESIGN CHOICE, assumption log 88). -/
def rowBlocks (rnd : Bool) (x0 : DWord) (nb : Nat)
    (f : Nat → DWord → List Byte × Nat × Bool × Bool × Option Nat) : RowOut :=
  let bs := (List.range nb).map (fun b => f b (if rnd then prngSkip (32 * b) x0 else x0))
  { outs := [(0, 0, bs.flatMap (fun r => r.1)), (1, 0, bs.map (fun r => BitVec.ofNat 8 r.2.1))],
    qclamp := bs.any (fun r => r.2.2.1), rloss := bs.any (fun r => r.2.2.2.1),
    report := bs.findSome? (fun r => r.2.2.2.2), prng := if rnd then prngSkip (32 * nb) x0 else x0 }

/-- The values of one 32-element block of a row, padded with zeros (R69). -/
def blockOf (vs : List FVal) (b : Nat) : List FVal := (List.range 32).map (fun i => vs.getD (32 * b + i) (.fin false 0 0))

/-- QUANT of a row (R238). -/
def quantRow (d : JackOp) (x0 : DWord) (bs : List Byte) : RowOut :=
  let vs := (elems d.vtype bs d.vlen).map fval
  rowBlocks d.rnd x0 d.nb (fun b x =>
    let q := quantVals d x (blockOf vs b)
    (packBlock d.a q.1, q.2.1, q.2.2.1, q.2.2.2.1, if q.2.2.2.2 then some 0x0421 else none))

/-- Element i of an A-a row as a value; none under a scale of 0xFF. -/
def blockVal (d : JackOp) (bs sc : List Byte) (i : Nat) : Option FVal :=
  let e := (sc.getD (i / 32) 0).toNat
  if e = 255 then none
  else
    let n := blockElem d.vsign d.a (ofBytes ((bs.drop (i / 32 * (4 * d.a))).take (4 * d.a))) 32 (i % 32)
    some (.fin (decide (n < 0)) n.natAbs ((e : Int) - 127))

/-- DEQUANT of a row (R235, R241); it rounds nothing under RND and takes no draw (R74, DESIGN CHOICE, assumption log 88). -/
def dequantRow (d : JackOp) (x0 : DWord) (bs sc : List Byte) : RowOut :=
  let out := fun i : Nat =>
    if d.vtype = 3 then match blockVal d bs sc i with
      | some v => fround 24 v
      | none => Config.vecOpen 12 (BitVec.ofNat 32 (bs.getD (i * d.a / 8) 0).toNat) (BitVec.ofNat 32 i)
    else
      let n := BitVec.ofNat 32 (ofBytes ((bs.drop (4 * i)).take 4))
      if d.imm.toNat % 256 = 255 then Config.vecOpen 12 n d.imm
      else ofInt32 n.toInt ((d.imm.toNat % 256 : Nat) - 127)
  { outs := [(0, 0, (List.range d.vlen).flatMap (fun i => leBytes 4 (out i).toNat))], prng := x0 }

/-! ### OCP MX -/

/-- The doubled value of an E2M1 code (R78). -/
def e2m1Doubled (c : Nat) : Int :=
  let v : Int := [0, 1, 2, 3, 4, 6, 8, 12].getD (c % 8) 0
  if 8 ≤ c then -v else v

/-- MXINT8 import of a row to A8 blocks (R79, R81). It rounds to nearest and takes no draw, whatever RND is (R74, DESIGN CHOICE,
assumption log 88). -/
def mxInt8Row (d : JackOp) (x0 : DWord) (bs sc : List Byte) : RowOut :=
  rowBlocks false x0 d.nb (fun b _ =>
    let e := (sc.getD b 0).toNat
    let vs := (List.range 32).map (fun i => if d.vlen ≤ 32 * b + i then 0 else signed 8 (bs.getD (32 * b + i) 0).toNat)
    if e = 255 then (List.replicate 32 0, 255, false, false, some 0x0420)
    else
      let sh := 6 - e
      (packBlock 8 (vs.map (fun v => rne v sh)), e - 6, false, vs.any (fun v => v % (2 ^ sh : Nat) != 0), none))

/-- The nearest E2M1 code of a value scaled by 2^x, under RNE or a draw: code and whether a nonzero bit was lost (R80). A value
that rounds to zero from below takes a sign the spec leaves open (DESIGN CHOICE, assumption log 32). -/
def toE2m1 (u : Option Nat) (x : Int) (v : FVal) : Nat × Bool :=
  let l := match FVal.log2 v with
    | some l => l + x
    | none => -1
  let q : Int := if 2 ≤ l then 1 else if 1 ≤ l then 0 else -1
  let r := (clampTo (-12) 12 (FVal.round u (x - q) v * (2 ^ (q + 1).toNat : Nat))).1
  let code := ([0, 1, 2, 3, 4, 6, 8, 12] : List Nat).findIdx (fun k => k == r.natAbs)
  let neg := match v with
    | .fin n _ _ => n
    | _ => false
  (if code = 0 then (if neg && bit (Config.vecOpen 15 (fround 24 v) 0).toNat 0 then 8 else 0)
   else code + (if r < 0 then 8 else 0), !FVal.whole (x - q) v)

/-- One block of an export (R80, R81). -/
def mxOutBlock (d : JackOp) (x0 : DWord) (vs : List FVal) : List Byte × Nat × Bool × Bool × Option Nat :=
  let n := d.mxBytes
  if vs.any FVal.nonFinite then (List.replicate n 0, 255, false, false, some 0x0421)
  else match blockLog vs with
    | none => (List.replicate n 0, 0, false, false, none)
    | some l =>
      let s0 : Int := max 0 (l - (if d.mxfmt = 0 then 2 else 0) + 127)
      let s : Int := if 254 < s0 then (((Config.vecOpen 16 (BitVec.ofInt 32 s0) 0).toNat % 256 : Nat) : Int) else s0
      if d.mxfmt = 0 then
        let cs := vs.mapIdx (fun i v => toE2m1 (drawAt d.rnd x0 i) (127 - s) v)
        (leBytes 16 ((cs.mapIdx (fun i c => c.1 * 16 ^ i)).sum), s.toNat, false, cs.any Prod.snd, none)
      else
        let cs := vs.mapIdx (fun i v => (clampTo (-127) 127 (FVal.round (drawAt d.rnd x0 i) (133 - s) v)).1)
        (cs.flatMap (fun c => leBytes 1 (pattern 8 c)), s.toNat, false, vs.any (fun v => !FVal.whole (133 - s) v), none)

/-- MXOUT of a row (R80). An A-a block whose own scale is 0xFF is exported as one that holds a NaN (R81, DESIGN CHOICE, assumption log
88). The first E2M1 code of a byte stands in its low nibble (R78, DESIGN CHOICE, assumption log 88). -/
def mxOutRow (d : JackOp) (x0 : DWord) (bs sc : List Byte) : RowOut :=
  let vs : List FVal :=
    if d.vtype = 3 then (List.range d.vlen).map (fun i => (blockVal d bs sc i).getD .nan)
    else (elems d.vtype bs d.vlen).map fval
  rowBlocks d.rnd x0 d.nb (fun b x => mxOutBlock d x (blockOf vs b))

/-! ### Running rows -/

/-- The sticky flags, rounding state and report of a row. -/
def State.noteRow (s : State) (gb : Nat) (rnd : Bool) (r : RowOut) : State :=
  let s := if r.nan then s.flag Reg.JACK_STATUS_NANF gb true else s
  let s := if r.vsat then s.flag Reg.JACK_STATUS_VSAT gb true else s
  let s := if r.qclamp then s.flag Reg.JACK_STATUS_QCLAMP gb true else s
  let s := if r.rloss then s.flag Reg.JACK_STATUS_RLOSS gb true else s
  let s := if rnd then s.setPrng gb 16 r.prng else s
  match r.report with
  | some c => s.benchReport gb 17 c 0
  | none => s

/-- Row r of each region of a list, whose rows lie at the given distances and have the given lengths. -/
def rowOf (r : Nat) (rs : List (Region × Nat × Nat)) : List Region :=
  rs.map (fun p => { p.1 with lo := p.1.lo + r * p.2.1, len := p.2.2 })

/-- The bytes of some regions, in order. -/
def readEach (gb : Nat) (env : EngEnv) (rs : List Region) : Act (List (List Byte)) := rs.mapM (fun r => spadRead gb env r.lo r.len)

/-- The regions of a VEC with the distances of their rows and the bytes of each (R235). -/
def JackOp.inRows (d : JackOp) (w : DWord) : List (Region × Nat × Nat) :=
  (d.vecIn w).zip ([(d.inRow, d.inReal)] ++
    (if d.two then [(if d.bcast then (d.size, d.size) else (d.inRow, d.inRow))] else []) ++ (if d.scaled then [(d.nb, d.nb)] else []))
def JackOp.outRows (d : JackOp) (w : DWord) : List (Region × Nat × Nat) :=
  (d.vecOut w).zip ([(d.outRow, d.outRow)] ++ (if d.outScaled then [(d.nb, d.nb)] else []))

/-- The row function of a VOP (R235). -/
def JackOp.rowFn (d : JackOp) (x0 : DWord) (bs : List (List Byte)) : RowOut :=
  match d.vop with
  | 11 => quantRow d x0 (bs.getD 0 [])
  | 12 => dequantRow d x0 (bs.getD 0 []) (bs.getD 1 [])
  | 14 => mxInt8Row d x0 (bs.getD 0 []) (bs.getD 1 [])
  | 15 => mxOutRow d x0 (bs.getD 0 []) (bs.getD 1 [])
  | _ => vecPlainRow d x0 (bs.getD 0 []) (bs.getD 1 [])

/-- A row of results is written at row r of the output regions, and its flags, draws and report take effect. -/
def writeRow (gb : Nat) (env : EngEnv) (d : JackOp) (w : DWord) (r : Nat) (o : RowOut) : Act Unit := do
  o.outs.forM (fun x => match (d.outRows w)[x.1]? with
    | some p => spadPut gb env (p.1.lo + r * p.2.1 + x.2.1) x.2.2
    | none => pure ())
  modify (fun s => s.noteRow gb d.rnd o)

/-- One row of a row-wise VEC: read, computed and written; a fault leaves it unwritten (R240). -/
def vecRow (gb : Nat) (env : EngEnv) (d : JackOp) (w : DWord) (r : Nat) : Act Unit := do
  let bs ← atPos gb 0 r (readEach gb env (rowOf r (d.inRows w)))
  let s ← get
  writeRow gb env d w r (d.rowFn (s.prngOf gb 16) bs)

/-- The VEC is complete (R243). -/
def vecDone (gb : Nat) : Act Unit := modify (fun s => s.bump Reg.JACK_VEC_CNT_COUNT gb)

/-- The steps of a row-wise VEC: its rows, in order, each under the tags of the slots that it is the first or the last to touch. -/
def vecSteps (gb : Nat) (env : EngEnv) (d : JackOp) (w : DWord) : List (Act Unit) :=
  let plan := (List.range d.vrows).map (fun r => rowOf r (d.inRows w) ++ rowOf r (d.outRows w))
  (List.range d.vrows).map (fun r => paced gb plan r (vecRow gb env d w r)) ++ [vecDone gb]

/-! ### TRANS -/

/-- The rows of band i, 32 of them or what is left. -/
def JackOp.band (d : JackOp) (i : Nat) : List Nat := upFrom (32 * i) (min 32 (d.vrows - 32 * i))

/-- One output row of a TRANS of plain elements (R239), `src` giving the elements of the band's rows: element (i, j) of a tile goes to
(j, i); what lies outside the matrix enters as zero (R37). -/
def transPlain (d : JackOp) (src : List (List Word)) (r : Nat) : List Byte :=
  (List.range d.vlen).flatMap (fun j =>
    let v := (src.getD (j % 32) []).getD (j / 32 * 32 + r % 32) 0
    if d.vtype = 1 then leBytes 2 (v.toNat / 65536) else leBytes 4 v.toNat)

/-- One output block of a TRANS of A-a blocks (R239): the source elements with their scales, a working exponent, and the
requantization of R67 and R68. Sources outside the matrix enter as zero and without a scale, and what pads a short block is written as
zero (R37, R69). -/
def transBlock (d : JackOp) (x0 : DWord) (src : List (Option (Int × Nat))) : List Byte × Nat × Bool × Bool × Option Nat :=
  let es := (src.filterMap id).map Prod.snd
  let hi := es.foldl max 0
  let lo := es.foldl min 254
  let ew := max (lo : Int) ((hi : Int) - 23)
  let vs := src.map (fun p => (p.map (fun p => scaleBy p.1 ((p.2 : Int) - ew))).getD 0)
  let loss := (src.filterMap id).any (fun p => decide ((p.2 : Int) < ew) && p.1 % (2 ^ (ew - p.2).toNat : Nat) != 0)
  let q := quantBlock d.vsign d.a ew.toNat (fun i => drawAt d.rnd x0 i) vs
  if es.contains 255 then (List.replicate (4 * d.a) 0, 255, false, false, none)
  else
    let sc := if 254 < q.2.1 then (Config.vecOpen 17 (BitVec.ofNat 32 q.2.1) 0).toNat % 256 else q.2.1
    (packBlock d.a q.1, sc, q.2.2 || (!d.vsign && vs.any (fun v => decide (v < 0))), loss, none)

/-- One output row of a TRANS of A-a blocks, `src` giving payload and scales of the band's rows. -/
def transBlocks (d : JackOp) (x0 : DWord) (src : List (List Byte × List Byte)) (r : Nat) : RowOut :=
  let elem := fun (k j : Nat) => (src[k]?).map (fun p =>
    (if d.vlen ≤ j then 0 else blockElem d.vsign d.a (ofBytes ((p.1.drop (j / 32 * (4 * d.a))).take (4 * d.a))) 32 (j % 32),
     (p.2.getD (j / 32) 0).toNat))
  rowBlocks d.rnd x0 d.nb (fun b x => transBlock d x ((List.range 32).map (fun k =>
    if 32 * b + k < d.vlen then elem k (32 * b + r % 32) else none)))

/-- Band i of a TRANS: its 32 rows are read, and then its output rows written. A fault leaves the band unwritten, and the position
recorded is that of its first row (R240, DEDUCED, assumption log 88). -/
def transBand (gb : Nat) (env : EngEnv) (d : JackOp) (w : DWord) (i : Nat) : Act Unit := do
  let rows ← (d.band i).mapM (fun r => atPos gb 0 (32 * i) (readEach gb env (rowOf r (d.inRows w))))
  (d.band i).forM (fun r => do
    let s ← get
    let x0 := s.prngOf gb 16
    writeRow gb env d w r (if d.vtype = 3 then transBlocks d x0 (rows.map (fun p => (p.getD 0 [], p.getD 1 []))) r
      else { outs := [(0, 0, transPlain d (rows.map (fun p => elems d.vtype (p.getD 0 []) d.vlen)) r)], prng := x0 }))

/-- The steps of a TRANS: its bands of 32 rows. -/
def transSteps (gb : Nat) (env : EngEnv) (d : JackOp) (w : DWord) : List (Act Unit) :=
  let n := ceilDiv d.vrows 32
  let plan := (List.range n).map (fun i => (d.band i).flatMap (fun r => rowOf r (d.inRows w) ++ rowOf r (d.outRows w)))
  (List.range n).map (fun i => paced gb plan i (transBand gb env d w i)) ++ [vecDone gb]

/-! ### MXFP4 import -/

/-- The W5 columns of the outputs of image im up to row j, and the bits of a row image that stand in them. -/
def imageCols (j : Nat) : List Nat := (List.range (j % 200 + 1)).map (fun k => WFmt.w5.col k)
def keepBits (n : Nat) (cols : List Nat) : Nat := (cols.map (fun c => n / 2 ^ c % 32 * 2 ^ c)).sum

/-- The bits of output j in a row image take a value: the bytes that hold them are written, the other bits as they stand; with the last
output of an image the bits of no output become zero (R240, DEDUCED, assumption log 88). -/
def imagePut (gb : Nat) (env : EngEnv) (d : JackOp) (lo j : Nat) (v : Int) : Act Unit := do
  let s ← get
  let c := WFmt.w5.col (j % 200)
  let old := s.num (spadBase gb + lo) 128
  let new := old - old / 2 ^ c % 32 * 2 ^ c + pattern 5 v * 2 ^ c
  if j % 200 = 199 ∨ j + 1 = d.vrows then spadPut gb env lo (leBytes 128 (keepBits new (imageCols j)))
  else
    let a := c / 8
    let b := (c + 4) / 8
    spadPut gb env (lo + a) (((leBytes 128 new).drop a).take (b + 1 - a))

/-- The scratchpad accesses of row j of an MXFP4 import: the row and its scales, the row images of its image, and its entry of the
weight-scale table. -/
def JackOp.imageAt (d : JackOp) (w : DWord) (j : Nat) : List Region :=
  rowOf j (d.inRows w) ++
  [⟨32 * d.outAddr.toNat + 128 * (j / 200 * d.vlen), 128 * d.vlen, true, tagOut w⟩, ⟨32 * d.oscale.toNat + 2 * j, 2, true, tagOut w⟩]

/-- Row j of an MXFP4 import (R78, R81): it is output j; element k of it goes to row image k, in the W5 columns of the output, and the
weight-scale table takes ew and M = 0 for it. E is the largest scale of its blocks but those of 0xFF; one such block gives ew 0xFF and one
report (DESIGN CHOICE, assumption log 88). The first E2M1 code of a byte stands in its low nibble (DESIGN CHOICE, assumption log 88). -/
def imageRow (gb : Nat) (env : EngEnv) (d : JackOp) (w : DWord) (j : Nat) : Act Unit := do
  let bs ← atPos gb 0 j (readEach gb env (rowOf j (d.inRows w)))
  let scales := (bs.getD 1 []).map BitVec.toNat
  let top := (scales.filter (fun e => e != 255)).foldl max 0
  let shift := fun b : Nat => top - scales.getD b 0 + (if top = 0 then 1 else 0)
  let code := fun k : Nat => e2m1Doubled (((bs.getD 0 []).getD (k / 2) 0).toNat / 16 ^ (k % 2) % 16)
  let dead := fun k : Nat => scales.getD (k / 32) 0 == 255
  (List.range d.vlen).forM (fun k => imagePut gb env d (32 * d.outAddr.toNat + 128 * (j / 200 * d.vlen + k)) j
    (if dead k then 0 else rne (code k) (shift (k / 32))))
  spadPut gb env (32 * d.oscale.toNat + 2 * j) [if scales.contains 255 then 255#8 else BitVec.ofNat 8 (top - 1), 0#8]
  if (List.range d.vlen).any (fun k => !dead k && code k % (2 ^ shift (k / 32) : Nat) != 0) then
    modify (fun s => s.flag Reg.JACK_STATUS_RLOSS gb true)
  else pure ()
  if scales.contains 255 then modify (fun s => s.benchReport gb 17 0x0420 0) else pure ()

/-- The steps of an MXFP4 import: its rows. -/
def imageSteps (gb : Nat) (env : EngEnv) (d : JackOp) (w : DWord) : List (Act Unit) :=
  let plan := (List.range d.vrows).map (d.imageAt w)
  (List.range d.vrows).map (fun j => paced gb plan j (imageRow gb env d w j)) ++ [vecDone gb]

/-! ### The operations -/

/-- A VEC of operation `vop` with its steps. -/
def State.runSteps (s : State) (gb : Nat) (env : EngEnv) (vop : Nat) (steps : JackOp → DWord → List (Act Unit)) : State :=
  s.runJack gb env (fun e => (e.jack 0).op == 1 && (e.jack 0).vop == vop) id (fun e => jackIter gb e (fun d => steps d e.word))

/-- A row-wise VEC of operation `vop`. -/
def State.runVec (s : State) (gb : Nat) (env : EngEnv) (vop : Nat) : State :=
  s.runSteps gb env vop (vecSteps gb env)

/-- VEC_ADD (R235, R236). -/
def execVecAdd (gb : Nat) (env : EngEnv) (s : State) : Host.Outcome State Fault Refusal :=
  okIf (gb < 2560) (s.runVec gb env 0)

/-- VEC_MUL (R235, R236). -/
def execVecMul (gb : Nat) (env : EngEnv) (s : State) : Host.Outcome State Fault Refusal :=
  okIf (gb < 2560) (s.runVec gb env 1)

/-- VEC_MAX (R235). -/
def execVecMax (gb : Nat) (env : EngEnv) (s : State) : Host.Outcome State Fault Refusal :=
  okIf (gb < 2560) (s.runVec gb env 2)

/-- VEC_SCALE (R235). -/
def execVecScale (gb : Nat) (env : EngEnv) (s : State) : Host.Outcome State Fault Refusal :=
  okIf (gb < 2560) (s.runVec gb env 3)

/-- VEC_ADDI (R235). -/
def execVecAddi (gb : Nat) (env : EngEnv) (s : State) : Host.Outcome State Fault Refusal :=
  okIf (gb < 2560) (s.runVec gb env 4)

/-- VEC_EXP (R235, R236). -/
def execVecExp (gb : Nat) (env : EngEnv) (s : State) : Host.Outcome State Fault Refusal :=
  okIf (gb < 2560) (s.runVec gb env 5)

/-- VEC_RECIP (R235). -/
def execVecRecip (gb : Nat) (env : EngEnv) (s : State) : Host.Outcome State Fault Refusal :=
  okIf (gb < 2560) (s.runVec gb env 6)

/-- VEC_SQRT (R235). -/
def execVecSqrt (gb : Nat) (env : EngEnv) (s : State) : Host.Outcome State Fault Refusal :=
  okIf (gb < 2560) (s.runVec gb env 7)

/-- VEC_RSUM (R237). -/
def execVecRsum (gb : Nat) (env : EngEnv) (s : State) : Host.Outcome State Fault Refusal :=
  okIf (gb < 2560) (s.runVec gb env 8)

/-- VEC_RMAX (R237). -/
def execVecRmax (gb : Nat) (env : EngEnv) (s : State) : Host.Outcome State Fault Refusal :=
  okIf (gb < 2560) (s.runVec gb env 9)

/-- VEC_SOFTMAX (R237). -/
def execVecSoftmax (gb : Nat) (env : EngEnv) (s : State) : Host.Outcome State Fault Refusal :=
  okIf (gb < 2560) (s.runVec gb env 10)

/-- VEC_QUANT (R238). -/
def execVecQuant (gb : Nat) (env : EngEnv) (s : State) : Host.Outcome State Fault Refusal :=
  okIf (gb < 2560) (s.runVec gb env 11)

/-- VEC_DEQUANT (R235, R241). -/
def execVecDequant (gb : Nat) (env : EngEnv) (s : State) : Host.Outcome State Fault Refusal :=
  okIf (gb < 2560) (s.runVec gb env 12)

/-- VEC_MXOUT (R80, R81). -/
def execVecMxout (gb : Nat) (env : EngEnv) (s : State) : Host.Outcome State Fault Refusal :=
  okIf (gb < 2560) (s.runVec gb env 15)

/-- VEC_TRANS (R239). -/
def execVecTrans (gb : Nat) (env : EngEnv) (s : State) : Host.Outcome State Fault Refusal :=
  okIf (gb < 2560) (s.runSteps gb env 13 (transSteps gb env))

/-- VEC_MXIN (R78, R79, R81). -/
def execVecMxin (gb : Nat) (env : EngEnv) (s : State) : Host.Outcome State Fault Refusal :=
  okIf (gb < 2560) (s.runSteps gb env 14 (fun d w => if d.image then imageSteps gb env d w else vecSteps gb env d w))

end Sys2Proof.Machine
end

