-- ==== Sys2Proof/Machine/Issue.lean ====
section
/-! DEFINITION. The window: dispatch of windowed instructions and issue to their units (R264 to R266), the scoreboard (R254),
barriers (R277 to R281), and the commands of the sequencer (R283, R284, R289). -/

namespace Sys2Proof.Machine

open Sys2Proof

/-! ### The scoreboard -/

/-- The bytes of a descriptor: 32, or the 16 of a parison descriptor (R294, R303). -/
def descLen (w : DWord) : Nat := if opc w = 0x18 then 16 else 32

/-- The entry as the scoreboard sees it: one that has not issued with its descriptor and bounds as they stand now. -/
def State.viewed (s : State) (gb : Nat) (e : Entry) : Entry :=
  if e.phase ≠ .waiting then e
  else
    let a := spadBase gb + 32 * e.descGranule
    { e with desc := if isE e.word then (List.range 4).map (fun k => BitVec.ofNat 64 (s.num (a + 8 * k) 8)) else [],
             remK := s.remAt gb (bkSel e.word) e.vbk, remN := s.remAt gb (bnSel e.word) e.vbn }

/-- One region for each address field over the iterations of a repeat, from the lowest address to the highest (R274). -/
def hull (a b : List Region) : List Region :=
  (a.zip b).map (fun p =>
    let lo := min p.1.lo p.2.lo
    { p.1 with lo := lo, len := max (p.1.lo + p.1.len) (p.2.lo + p.2.len) - lo })

/-- The regions of the first and the last iteration, spanned. -/
def spanReps (e : Entry) (rs : Nat → List Region) : List Region :=
  if e.reps = 0 then [] else hull (rs 0) (rs (e.reps - 1))

/-- The regions of a DMA instruction as one that spans every row and buffer (R327). -/
def State.dmaSpan (s : State) (gb : Nat) (e : Entry) : List Region :=
  let d := e.dmaClip
  if d.op = 2 then []
  else
    let rs := (s.dmaTiles gb d (s.dmaEntries gb d e)).flatMap (d.regions e.word)
    match rs with
    | [] => []
    | r :: rest =>
      let lo := rest.foldl (fun m x => min m x.lo) r.lo
      [{ r with lo := lo, len := rest.foldl (fun m x => max m (x.lo + x.len)) (r.lo + r.len) - lo }]

/-- The scratchpad regions of an instruction (R254), its descriptor and bound words among them until it issues (R294). -/
def State.scoreRegions (s : State) (gb : Nat) (e : Entry) : List Region :=
  let w := e.word
  let gp := potIx gb (unitOf w)
  let own := if e.reps = 0 ∨ e.phase ≠ .waiting then [] else
    (if isE w then [⟨32 * e.descGranule, descLen w, false, 0⟩] else []) ++ boundRegion w (bkSel w) e.vbk ++ boundRegion w (bnSel w) e.vbn
  own ++ (match opc w with
    | 0x10 => spanReps e (fun i =>
        let d0 := e.pass i
        let tiled := s.on Reg.POT_SP_CFG_TILED (4 * gb + (unitOf w - 12)) && decide (12 ≤ unitOf w)
        let d := if e.empty then d0 else d0.clipped (!tiled) e.remK e.remN
        let f := (WFmt.ofNum d.wfmt).getD .w4
        ({ d with pool := 0 } : Pass).regions (s.potx gp) f w)
    | 0x11 =>
      let d0 := e.upd
      let f := (WFmt.ofNum d0.wfmt).getD .w4
      let d := if e.empty then d0 else { d0 with rows := clip d0.rows e.remN }
      if d.op = 1 then d.workRegions f w else d.sweepRegions f w
    | 0x12 =>
      let l := e.load
      if tiledPot (s.rd Reg.POT_CFG_ROLE gp) (unitOf w) then
        l.region w (s.tiledLen (spadBase gb + l.src) (l.rows / 32) 33)
      else l.region w (128 * l.rows)
    | 0x18 => spanReps e (fun i =>
        let d := e.par i
        (if e.empty then d else { d with rows := clip d.rows e.remK }).regions w)
    | 0x1C => spanReps e (fun i => (e.jack i).ins w ++ (e.jack i).outs w)
    | 0x20 => [e.fillRegion]
    | 0x21 => [e.copySrc, e.copyDst]
    | 0x0C => [⟨e.scalarAddr, 8, false, tagIn w⟩]
    | 0x0D => [⟨e.scalarAddr, 8, true, tagOut w⟩]
    | 0x28 => s.dmaSpan gb e
    | 0x30 => [({ word := e.vb, act := tagIn w, pc := e.pc } : OutHandle).region]
    | _ => [])

/-- The granule ranges of two regions overlap (R254). -/
def Region.overlaps (a b : Region) : Bool :=
  a.len != 0 && b.len != 0 && decide (a.lo / 32 ≤ (b.lo + b.len - 1) / 32) && decide (b.lo / 32 ≤ (a.lo + a.len - 1) / 32)

/-- An earlier region holds a later one (R254). -/
def holdsOver (a b : Region) : Bool :=
  a.overlaps b && (a.wr || b.wr) && !((a.act == 1 || a.act == 2) && (b.act == 1 || b.act == 2))

/-- The slot on which the scoreboard holds an instruction, none where it does not (R254). -/
def State.scoreHold (s : State) (gb : Nat) (e : Entry) : Option Nat :=
  let mine := s.scoreRegions gb e
  ((s.seq gb).window.filter (fun x => decide (x.id < e.id))).findSome? (fun x =>
    let theirs := s.scoreRegions gb (s.viewed gb x)
    (mine.find? (fun b => theirs.any (fun a => holdsOver a b))).map (fun b => b.lo / 1024))

/-! ### Dispatch and issue -/

/-- The windowed opcodes that have no dispatch rule of their own (R264). -/
def windowedOps : List Nat := [0x0C, 0x0D, 0x10, 0x11, 0x12, 0x18, 0x1C, 0x20, 0x21, 0x22, 0x28, 0x30, 0x31, 0x32]

/-- The window with an instruction at its end, its scalar operands captured (R266). -/
def State.enter (s : State) (gb : Nat) (w : DWord) (p : Nat) (va : DWord) : State :=
  let q := s.seq gb
  let sel := fun n : Nat => if n = 0 then 0#64 else s.sreg gb (n % 32)
  let e : Entry := { id := q.nextId, pc := p, word := w, va := va, vb := s.sreg gb (regB w), vc := s.sreg gb (regC w),
                     vd := s.sreg gb (regD w), vbk := sel (bkSel w), vbn := sel (bnSel w) }
  (s.setSeq gb { q with window := q.window ++ [e], nextId := q.nextId + 1 }).progress gb

/-- Cycles counted by the cycle counter, which runs in RUN, DRAIN and FAULT (R262, DEDUCED, assumption log 45). -/
def State.runCycles (s : State) (gb n : Nat) : State :=
  if [SeqState.run, .drain, .fault].contains (s.seqState gb) then
    { s with cycleCtr := s.cycleCtr.put 0#64 gb (s.cycleCtr.get 0#64 gb + BitVec.ofNat 64 n) }
  else s

/-- Cycles in which a unit waits on a remote access, a remote response or a stopped bench are counted, whatever is dispatched in
them (R34, R287). -/
def State.remoteCycles (s : State) (gb n : Nat) : State :=
  let unit := (List.range 22).any (fun u => match s.unitWait gb u with
    | some (c, _) => c == 8 || c == 11
    | none => false)
  if unit || s.xfers.any (fun x => x.gb == gb && x.waitsRemote s false) then s.bump Reg.SEQ_WAIT_REMOTE_COUNT gb n else s

/-- An ARRIVE waits at dispatch for the arrival of its context, which is OUTSTANDING (R278). -/
def State.arriveWaits (s : State) (gb : Nat) : Bool :=
  let w := s.instr gb (s.pc gb)
  decide (s.seqState gb = .run) && !(s.seq gb).ending && !(s.seq gb).past && opc w == 0x38 &&
    s.on Reg.SEQ_BAR_INFO_OUTSTANDING gb (fld w 1 0)

/-- Lost dispatch cycles under the first cause that applies: FAULT, BARRIER, WINDOW, SCALAR (R286). -/
def State.lostCycles (s : State) (gb n : Nat) : State :=
  let w := s.instr gb (s.pc gb)
  if s.seqState gb = .fault then s.bump Reg.SEQ_STALL_FAULT_COUNT gb n
  else if s.seqState gb ≠ .run then s
  else if s.barrierWait gb || s.arriveWaits gb then
    s.bump Reg.SEQ_STALL_BARRIER_COUNT gb n
  else if 64 ≤ (s.seq gb).window.length then s.bump Reg.SEQ_STALL_WINDOW_COUNT gb n
  else if (s.seq gb).awaits w then s.bump Reg.SEQ_STALL_SCALAR_COUNT gb n
  else s

/-- The most instructions that a unit holds: a pot one beyond the one executing (R107), the front end any number (R305). -/
def unitRoom (u : Nat) : Nat := if u < 16 then 2 else if u = 19 then 64 else 1

/-- The unit can accept an instruction (R265). -/
def State.accepts (s : State) (gb u : Nat) : Bool :=
  !s.held gb u && decide (((s.seq gb).window.filter (fun e => unitOf e.word == u && e.phase == .issued)).length < unitRoom u)

/-- The protection of the granules read at issue: the first fault, with its granule (R258). -/
def State.issueReads (s : State) (gb : Nat) (ecc : List (Nat × Ecc)) (gs : List Nat) : State × Option (Nat × Nat) :=
  gs.foldl (fun acc g =>
    if acc.2.isSome then acc
    else if acc.1.poisoned gb g then (acc.1, some (0x0505, g))
    else
      let r := acc.1.eccRead gb ecc g
      (r.1, if r.2 then some (0x0504, g) else none)) (s, none)

/-- The granule of the stored mask that an instruction names, with its descriptor read: a pass with MASK = 0b10 that is not empty
reads it then (R112, R272). -/
def Entry.maskGranule (e : Entry) : Option Nat :=
  if opc e.word = 0x10 ∧ (e.pass 0).mask = 2 ∧ e.empty = false ∧ (e.pass 0).maskAddr < 12288 then some (e.pass 0).maskAddr else none

/-- An instruction at its issue, before anything of it is read. -/
def Entry.fresh (e : Entry) : Entry :=
  let x := { e with stage := 0, bad := none, live := none, liveBad := none, kept := [] }
  { x with outs := [], inPlace := false, asked := 0, lost := [] }

/-- An instruction issues (R265, R266): its descriptor, its bound words and its stored mask are read (R112), but for a repeat of no
iterations, which makes no access (R273). -/
def State.issue (s : State) (gb : Nat) (ecc : List (Nat × Ecc)) (e : Entry) : State :=
  let v := s.viewed gb e
  let gs := if e.reps = 0 then [] else (if isE e.word then [e.descGranule] else []) ++ (boundGranule (bkSel e.word) e.vbk).toList ++
    (boundGranule (bnSel e.word) e.vbn).toList
  let r := s.issueReads gb ecc (gs.filter (fun g => decide (g < 12288)))
  let m := if r.2.isNone && !e.frontRange && decide (e.reps ≠ 0) then v.maskGranule else none
  let q := r.1.issueReads gb ecc m.toList
  let live := m.map (fun g => BitVec.ofNat 256 (s.num (spadBase gb + 32 * g) 32))
  (q.1.modEntry gb e.id (fun x =>
    let x := { x.fresh with phase := .issued, desc := v.desc, remK := v.remK }
    { x with remN := v.remN, bad := r.2, live := live, liveBad := q.2 })).setWait gb (unitOf e.word) none

/-- Unit u receives its oldest waiting instruction where it can accept it, no bound word in the scratchpad has to wait for its slot
(R270, R295), and the scoreboard does not hold it; otherwise the cycles held are counted (R251, R265, R287). -/
def State.issueTo (s : State) (gb u n : Nat) (ecc : List (Nat × Ecc)) : State :=
  match (s.seq gb).oldest u (fun e => e.phase == .waiting) with
  | none => s
  | some e =>
    if s.seqState gb ≠ .run ∧ s.seqState gb ≠ .drain then s
    else if !s.accepts gb u then s.bump Reg.SEQ_HOLD_UNIT_COUNT gb n
    else
      let v := s.viewed gb e
      let words := if e.reps = 0 then [] else boundRegion e.word (bkSel e.word) e.vbk ++ boundRegion e.word (bnSel e.word) e.vbn
      match (words.filter (fun r => !r.past)).findSome? (s.regionWait gb) with
      | some w => (s.bump Reg.SPAD_TAG_WAIT_RD_COUNT gb n).setWait gb u (some w)
      | none =>
        match s.scoreHold gb v with
        | some k => (s.bump Reg.SEQ_HOLD_SCORE_COUNT gb n).setWait gb u (some (3, k))
        | none => s.issue gb ecc e

/-- INSTRUCTION_ISSUE (R264, R265): one of the two steps of a windowed instruction; `cycles` is the number of cycles that the
event took, lost where nothing is dispatched and held where nothing issues; while the clock of the bench is stopped nothing
happens and no cycle is counted (R33, R288). With the cycles, the handles that wait in the in-port for their ring slots are stored where
these are empty (R339, R347, DESIGN CHOICE, assumption log 87). -/
def execInstructionIssue (gb : Nat) (ev : IssueEv) (cycles : Nat) (s : State) : Host.Outcome State Fault Refusal :=
  okIf (gb < 2560)
    (if s.clockStopped gb then s
    else match ev with
    | .dispatch fetch =>
      let n := (s.seq gb).nextId
      let t := s.dispatch gb fetch windowedOps (fun s w p => (s.enter gb w p (s.sreg gb (regA w))).advance gb p)
      (((if (t.seq gb).nextId = n then t.lostCycles gb cycles else t).remoteCycles gb cycles).runCycles gb cycles).settleIn gb
    | .unit u ecc => if u < 22 then s.issueTo gb u cycles ecc else s)

/-- INSTRUCTION_RETIRE (R265): the oldest complete instruction of a unit leaves the window; a slice that is due for a pot begins
where nothing more executes there (R146). -/
def execInstructionRetire (gb u : Nat) (s : State) : Host.Outcome State Fault Refusal :=
  okIf (gb < 2560 && u < 22)
    (match (if s.clockStopped gb then none else (s.seq gb).oldest u (fun e => e.phase == .done)) with
    | none => s
    | some e =>
      let q := s.seq gb
      let t := (s.setSeq gb { q with window := q.window.filter (fun x => x.id != e.id) }).progress gb
      if u < 16 then t.beginSlice gb u false else t)

/-! ### Barriers -/

/-- ARRIVE (R278, R315): waits while the context's arrival is outstanding, and then counts and enters the window with the new
epoch. -/
def execArrive (gb : Nat) (fetch : Option Ecc) (s : State) : Host.Outcome State Fault Refusal :=
  okIf (gb < 2560) (s.dispatch gb fetch [0x38] (fun s w p =>
    let c := fld w 1 0
    if s.on Reg.SEQ_BAR_INFO_OUTSTANDING gb c then s.setWait gb 22 (some (9, c))
    else
      let e := (s.rd Reg.SEQ_BAR_ARRIVE_EPOCH gb c + 1) % 2 ^ 32
      let t := (s.wr Reg.SEQ_BAR_ARRIVE_EPOCH gb e c).flag Reg.SEQ_BAR_INFO_OUTSTANDING gb true c
      (t.enter gb w p (BitVec.ofNat 64 e)).advance gb p))

/-- ARRIVAL_SEND (R278, R315): every earlier instruction has retired; the arrival is sent and the ARRIVE retires. -/
def execArrivalSend (gb : Nat) (s : State) : Host.Outcome State Fault Refusal :=
  okIf (gb < 2560)
    (match (s.seq gb).window with
    | e :: rest =>
      if opc e.word = 0x38 ∧ s.clockStopped gb = false then
        let g := s.rd Reg.SEQ_BAR_INFO_GROUP gb (fld e.word 1 0)
        ((s.setSeq gb { s.seq gb with window := rest }).progress gb).emit (.arrival gb g e.va.toNat)
      else s
    | [] => s)

/-- WAIT (R278, R315): dispatch stops while the context's arrival is outstanding; released, it takes an entry and retires at
once. -/
def execWait (gb : Nat) (fetch : Option Ecc) (s : State) : Host.Outcome State Fault Refusal :=
  okIf (gb < 2560) (s.dispatch gb fetch [0x39] (fun s w p =>
    let c := fld w 1 0
    if s.on Reg.SEQ_BAR_INFO_OUTSTANDING gb c then
      ((s.flag Reg.SEQ_BAR_INFO_WAITING gb true c).setSeq gb { s.seq gb with barLong := false }).setWait gb 22 (some (9, c))
    else (s.progress gb).advance gb p))

/-- No WAIT stands and the sequencer waits for no barrier. -/
def State.endWait (s : State) (gb : Nat) : State :=
  ([0, 1, 2, 3].foldl (fun t c => t.flag Reg.SEQ_BAR_INFO_WAITING gb false c) s).setWait gb 22 none

/-- The die gates a bench whose WAIT is released, for its row's delay, where there is one (R477). -/
def State.stagger (s : State) (gb : Nat) : State :=
  if s.rd Reg.PWR_TRANS_GROUP_CYC 0 ≠ 0 ∧ gb % 160 / 10 ≠ 0 then s.setSeq gb { s.seq gb with gate := true } else s

/-- A release of a context by serial arithmetic (R279). -/
def State.releaseCtx (s : State) (gb c r : Nat) : State :=
  let d := serialDist r (s.rd Reg.SEQ_BAR_ARRIVE_EPOCH gb c)
  if d = 0 then
    if s.on Reg.SEQ_BAR_INFO_OUTSTANDING gb c then
      let t := (s.wr Reg.SEQ_BAR_RELEASE_EPOCH gb r c).flag Reg.SEQ_BAR_INFO_OUTSTANDING gb false c
      let t := if t.waitOf gb 22 = some (9, c) then (t.setWait gb 22 none).setSeq gb { t.seq gb with barLong := false } else t
      if s.on Reg.SEQ_BAR_INFO_WAITING gb c then (t.flag Reg.SEQ_BAR_INFO_WAITING gb false c).stagger gb else t
    else s.bump Reg.SEQ_BAR_INFO_STALE gb 1 c
  else if 2 ^ 31 < d then s.bump Reg.SEQ_BAR_INFO_STALE gb 1 c
  else if d < 2 ^ 31 then s.benchReport gb 22 SEQ_EPOCH_AHEAD 0
  else s.benchReport gb 22 SEQ_EPOCH_FAR 0

/-- BARRIER_RELEASE (R279); discarded while the bench's partition is in APPLY (R391). -/
def execBarrierRelease (gb ctx epoch : Nat) (s : State) : Host.Outcome State Fault Refusal :=
  okIf (gb < 2560 && ctx < 4) (if s.applying (s.partOf gb) then s else s.releaseCtx gb ctx (epoch % 2 ^ 32))

/-- STAGGER_OPEN (R477): the bench's gate opens. -/
def execStaggerOpen (gb : Nat) (s : State) : Host.Outcome State Fault Refusal :=
  okIf (gb < 2560) (s.setSeq gb { s.seq gb with gate := false })

/-- SEQ_BAR_LONG (R281): the barrier wait that stands has lasted `cycles`; one report for it beyond the limit. -/
def execSeqBarLong (gb cycles : Nat) (s : State) : Host.Outcome State Fault Refusal :=
  okIf (gb < 2560)
    (let lim := s.rd Reg.SEQ_CFG_BAR_LIMIT gb
    if lim ≠ 0 ∧ lim * 2 ^ 20 < cycles ∧ (s.barrierWait gb = true ∨ s.arriveWaits gb = true) ∧ (s.seq gb).barLong = false then
      (s.setSeq gb { s.seq gb with barLong := true }).benchReport gb 22 SEQ_BAR_LONG 0
    else s)

/-! ### Commands -/

/-- The function of an agent that is one. -/
def fnOfAgent (agent : Nat) : Nat := agent - 16

/-- A bench of the agent's reach: every bench for the gaffer, the servitor and the physical function, its partition's for another
function (R550, R551). -/
def State.reachesBench (s : State) (agent gb : Nat) : Bool :=
  decide (agent ≤ 2) || (decide (s.partOf gb < 16) && s.fnOf gb == fnOfAgent agent)

/-- The agent may command the bench (R283): the servitor, or the function of the partition that owns it. -/
def State.mayCommand (s : State) (agent gb : Nat) : Bool :=
  agent == 1 || (decide (s.partOf gb < 16) &&
    agent == (if s.fnOf gb = 0 then 2 else 16 + s.fnOf gb))

/-- A command that the state does not accept (R283). -/
def State.reject (s : State) (gb : Nat) : State := s.flag Reg.SEQ_STATUS_CMD_REJECT gb true

/-- A command of an agent that may give it. -/
def State.commanded (s : State) (gb agent : Nat) (f : State → State) : State :=
  if s.mayCommand agent gb then f s else s

/-- A write of an agent that reaches the bench's registers (R551). -/
def State.written (s : State) (gb agent : Nat) (f : State → State) : State :=
  if s.reachesBench agent gb then f s else s

/-- START at SEQ_PC (R284). -/
def State.startBench (s : State) (gb : Nat) : State :=
  if s.stopped gb then
    let q := s.seq gb
    let q := { q with loops := List.replicate 8 {}, stack := [], ending := false, dispFault := false, past := false }
    let q := { q with barLong := false }
    (((s.setSeq gb q).endWait gb).progress gb).setSeqState gb .run
  else s.reject gb

/-- HALT (R284): dispatch stops, and with it a WAIT that stood there. -/
def State.haltBench (s : State) (gb : Nat) : State :=
  if s.seqState gb = .run then (s.endWait gb).setSeqState gb .drain else s.reject gb

/-- START (R284). -/
def execStart (gb agent : Nat) (s : State) : Host.Outcome State Fault Refusal :=
  okIf (gb < 2560) (s.commanded gb agent (fun s => s.startBench gb))

/-- HALT (R284). -/
def execHalt (gb agent : Nat) (s : State) : Host.Outcome State Fault Refusal :=
  okIf (gb < 2560) (s.commanded gb agent (fun s => s.haltBench gb))

/-- DRAIN_COMPLETE (R284): the last issued instruction has retired in DRAIN. -/
def execDrainComplete (gb : Nat) (s : State) : Host.Outcome State Fault Refusal :=
  okIf (gb < 2560)
    (if s.seqState gb = .drain ∧ (s.seq gb).window = [] ∧ s.clockStopped gb = false then s.setSeqState gb .halted else s)

/-- The units of a bench with FAULT_HOLD cleared. -/
def State.clearHolds (s : State) (gb : Nat) : State :=
  (List.range 22).foldl (fun t u => if t.held gb u then t.setHold gb u false else t) s

/-- FAULT with nothing in flight, in which a resume is accepted (R283). -/
def State.resumable (s : State) (gb : Nat) : Bool := decide (s.seqState gb = .fault) && (s.seq gb).drained

/-- A faulted instruction before its issue again. -/
def Entry.again (e : Entry) : Entry :=
  if e.phase = .faulted then { e.fresh with phase := .waiting, desc := [] } else e

/-- RUN after a fault: holds cleared, MULTI cleared (R283, R289). -/
def State.resumed (s : State) (gb : Nat) : State :=
  ((s.clearHolds gb).flag Reg.SEQ_STATUS_MULTI gb false).setSeqState gb .run

/-- RESUME_REISSUE (R283, R318, R343). -/
def State.reissue (s : State) (gb : Nat) : State :=
  if s.resumable gb then
    let q := s.seq gb
    let t := (s.setSeq gb { q with window := q.window.map Entry.again, dispFault := false }).resumed gb
    (t.resendFaulted gb).passLacked gb
  else s.reject gb

/-- RESUME_SKIP (R283, R318, R343): the faulted instructions retire without effect, but for a PQ_GET that stood at a PQ_SEQ, which
is issued again; after a dispatch fault, dispatch goes on behind the instruction. -/
def State.skip (s : State) (gb : Nat) : State :=
  if s.resumable gb then
    let q := s.seq gb
    let lacked := (s.inPort gb).lack.isSome
    let win := (q.window.filter (fun e => e.phase != .faulted || (lacked && unitOf e.word == 20))).map Entry.again
    let t := (s.setSeq gb { q with window := win, dispFault := false }).resumed gb
    let t := if q.dispFault then t.advance gb (t.pc gb) else t
    (t.dropFaulted gb).passLacked gb
  else s.reject gb

/-- RESUME_REISSUE (R283). -/
def execResumeReissue (gb agent : Nat) (s : State) : Host.Outcome State Fault Refusal :=
  okIf (gb < 2560) (s.commanded gb agent (fun s => s.reissue gb))

/-- RESUME_SKIP (R283). -/
def execResumeSkip (gb agent : Nat) (s : State) : Host.Outcome State Fault Refusal :=
  okIf (gb < 2560) (s.commanded gb agent (fun s => s.skip gb))

/-- The unit has begun the instruction. -/
def Entry.begun (e : Entry) : Bool :=
  e.phase == .issued && (e.stage != 0 || e.iter != 0 || e.asked != 0 || !e.kept.isEmpty || !e.outs.isEmpty)

/-- A unit abandons its executing instruction, with its state after a fault (R124, R173, R222, R240, R284, R333). -/
def State.abandonUnit (s : State) (gb : Nat) (e : Entry) : State :=
  let u := unitOf e.word
  if e.begun = false then s
  else if u < 16 then
    let gp := potIx gb u
    match opc e.word with
    | 0x10 => s.potFaulted gp
    | 0x11 => if e.upd.op = 0 then (s.potFaulted gp).sweepStopped gb u e else (s.potFaulted gp).workStopped gb u e
    | _ => (s.loadFaulted gb u e).abandon gb e.id
  else if u = 16 then s.setParx gb { s.parx gb with computed := none }
  else if u = 17 then (if (e.jack 0).op = 1 then s else s.mmFaulted gb)
  else if u = 19 then s.abandon gb e.id
  else s

/-- The out-port's queued handles discarded; a handle that has its SEQ gives it and its credit back (R343). -/
def State.clearOut (s : State) (gb : Nat) : State :=
  let t := s.dropFaulted gb
  let n := ((t.outPort gb).filter (fun h => h.stage == 1)).length
  let t := (List.range n).foldl (fun t _ => (t.creditBack gb).wr Reg.PQ_OUT_CREDIT_SEQ gb
    (t.rd Reg.PQ_OUT_CREDIT_SEQ gb + 255)) t
  t.setOut gb ((t.outPort gb).filter (fun h => decide (2 ≤ h.stage)))

/-- ABORT (R283, R284): accepted in FAULT with nothing in flight, in a FAULT of mutual waiting, whose recovery it is (R346), and in
DRAIN. The window is emptied, and every wait of the bench ends. -/
def State.abortBench (s : State) (gb : Nat) : State :=
  let f := s.seqState gb = .fault
  if (f ∧ ((s.seq gb).drained = true ∨ s.rd Reg.SEQ_FAULT_CODE gb = 0x0720)) ∨ s.seqState gb = .drain then
    let t := (s.seq gb).window.foldl (fun t e => t.abandonUnit gb e) s
    let t := t.clearOut gb
    let t := t.setIn gb { t.inPort gb with lack := none }
    let t := t.setSeq gb { t.seq gb with window := [], dispFault := false, ending := false, barLong := false }
    let t := ((List.range 22).foldl (fun t u => t.setWait gb u none) t).endWait gb
    let t := ((t.clearHolds gb).flag Reg.SEQ_STATUS_MULTI gb false).progress gb
    let t := if f then t.setPc gb (t.rd Reg.SEQ_FAULT_PC gb) else t
    t.setSeqState gb .halted
  else s.reject gb

/-- ABORT (R283, R284). -/
def execAbort (gb agent : Nat) (s : State) : Host.Outcome State Fault Refusal :=
  okIf (gb < 2560) (s.commanded gb agent (fun s => s.abortBench gb))

/-- SEQ_BAR_ARRIVE_WRITE (R280): the context that SEQ_BAR_SEL shows. -/
def execSeqBarArriveWrite (gb agent epoch : Nat) (s : State) : Host.Outcome State Fault Refusal :=
  okIf (gb < 2560) (s.written gb agent (fun s =>
    if s.stopped gb then
      let c := s.rd Reg.SEQ_BAR_SEL_CTX gb
      ((s.endWait gb).wr Reg.SEQ_BAR_ARRIVE_EPOCH gb epoch c).flag Reg.SEQ_BAR_INFO_OUTSTANDING gb false c
    else s.reject gb))

/-- The low half that a field holds for the write of its high half. -/
def State.heldLow (s : State) (f : Field) (gb : Nat) : Nat := s.heldLo.get 0 (f.key gb 0)

/-- SEQ_SREG_HI_WRITE (R289): both halves into the scalar register shown, only when halted (R285); s0 ignores it. -/
def execSeqSregHiWrite (gb agent high : Nat) (s : State) : Host.Outcome State Fault Refusal :=
  okIf (gb < 2560) (s.written gb agent (fun s =>
    if s.halted gb then
      s.setSreg gb (s.rd Reg.SEQ_SREG_SEL_REG gb)
        (BitVec.ofNat 64 (high % 2 ^ 32 * 2 ^ 32 + s.heldLow Reg.SEQ_SREG_LO_VAL_LO gb))
    else s))

/-- BENCH_PRNG_STATE_HI_WRITE (R76, R77): both halves into the substream shown, only when halted; a running bench raises
SEQ_PRNG_BUSY. Substreams 17 to 31 ignore writes. -/
def execBenchPrngStateHiWrite (gb agent high : Nat) (s : State) : Host.Outcome State Fault Refusal :=
  okIf (gb < 2560) (s.written gb agent (fun s =>
    if s.halted gb then
      let k := s.rd Reg.BENCH_PRNG_SEL_SUBSTREAM gb
      if k < 17 then
        s.setPrng gb k (BitVec.ofNat 64 (high % 2 ^ 32 * 2 ^ 32 + s.heldLow Reg.BENCH_PRNG_STATE_LO_STATE_LO gb))
      else s
    else s.benchReport gb 22 SEQ_PRNG_BUSY 0))

end Sys2Proof.Machine
end

