-- ==== Sys2Proof/Machine/Network.lean ====
section
/-! DEFINITION. The die network and the package network: hops, package links, barrier gathering (R360 to R364). -/

namespace Sys2Proof.Machine

open Sys2Proof

/-! ### The die network

Node b of a die lies in row b ÷ 10 and column b mod 10 (R26, R356). A link is named by its sending node and its direction, as
NOC_LINK_INFO names it: 0 north, 1 east, 2 south, 3 west, 4 the bench's own port (R371). -/

/-- Along a row of the mesh from a node to column `c`, and along a column to row `r`: the links, and the node reached (R358). -/
def alongRow (c : Nat) : Nat → Nat → List (Nat × Nat)
  | _, 0 => []
  | n, fuel + 1 =>
    if n % 10 = c then []
    else if n % 10 < c then (n, 1) :: alongRow c (n + 1) fuel
    else (n, 3) :: alongRow c (n - 1) fuel
def alongCol (r : Nat) : Nat → Nat → List (Nat × Nat)
  | _, 0 => []
  | n, fuel + 1 =>
    if n / 10 = r then []
    else if n / 10 < r then (n, 2) :: alongCol r (n + 10) fuel
    else (n, 0) :: alongCol r (n - 10) fuel

/-- The links of a message between two benches of one die: along the source's row to the destination column, then along that
column, and through the destination's port (R358). -/
def meshRoute (a b : Nat) : List (Nat × Nat) :=
  alongRow (b % 10) a 10 ++ alongCol (b / 10) (a / 10 * 10 + b % 10) 16 ++ [(b, 4)]

/-- The links of a message that leaves the die over an edge: straight along the source's column to the north or south edge router,
or along its row to the east or west one (R358). The last goes from the edge node to the router. -/
def meshLeave (a edge : Nat) : List (Nat × Nat) :=
  match edge with
  | 0 => alongCol 0 a 16 ++ [(a % 10, 0)]
  | 1 => alongRow 9 a 10 ++ [(a / 10 * 10 + 9, 1)]
  | 2 => alongCol 15 a 16 ++ [(150 + a % 10, 2)]
  | _ => alongRow 0 a 10 ++ [(a / 10 * 10, 3)]

/-- The links of a message that comes from an edge router: it enters at the edge node in the destination's column or row, and goes
straight to the destination (R358). -/
def meshEnter (edge b : Nat) : List (Nat × Nat) :=
  (match edge with
    | 0 => alongCol (b / 10) (b % 10) 16
    | 1 => alongRow (b % 10) (b / 10 * 10 + 9) 10
    | 2 => alongCol (b / 10) (150 + b % 10) 16
    | _ => alongRow (b % 10) (b / 10 * 10) 10) ++ [(b, 4)]

/-- The edges over which a message between two dies leaves the first: that of its x-first route and, where the pair goes by a detour,
that of its y-first route (R358, R363). Within the die it goes to the crossbar by whichever edge router it is bound for. -/
def leaveEdges (a b : Nat) : List Nat :=
  if a = b then [0, 1, 2, 3] else [true, false].filterMap (fun x => ((dieRoute x a b 8).head?).map Prod.snd)

/-- The edges over which a message between two dies enters the second (R358). -/
def enterEdges (a b : Nat) : List Nat :=
  if a = b then [0, 1, 2, 3] else [true, false].filterMap (fun x => ((dieRoute x a b 8).getLast?).map (fun l => (l.2 + 2) % 4))

/-- The mesh links of a die that a message from bench `a` crosses on its way to bench `b`, none for a message beyond the device's
benches (R358). -/
def benchPath (a b die : Nat) : List (Nat × Nat) :=
  if a / 160 = b / 160 then (if a / 160 = die then meshRoute (a % 160) (b % 160) else [])
  else (if a / 160 = die then (leaveEdges (a / 160) (b / 160)).flatMap (meshLeave (a % 160)) else []) ++
    (if b / 160 = die then (enterEdges (a / 160) (b / 160)).flatMap (fun e => meshEnter e (b % 160)) else [])

/-- The mesh links of a die between a bench and a place at an edge router or at the crossbar of die `far`, there and back (R358); `face`
lists the edges at which that place stands on its die. -/
def edgePath (a far die : Nat) (face : List Nat) : List (Nat × Nat) :=
  if a / 160 = die then
    (if die = far then face else leaveEdges die far).flatMap (meshLeave (a % 160)) ++
      (if die = far then face else enterEdges far die).flatMap (fun e => meshEnter e (a % 160))
  else []

/-- The edges of their die at which a memory address's controller and a port die stand (R24, R27): a stack over its die's outward edge,
an annex die to the north or south of its corner die, a port die to the west or east. -/
def memFace (a : Nat) : List Nat :=
  match placeOf a with
  | .tierA => [[0, 0, 3, 1, 3, 1, 2, 2].getD (stackOf a) 0]
  | .tierB => [if pkgOf a / 6 < 2 then 0 else 2]
  | _ => [0, 1, 2, 3]
def portFace (k : Nat) : List Nat := [if k % 2 = 0 then 3 else 1]

/-- A mesh link lies on the path of what a flit carries (R358): the request or the response of a transfer; the payload or handle of a
punty send, or its answer. A register access or a barrier message may be that of any bench of the die. -/
def State.onPath (s : State) (die : Nat) (link : Nat × Nat) : MeshLoad → Bool
  | .dma id =>
    match s.xfers.find? (fun x => x.id == id) with
    | none => true
    | some x =>
      let away := match x.tgt, placeOf x.ext with
        | 0, .spad t _ => benchPath x.gb t die ++ benchPath t x.gb die
        | 0, .imem t _ => benchPath x.gb t die ++ benchPath t x.gb die
        | 0, .bcast sel _ => (s.selected sel).flatMap (fun t => benchPath x.gb t die ++ benchPath t x.gb die) ++
            [0, 1, 2, 3].flatMap (meshLeave (x.gb % 160))
        | 0, _ => edgePath x.gb (dieAt x.ext) die (memFace x.ext)
        | 1, _ => [0, 1, 2, 3].flatMap (fun k => edgePath x.gb (cornerDie k) die (portFace k))
        | _, _ => edgePath x.gb 0 die [0, 1, 2, 3]
      away.contains link
  | .punty gb _ =>
    let dest := s.rd Reg.PQ_OUT_ROUTE_BENCH gb
    let local_ := s.rd Reg.PQ_OUT_ROUTE_DEVICE gb == s.devId
    (if local_ then benchPath gb dest die ++ benchPath dest gb die
      else [0, 1, 2, 3].flatMap (fun k => edgePath gb (cornerDie k) die (portFace k))).contains link
  | .register => true
  | .barrier => true
  | .other => true

/-- A NOC report: LAST_FAULT and a record with the link, or, where no link is concerned, with an INFO0 that the spec leaves open
(R524, R371, DESIGN CHOICE, assumption log 46). -/
def State.nocReport (s : State) (die code : Nat) (link : Option Nat) : State :=
  let s := s.wr Reg.NOC_STATUS_LAST_FAULT die code
  match link with
  | some l => s.devReport (0x1000 + die) code l
  | none => (s.free).2.devReport (0x1000 + die) code (s.free).1.toNat

/-- A lasting fault of a mesh link: the first since the last clear is held in NOC_LINK_INFO (R360, R371). -/
def State.meshLasting (s : State) (die node dir : Nat) : State :=
  let s := s.flag Reg.NOC_STATUS_LASTING die true
  let s := if s.on Reg.NOC_LINK_INFO_VALID die then s
    else ((s.flag Reg.NOC_LINK_INFO_VALID die true).wr Reg.NOC_LINK_INFO_NODE die node).wr Reg.NOC_LINK_INFO_DIR die dir
  (s.bump Reg.NOC_LINK_INFO_COUNT die).nocReport die 0x0901 (some (node * 2 ^ 23 + dir * 2 ^ 20))

/-- The consumer of a poisoned message treats it as a failed check (R360). -/
def State.poisonedMsg (s : State) (die : Nat) (link : Nat) : MeshLoad → State
  | .dma id =>
    match s.xfer id with
    | some x => if x.phase = .requested then s.retryXfer id else s
    | none => s
  | .punty gb sq => s.undelivered gb sq
  | .register => s.emit (.regError die)
  | .barrier => s.nocReport die 0x0903 (some link)
  | .other => s

/-- MESH_FLIT_RECEIVE (R358, R360): one flit over the link of a die from node `node` in direction `dir`. No flit of a message crosses a
link off that message's path: such a command is no event of the mesh. -/
def execMeshFlitReceive (die node dir : Nat) (ecc : Option Ecc) (load : MeshLoad) (s : State) :
    Host.Outcome State Fault Refusal :=
  okIf (die < 16 && node < 160 && dir < 5)
    (if !s.onPath die (node, dir) load then s
    else match ecc with
    | none => s
    | some .corrected => s.bump Reg.NOC_ERR_CNT_CORR die
    | some .transient => s.bump Reg.NOC_ERR_CNT_TRANSIENT die
    | some .lasting => (s.meshLasting die node dir).poisonedMsg die (node * 2 ^ 23 + dir * 2 ^ 20) load)

/-! ### Package links -/

/-- A die has a package link on an edge (R23). -/
def hasEdge (die edge : Nat) : Bool :=
  decide (die < 16) && (match edge with
    | 0 => decide (4 ≤ die)
    | 1 => die % 4 != 3
    | 2 => decide (die < 12)
    | 3 => die % 4 != 0
    | _ => false)

/-- The number of one end of a package link, and the two components of its other end. -/
def endIx (die edge : Nat) : Nat := 4 * die + edge
def farEdge (edge : Nat) : Nat := (edge + 2) % 4

/-- What one end of a link holds. -/
def State.pkgEnd (s : State) (die edge : Nat) : PkgX := s.pkgEnds.get {} (endIx die edge)

/-- The state with one end of a link replaced. -/
def State.setPkg (s : State) (die edge : Nat) (x : PkgX) : State :=
  { s with pkgEnds := s.pkgEnds.put {} (endIx die edge) x }

/-- A report of a package link: LAST_FAULT and a record with the edge (R371, R524). -/
def State.pkgReport (s : State) (die edge code : Nat) : State :=
  (s.wr Reg.PKG_LINK_STATUS_LAST_FAULT die code edge).devReport (0x1000 + die) code edge

/-- Both ends of a link in state `v`. -/
def State.setLink (s : State) (die edge v : Nat) : State :=
  (s.wr Reg.PKG_LINK_STATUS_STATE die v edge).wr Reg.PKG_LINK_STATUS_STATE (beside die edge) v (farEdge edge)

/-- The flits of an end's replay buffer sent again, and counted (R362). -/
def State.resendPkg (s : State) (die edge : Nat) : State :=
  let x := s.pkgEnd die edge
  x.buffer.foldl (fun t f => t.emit (.pkgFlit die edge f)) (s.bump Reg.PKG_REPLAY_CNT_COUNT die x.buffer.length edge)

/-- A replay from the flit after ACK. Where the last replay began at the same flit, that flit has failed again: the event is
lasting, and the link retrains (R362). -/
def State.replayPkg (s : State) (die edge : Nat) : State :=
  let x := s.pkgEnd die edge
  match x.buffer.head? with
  | none => s
  | some f =>
    if x.judged = some f.sq then
      (((s.setPkg die edge { x with judged := none }).setLink die edge 2).bump Reg.PKG_LINK_CNT_LASTING die 1 edge).pkgReport
        die edge 0x0910
    else (s.setPkg die edge { x with judged := some f.sq }).resendPkg die edge

/-- ACK of a flit received frees the flits up to it; the flit judged was good on replay where it is among them (R362). -/
def State.pkgAck (s : State) (die edge ack : Nat) : State :=
  let x := s.pkgEnd die edge
  let left := x.buffer.filter (fun f => decide (512 ≤ (ack + 1024 - f.sq) % 1024))
  let good := match x.judged with
    | some q => !left.any (fun f => f.sq == q)
    | none => false
  let s := s.setPkg die edge { x with buffer := left, judged := if good then none else x.judged }
  if good then s.bump Reg.PKG_LINK_CNT_TRANSIENT die 1 edge else s

/-- A data flit that arrives for the first time was sent by the other end, which keeps it (R362). The second component is false
where that end's replay buffer is full. -/
def State.pkgSent (s : State) (die edge : Nat) (f : PkgFlit) : State × Bool :=
  let y := s.pkgEnd (beside die edge) (farEdge edge)
  if f.typ ≠ 0 ∨ f.sq ≠ y.nextSeq then (s, true)
  else if 256 ≤ y.buffer.length then (s, false)
  else (s.setPkg (beside die edge) (farEdge edge) { y with nextSeq := (y.nextSeq + 1) % 1024, buffer := y.buffer ++ [f] }, true)

/-- NAK sent, with ACK the last flit accepted (R362). -/
def State.pkgNak (s : State) (die edge : Nat) : State :=
  let x := s.pkgEnd die edge
  (s.setPkg die edge { x with nak := true }).emit
    (.pkgFlit die edge { sq := x.nextSeq, typ := 1, ack := (x.expected + 1023) % 1024, nak := true })

/-- The receiver's test of a data flit (R362). -/
def State.pkgTest (s : State) (die edge : Nat) (f : PkgFlit) (good : Bool) : State :=
  let x := s.pkgEnd die edge
  let d := (f.sq + 1024 - x.expected) % 1024
  if d = 0 ∧ good = true then
    (s.setPkg die edge { x with expected := (x.expected + 1) % 1024, nak := false }).emit (.pkgTaken die edge f)
  else if d < 512 then s.pkgNak die edge
  else s

/-- PKG_FLIT_RECEIVE (R361, R362): the end of a link at a die's edge receives a flit. A TYPE of 3 or more is a CRC failure; an
idle flit carries ACK and NAK alone; a retrain request starts a retrain. A link that is not up receives no flits, and a NAK that
comes while it retrains has no further effect (R370). -/
def execPkgFlitReceive (die edge : Nat) (f : PkgFlit) (good : Bool) (s : State) : Host.Outcome State Fault Refusal :=
  okIf (hasEdge die edge)
    (if s.rd Reg.PKG_LINK_STATUS_STATE die edge ≠ 1 then s
    else
      let ok := good && decide (f.typ ≤ 2)
      match s.pkgSent die edge f with
      | (_, false) => s
      | (t, true) =>
        if !ok then t.pkgTest die edge f false
        else if f.typ = 2 then t.setLink die edge 2
        else
          let t := t.pkgAck die edge f.ack
          let t := if f.typ = 0 then t.pkgTest die edge f true else t
          if f.nak then t.replayPkg die edge else t)

/-- PKG_ACK_TIMEOUT (R362): 2 µs without an acknowledgement. -/
def execPkgAckTimeout (die edge : Nat) (s : State) : Host.Outcome State Fault Refusal :=
  okIf (hasEdge die edge)
    (if s.rd Reg.PKG_LINK_STATUS_STATE die edge = 1 then s.replayPkg die edge else s)

/-- The dies of a route, its ends among them. -/
def routeDies (xFirst : Bool) (a b : Nat) : List Nat :=
  b :: (dieRoute xFirst a b 8).map Prod.fst

/-- The pair of dies goes by a detour: its x-first route crosses a down link and its y-first route none (R363). -/
def State.detours (s : State) (a b : Nat) : Bool :=
  (dieRoute true a b 8).any (fun l => s.linkDown l.1 l.2) && (dieRoute false a b 8).all (fun l => !s.linkDown l.1 l.2)

/-- DETOUR of every die, shown on each of its edges (R371). -/
def State.showDetours (s : State) : State :=
  let used := (List.range 256).flatMap (fun k =>
    if s.detours (k / 16) (k % 16) then routeDies false (k / 16) (k % 16) else [])
  (List.range 64).foldl (fun t k => t.flag Reg.PKG_LINK_STATUS_DETOUR (k / 4) (used.contains (k / 4)) (k % 4)) s

/-- A link goes down: what its ends still hold goes on the detour, or is answered with error responses where there is none; two
dies that a down link joins are always without one (R362, R363). -/
def State.pkgDown (s : State) (die edge : Nat) : State :=
  let flush := fun (t : State) (d e : Nat) =>
    let x := t.pkgEnd d e
    x.buffer.foldl (fun t f => t.emit (if t.detours d (beside d e) then .pkgDetour d e f else .pkgRefused d e f))
      (t.setPkg d e { x with buffer := [], judged := none })
  let t := s.setLink die edge 3
  (flush (flush t die edge) (beside die edge) (farEdge edge)).showDetours

/-- FAILS of both ends of a link. -/
def State.setFails (s : State) (die edge v : Nat) : State :=
  (s.wr Reg.PKG_LINK_STATUS_FAILS die v edge).wr Reg.PKG_LINK_STATUS_FAILS (beside die edge) v (farEdge edge)

/-- PKG_RETRAIN_END (R362): a retrain succeeds, and both replay buffers are sent again; or it fails, and after three in a row the
link is down. -/
def execPkgRetrainEnd (die edge : Nat) (ok : Bool) (s : State) : Host.Outcome State Fault Refusal :=
  okIf (hasEdge die edge)
    (if s.rd Reg.PKG_LINK_STATUS_STATE die edge ≠ 2 then s
    else if ok then
      (((s.setLink die edge 1).setFails die edge 0).resendPkg die edge).resendPkg (beside die edge) (farEdge edge)
    else
      let n := s.rd Reg.PKG_LINK_STATUS_FAILS die edge + 1
      let t := s.setFails die edge n
      if n < 3 then t else (t.pkgDown die edge).pkgReport die edge 0x0911)

/-! ### Barrier gathering -/

/-- A group that is confined to the device is released: E advances, and the release carries the old E (R364). -/
def State.releaseGroup (s : State) (die group : Nat) : State :=
  let e := s.rd Reg.NOC_BAR_EPOCH_EXPECT die group
  ((s.wr Reg.NOC_BAR_CFG_ARRIVED die 0 group).wr Reg.NOC_BAR_EPOCH_EXPECT die (e + 1) group).emit (.release group e)

end Sys2Proof.Machine
end

