-- ==== Sys2Proof/Machine/Fabric.lean ====
section
/-! DEFINITION. The fabric transport: transactions of this device (R437 to R441), the tests, the caches and the execution of what it
receives (R440 to R443). -/

namespace Sys2Proof.Machine

open Sys2Proof

/-! ### Requests -/

/-- A request that starts its transaction, or waits for a TID (R438). A destination without a route fails at once; the third
component is false then. -/
def State.submit (s : State) (owner : TxnOwner) (m : FabMsg) (die : Nat) : State × Bool :=
  match s.request owner m die with
  | (t, .sent _) => (t, true)
  | (t, .noTid) => ({ t with fabWait := t.fabWait ++ [(owner, m, die)] }, true)
  | (t, .unreach) => (t, false)

/-- A transaction ends: its TID is free (R438, R441). -/
def State.endTxn (s : State) (x : Txn) : State :=
  ({ s with txns := s.txns.filter (fun y => y.msg.tid != x.msg.tid) } : State).countTids (x.msg.tid / 2048)

/-- The transaction that a TID names. -/
def State.txn (s : State) (tid : Nat) : Option Txn := s.txns.find? (fun x => x.msg.tid == tid)

/-- The state with a transaction changed. -/
def State.modTxn (s : State) (tid : Nat) (f : Txn → Txn) : State :=
  { s with txns := s.txns.map (fun x => if x.msg.tid = tid then f x else x) }

/-- A type whose duplicates a completion cache suppresses (R442). -/
def cached (typ : Nat) : Bool := typ == 2 || typ == 3 || typ == 6

/-- A response received is to be reported to its target, where the transaction was not retried; a full queue drops its oldest
(R442). -/
def State.noteRtid (s : State) (x : Txn) : State :=
  if x.retried || !cached x.msg.typ then s
  else
    let k := x.msg.tid / 2048
    let q := s.rtidQ.get [] k ++ [(x.msg.dst, x.msg.tid)]
    { s with rtidQ := s.rtidQ.put [] k (if 256 < q.length then q.drop 1 else q) }

/-- A request sent again on a route chosen afresh (R437, R441). -/
def State.resendTxn (s : State) (x : Txn) : State × Bool :=
  let k := x.msg.tid / 2048
  s.sendMsg x.msg (cornerDie k)

/-! ### What ends a transaction -/

/-- FAB_UNREACHABLE where STATUS 7 ends a transaction (R437). -/
def State.noRoute (s : State) (x : Txn) (status : Nat) (lost : Bool) : State :=
  if status = 7 ∧ lost = false then s.fabUnreachable (x.msg.tid / 2048) x.msg.dst else s

/-- The owner of a transaction learns its end: STATUS with the response's AUX and payload; `lost` where the retry timed out too
(R437, R441). Collectives are served by their own unit. -/
def State.ownerEnds (s : State) (x : Txn) (status aux : Nat) (payload : List Byte) (lost : Bool) : State :=
  match x.owner with
  | .xfer id =>
    if lost then s.respond id .failed
    else match status with
      | 0 => s.respond id (if x.msg.typ = 1 then .data payload else .ack)
      | 5 => s.respond id .poison
      | 6 => s.respond id (.memError (aux % 65536))
      | 7 => (s.noRoute x status lost).respond id .failed
      | _ => s.respond id .denied
  | .hdl gb sq => if lost || status != 0 then (s.noRoute x status lost).undelivered gb sq else s.delivered gb sq
  | .hdlData gb sq => if lost || status != 0 then (s.noRoute x status lost).undelivered gb sq else s
  | .mgmt => s.emit (.servitor x.msg.typ x.msg.dst (if lost then 256 else status))
  | _ => s

/-! ### Tests of what is received -/

/-- The READY partition that holds a fabric tag (R440). -/
def State.tagPart (s : State) (ftag : Nat) : Option Nat :=
  (List.range 16).find? (fun p => s.on Reg.PART_CFG_VALID 0 p && s.rd Reg.PART_CFG_FAB_TAG 0 p == ftag && ftag != 0 &&
    s.rd Reg.PART_STATUS_STATE 0 p == 2)

/-- What a received request meets (R440): it is discarded, answered with a STATUS, or executed for a partition. -/
inductive Verdict where
  | drop
  | answer (status : Nat)
  | go (p : Nat)
  deriving DecidableEq, Repr

/-- Every cache entry, FSEQ and payload piece of a source and tag is discarded, and a collective that the source feeds ends
(R443, R461). -/
def State.discardPeer (s : State) (tag src : Nat) : State :=
  let key := 512 * tag + src
  let ringsOf := (List.range 16).filter (fun r => s.rd Reg.FAB_RING_PEER_PREV 0 r == src && s.rd Reg.FAB_RING_PEER_FTAG 0 r == tag)
  let s : State := { s with cache := s.cache.map (fun e => (e.1, e.2.filter (fun c => c.src != src || c.tag != tag))),
                            fseqIn := s.fseqIn.filter (fun e => e.1 / 4096 != key),
                            hdlData := s.hdlData.filter (fun e => e.1 / 4096 != key) }
  let s : State := { s with cache := s.cache.filter (fun e => !e.2.isEmpty) }
  ringsOf.foldl (fun t r =>
    let x := t.rings.get {} r
    if x.cmd.any (fun c => c.op != 3) && x.status.isNone then { t with rings := t.rings.put {} r { x with status := some 4 } } else t) s

/-- The generation test of a source and tag (R443); `k` is the landing port die. The second component is false for STALE. -/
def State.genTest (s : State) (k tag src gen : Nat) : State × Bool :=
  let key := 512 * tag + src
  let l := s.genSeen.get 0 key
  let d := serialDist gen (l - 1)
  let set := fun (t : State) => ({ t with genSeen := t.genSeen.put 0 key (gen % 2 ^ 32 + 1) } : State)
  if l = 0 then (set s, true)
  else if d = 0 then (s, true)
  else if d < 2 ^ 31 then ((set s).discardPeer tag src, true)
  else
    let t := s.bump Reg.FAB_REJECT_CNT_GEN k
    (if d = 2 ^ 31 then t.fabReport k 0x0C03 src 0 else t, false)

/-- The age test (R440): bits 41:10 of the local time against STAMP. -/
def State.tooOld (s : State) (m : FabMsg) : Bool :=
  let d := (s.fabTime / 1024 % 2 ^ 32 + 2 ^ 32 - m.stamp % 2 ^ 32) % 2 ^ 32
  decide (2 ^ 20 ≤ d) && decide (d ≤ 2 ^ 32 - 2 ^ 10)

/-- An entry that a request reports as answered is freed (R442). -/
def State.freeRtid (s : State) (m : FabMsg) : State :=
  match m.rtid with
  | none => s
  | some t => { s with cache := s.cache.put [] (t / 2048) ((s.cache.get [] (t / 2048)).filter (fun e => e.src != m.src || e.tid != t)) }

/-- The tests of R440 up to the age test, in order, for a request that lands on port die `k`. -/
def State.receive (s : State) (k : Nat) (m : FabMsg) (crc : Bool) : State × Verdict :=
  if m.dst ≠ s.devId ∨ crc = false then (s, .drop)
  else
    let s := s.freeRtid m
    if vcOf m.typ ≠ 0 ∧ (s.on Reg.DEV_LOCATION_VALID 0 = false ∨ s.on Reg.FAB_TIME_CFG_VALID 0 = false) then (s, .answer 2)
    else match s.tagPart m.ftag with
      | none => (s.bump Reg.FAB_REJECT_CNT_TAG k, .answer 2)
      | some p =>
        match s.genTest k m.ftag m.src m.gen with
        | (t, false) => (t, .answer 3)
        | (t, true) => if t.tooOld m then (t.bump Reg.FAB_REJECT_CNT_AGE k, .answer 3) else (t, .go p)

/-- The response to a request: its type and STATUS, AUX and payload (R436, R437). -/
def State.response (s : State) (m : FabMsg) (typ status aux : Nat) (payload : List Byte) : FabMsg :=
  { typ := typ, dst := m.src, src := s.devId, tid := m.tid, ftag := m.ftag, status := status, len := payload.length,
    gen := (match s.tagPart m.ftag with
      | some p => s.partGen.get 0 p
      | none => 0), aux := aux, stamp := s.fabTime / 1024 % 2 ^ 32, payload := payload }

/-- A response sent from the landing port die. -/
def State.answer (s : State) (k : Nat) (m : FabMsg) (typ status : Nat) (aux : Nat := 0) (payload : List Byte := []) : State :=
  (s.sendMsg (s.response m typ status aux payload) (cornerDie k)).1

/-! ### The completion cache -/

/-- The response that the home port die of a request holds for it (R442). -/
def State.cacheHit (s : State) (m : FabMsg) : Option FabMsg :=
  ((s.cache.get [] (m.tid / 2048)).find? (fun e => e.src == m.src && e.tid == m.tid)).bind (fun e => e.resp)

/-- The home's cache has no free entry. -/
def State.cacheFull (s : State) (m : FabMsg) : Bool := decide (16384 ≤ (s.cache.get [] (m.tid / 2048)).length)

/-- The entry of an executed request. -/
def State.cachePut (s : State) (m r : FabMsg) : State :=
  let k := m.tid / 2048
  { s with cache := s.cache.put [] k (s.cache.get [] k ++
      [{ src := m.src, tid := m.tid, tag := m.ftag, resp := some r, time := s.lifeNs }]) }

/-- A request under duplicate suppression (R442): answered again from its entry, BUSY for want of one, or executed by `run`, whose
answer is kept; `run` gives none where the access waits, and then nothing has happened yet. -/
def State.onceOnly (s : State) (k : Nat) (m : FabMsg) (typ : Nat)
    (run : State → Option (State × Nat × Nat × List Byte)) : State :=
  let home := m.tid / 2048
  match s.cacheHit m with
  | some r => ((s.bump Reg.FAB_DUP_CNT_DUP home).sendMsg r (cornerDie k)).1
  | none =>
    if s.cacheFull m then (s.bump Reg.FAB_DUP_CNT_BUSY home).answer k m typ 1
    else match run s with
      | none => s
      | some (t, status, aux, payload) =>
        let r := t.response m typ status aux payload
        if status = 1 then (t.sendMsg r (cornerDie k)).1 else ((t.cachePut m r).sendMsg r (cornerDie k)).1

/-! ### Execution at the destination -/

/-- The address lies in the partition's windows and benches, and may be written where `write` says so (R440). -/
def State.fabOk (s : State) (p a n : Nat) (write : Bool) : Bool :=
  let last := a + n - 1
  match placeOf a, placeOf last with
  | .tierA, .tierA => s.inWindow p a write && s.inWindow p last write
  | .tierB, .tierB => s.inWindow p a write && s.inWindow p last write
  | .spad g _, .spad h _ => g == h && s.partOf g == p
  | .imem g _, .imem h _ => g == h && s.partOf g == p
  | .bcast x o, .bcast y q => write && x == y && (match benchPlace 0 o, benchPlace 0 q with
    | .spad _ _, .spad _ _ => true
    | .imem _ _, .imem _ _ => true
    | _, _ => false)
  | _, _ => false

/-- STATUS and AUX of an error of a tier (R437). -/
def memStatus (code : Nat) : Nat × Nat := if code = 0x0A03 then (5, 0) else (6, code)

/-- Port die k reaches a die over the package network: a fenced corner die cuts its port die off (R363, R482). -/
def State.portReach (s : State) (k d : Nat) : Bool :=
  !s.on Reg.PWR_DIE_STATUS_FENCED 0 (cornerDie k) && s.reachable (cornerDie k) d

/-- The landing port die reaches the address over the package network. -/
def State.fabReach (s : State) (k a : Nat) : Bool := s.portReach k (dieAt a)

/-- The benches that a write to a device-local address writes, each with its offset in the bench window. -/
def State.targets (s : State) (p a : Nat) : List (Nat × Nat) :=
  match placeOf a with
  | .spad g o => [(g, o)]
  | .imem g o => [(g, o + 0x100000)]
  | .bcast sel o => ((s.selected sel).filter (fun g => s.partOf g == p)).map (fun g => (g, o))
  | _ => []

/-- A write of a bench window's offset waits: the bench's clock is stopped, or a tag withholds it (R34, R257, R367). -/
def State.benchBlocks (s : State) (gb off n act : Nat) : Bool :=
  s.clockStopped gb || (decide (off < 0x60000) && (s.regionWait gb ⟨off, n, true, act⟩).isSome)

/-- A write to a bench window's offset: scratchpad or instruction memory (R353). -/
def State.benchWrite (s : State) (gb off : Nat) (bs : List Byte) (act : Nat) : State :=
  if off < 0x60000 then s.remoteWrite gb [] off bs act else s.imemWrite gb (off - 0x100000) bs

/-- A GET executed (R439, R440): STATUS, AUX and data; none where it waits. -/
def State.runGet (s : State) (k p : Nat) (m : FabMsg) (ecc : List (Nat × Ecc)) : Option (State × Nat × Nat × List Byte) :=
  if s.fabOk p m.addr m.len false = false ∨ m.len = 0 then some (s, 4, 0, [])
  else if s.fabReach k m.addr = false then some (s.reportUnreachable (cornerDie k) (dieAt m.addr), 7, 0, [])
  else match placeOf m.addr with
    | .spad gb off =>
      if s.clockStopped gb || (s.regionWait gb ⟨off, m.len, false, m.rtag⟩).isSome then none
      else match s.remoteRead gb ecc off m.len m.rtag with
        | (t, some bs) => some (t, 0, 0, bs)
        | (t, none) => some (t, 5, 0, [])
    | .imem gb off => some (s, 0, 0, s.bytes (imemBase gb + off) m.len)
    | _ =>
      match s.tierFetch m.addr m.len ecc with
      | (t, some e, _) => some (t, (memStatus e.1).1, (memStatus e.1).2, [])
      | (t, none, bs) => some (t, 0, 0, bs)

/-- A PUT executed (R440, R441). -/
def State.runPut (s : State) (k p : Nat) (m : FabMsg) (ecc : List (Nat × Ecc)) (crc : List (Nat × Bool)) :
    Option (State × Nat × Nat × List Byte) :=
  let bs := m.payload
  if s.fabOk p m.addr bs.length true = false ∨ bs.isEmpty = true then some (s, 4, 0, [])
  else if (placeOf m.addr = .tierA ∨ placeOf m.addr = .tierB) ∧ s.fabReach k m.addr = false then
    some (s.reportUnreachable (cornerDie k) (dieAt m.addr), 7, 0, [])
  else if placeOf m.addr = .tierA ∨ placeOf m.addr = .tierB then
    match s.tierStore m.addr bs ecc crc with
    | (t, some e) => some (t, (memStatus e.1).1, (memStatus e.1).2, [])
    | (t, none) => some (t, 0, 0, [])
  else
    let ts := s.targets p m.addr
    match ts.find? (fun q => !s.portReach k (q.1 / 160)) with
    | some q => some (s.reportUnreachable (cornerDie k) (q.1 / 160), 7, 0, [])
    | none =>
      if ts.any (fun q => s.benchBlocks q.1 q.2 bs.length m.rtag) then none
    else some (ts.foldl (fun t q => t.benchWrite q.1 q.2 bs m.rtag) s, 0, 0, [])

/-- The result of an atomic on a 64-bit value (R459): for compare-and-swap the first operand is compared and the second stored
(DESIGN CHOICE, assumption log 50). -/
def atomicOp (aop old a b : Nat) : Nat :=
  match aop with
  | 0 => (old + a) % 2 ^ 64
  | 1 => a
  | 2 => if old = a then b else old
  | _ => if signed 64 old < signed 64 a then a else old

/-- An ATOMIC executed (R459): the old value is answered. -/
def State.runAtomic (s : State) (k p : Nat) (m : FabMsg) (ecc : List (Nat × Ecc)) : Option (State × Nat × Nat × List Byte) :=
  let tier := placeOf m.addr = .tierA ∨ placeOf m.addr = .tierB
  if ¬ tier ∨ 3 < m.aop ∨ m.addr % 8 ≠ 0 ∨ s.inWindow p m.addr true = false then some (s, 4, 0, [])
  else if s.fabReach k m.addr = false then some (s.reportUnreachable (cornerDie k) (dieAt m.addr), 7, 0, [])
  else match s.tierFetch m.addr 8 ecc with
    | (t, some e, _) => some (t, (memStatus e.1).1, (memStatus e.1).2, [])
    | (t, none, bs) =>
      let v := atomicOp m.aop (ofBytes bs) (ofBytes (m.payload.take 8)) (ofBytes ((m.payload.drop 8).take 8))
      match t.tierStore m.addr (leBytes 8 v) [] [] with
      | (u, some e) => some (u, (memStatus e.1).1, (memStatus e.1).2, [])
      | (u, none) => some (u, 0, 0, bs)

/-! ### Pipeline streams -/

/-- The flow of a VC3 message and its FSEQ (R435, R442). -/
def flowKey (m : FabMsg) : Nat := 4096 * (512 * m.ftag + m.src) + m.aux / 65536 % 4096
def fseqOf (m : FabMsg) : Nat := m.aux % 65536

/-- A VC3 message under the FSEQ test (R442): executed by `run` where it is the one expected, which gives none where it waits. -/
def State.inOrder (s : State) (k : Nat) (m : FabMsg) (run : State → Option (State × Nat)) : State :=
  let e := s.fseqIn.get 0 (flowKey m)
  let d := (fseqOf m + 65536 - e) % 65536
  if d = 0 then
    match run s with
    | none => s
    | some (t, status) => ({ t with fseqIn := t.fseqIn.put 0 (flowKey m) ((e + 1) % 65536) } : State).answer k m 0x18 status
  else if 32768 ≤ d then s.answer k m 0x18 0
  else s.answer k m 0x18 8 e

/-- The destination bench of a VC3 message, where it is one of the partition (DESIGN CHOICE, assumption log 44). -/
def State.hdlBench (s : State) (p : Nat) (m : FabMsg) : Option Nat :=
  match placeOf m.addr with
  | .spad gb _ => if s.partOf gb = p then some gb else none
  | _ => none

/-- A payload piece executed: kept until its handle (R338). -/
def State.runHdlData (s : State) (p : Nat) (m : FabMsg) : Option (State × Nat) :=
  match s.hdlBench p m with
  | none => some (s, 4)
  | some _ => some ({ s with hdlData := s.hdlData.put [] (flowKey m) (s.hdlData.get [] (flowKey m) ++ m.payload) }, 0)

/-- A handle executed: delivered at its in-port with the payload that came before it (R338, R339, R342). -/
def State.runHdl (s : State) (k p : Nat) (m : FabMsg) (ecc : List (Nat × Ecc)) : Option (State × Nat) :=
  match s.hdlBench p m with
  | none => some (s, 4)
  | some gb =>
    if s.portReach k (gb / 160) = false then some (s.reportUnreachable (cornerDie k) (gb / 160), 7)
    else match s.handleArrive gb (BitVec.ofNat 64 (ofBytes (m.payload.take 8))) (s.hdlData.get [] (flowKey m)) ecc with
      | (_, false) => none
      | (t, true) => some ({ t with hdlData := t.hdlData.put [] (flowKey m) [] }, 0)

/-- The source resends every message of a flow from the FSEQ that the target expects, in order (R437, R442). -/
def State.resendFlow (s : State) (x : Txn) (expected : Nat) : State :=
  let flow := s.txns.filter (fun y => vcOf y.msg.typ == 3 && y.msg.dst == x.msg.dst &&
    y.msg.aux / 65536 == x.msg.aux / 65536 && decide ((fseqOf y.msg + 65536 - expected) % 65536 < 32768))
  let ord := sortBy (fun a b => decide ((fseqOf a.msg + 65536 - expected) % 65536 ≤
    (fseqOf b.msg + 65536 - expected) % 65536)) flow
  ord.foldl (fun t y => (t.resendTxn y).1) s

/-! ### Barriers that span devices -/

/-- The partition whose range holds a barrier group (R377, R393). -/
def State.groupPart (s : State) (group : Nat) : Option Nat :=
  (List.range 16).find? (fun p => s.on Reg.PART_CFG_VALID 0 p &&
    decide (s.rd Reg.PART_GROUPS_BAR_FIRST 0 p ≤ group) &&
    decide (group < s.rd Reg.PART_GROUPS_BAR_FIRST 0 p + s.rd Reg.PART_GROUPS_BAR_COUNT 0 p))

/-- The device arrival of a home die (R364, R454). -/
def State.devArrive (s : State) (die group e : Nat) : State :=
  let p := s.groupPart group
  let tag := (p.map (fun p => s.rd Reg.PART_CFG_FAB_TAG 0 p)).getD 0
  let gen := (p.map (fun p => s.partGen.get 0 p)).getD 0
  let s := s.emit (.devArrival group e)
  if s.on Reg.FAB_BAR_CFG_VALID 0 group then
    (s.submit (.barrier group) { typ := 8, dst := s.rd Reg.FAB_BAR_CFG_HOME 0 group, ftag := tag, gen := gen, addr := group,
                                 aux := e } die).1
  else s

/-- BAR_ARRIVAL_HOME (R364, R454): an arrival at the home of its group; discarded while its partition is in APPLY (R391). -/
def execBarArrivalHome (die group epoch : Nat) (s : State) : Host.Outcome State Fault Refusal :=
  okIf (die < 16 && group < 256)
    (if s.on Reg.NOC_BAR_CFG_HOME die group = false ∨ (s.groupPart group).any s.applying = true then s
    else
      let e := s.rd Reg.NOC_BAR_EPOCH_EXPECT die group
      let all := s.rd Reg.NOC_BAR_CFG_MEMBERS die group
      let n := s.rd Reg.NOC_BAR_CFG_ARRIVED die group + 1
      if epoch ≠ e then s.nocReport die 0x0902 none
      else if n < all then s.wr Reg.NOC_BAR_CFG_ARRIVED die n group
      else if all < n then s
      else if s.on Reg.NOC_BAR_CFG_SPANS die group then (s.wr Reg.NOC_BAR_CFG_ARRIVED die n group).devArrive die group e
      else s.releaseGroup die group)

/-- The home die of a group on this device. -/
def State.homeDie (s : State) (group : Nat) : Option Nat := (List.range 16).find? (fun d => s.on Reg.NOC_BAR_CFG_HOME d group)

/-- A BAR_RELEASE towards a device (R454). -/
def State.sendRelease (s : State) (m : FabMsg) (group epoch dst : Nat) : State :=
  (s.submit (.barrier group) { typ := 9, dst := dst, ftag := m.ftag, gen := ((s.tagPart m.ftag).map (s.partGen.get 0)).getD 0,
                               addr := group, aux := epoch } (((s.homeDie group)).getD 0)).1

/-- The count of device arrivals at H (R454); `k` is the landing port die. -/
def State.countDevice (s : State) (k : Nat) (m : FabMsg) : State :=
  let g := m.addr % 256
  let f := s.rd Reg.FAB_BAR_EPOCH_F 0 g
  let d := serialDist m.aux f
  if s.on Reg.FAB_BAR_CFG_VALID 0 g = false ∨ s.rd Reg.FAB_BAR_CFG_HOME 0 g ≠ s.devId ∨
    (s.groupPart g).any s.applying = true then s
  else if d = 0 then
    let q := s.barSrc.get [] g
    if q.contains m.src then s
    else if q.length + 1 < s.rd Reg.FAB_BAR_CFG_D 0 g + 1 then { s with barSrc := s.barSrc.put [] g (q ++ [m.src]) }
    else
      let t := ({ s with barSrc := s.barSrc.put [] g [] } : State).wr Reg.FAB_BAR_EPOCH_F 0 (f + 1) g
      (q ++ [m.src]).foldl (fun t n => t.sendRelease m g f n) t
  else if d = 2 ^ 32 - 1 then s.sendRelease m g ((f + 2 ^ 32 - 1) % 2 ^ 32) m.src
  else if d < 2 ^ 31 then s.fabReport k 0x0C04 m.src 0
  else s

/-- A release at a member's home die: accepted where its epoch is that of the outstanding device arrival (R454). -/
def State.acceptRelease (s : State) (m : FabMsg) : State :=
  let g := m.addr % 256
  match s.homeDie g with
  | none => s
  | some die =>
    if (s.groupPart g).any s.applying then s
    else if s.on Reg.NOC_BAR_CFG_SPANS die g && s.rd Reg.NOC_BAR_CFG_ARRIVED die g == s.rd Reg.NOC_BAR_CFG_MEMBERS die g &&
      s.rd Reg.NOC_BAR_EPOCH_EXPECT die g == m.aux then s.releaseGroup die g
    else s

end Sys2Proof.Machine
end

