-- ==== Sys2Proof/Machine/Collective.lean ====
section
/-! DEFINITION. The collective units (R455 to R460): commands, chunks, sums and completion records. -/

namespace Sys2Proof.Machine

open Sys2Proof

/-- What the unit holds for a ring. -/
def State.ringX (s : State) (r : Nat) : RingX := s.rings.get {} r
def State.setRing (s : State) (r : Nat) (x : RingX) : State := { s with rings := s.rings.put {} r x }

/-- N, POS and FTAG of a ring (R462). -/
def State.ringN (s : State) (r : Nat) : Nat := s.rd Reg.FAB_RING_CFG_N 0 r + 1
def State.ringPos' (s : State) (r : Nat) : Nat := s.rd Reg.FAB_RING_CFG_POS 0 r

/-- The address of queue slot HEAD of a ring (R456, R462). -/
def State.slotAddr (s : State) (r : Nat) : Nat := s.rd Reg.FAB_RING_Q_BASE 0 r * 4096 + 64 * s.rd Reg.FAB_RING_CFG_HEAD 0 r

/-- A command from its slot's bytes (R456). -/
def CollCmd.ofBytes (bs : List Byte) : CollCmd :=
  let n := fun (a k : Nat) => Sys2Proof.ofBytes ((bs.drop a).take k)
  { op := n 1 1, inF := n 2 1, outF := n 3 1, wire := n 4 1, eb := n 5 1, count := n 8 4, cseq := n 12 4, src := n 16 8, dst := n 24 8,
    notify := n 32 8, target := n 40 8, operands := (bs.drop 48).take 16, aop := Config.collAop bs }

/-- The element width, signedness and BF16 flag of a format byte (R456). -/
def fmtA (f : Nat) : Nat := f % 8 + 1
def fmtSigned (f : Nat) : Bool := f / 8 % 2 = 1
def fmtBf (f : Nat) : Bool := f / 16 % 2 = 1

/-- The bytes of a block's payload in a format. -/
def fmtLen (f : Nat) : Nat := if fmtBf f then 64 else 4 * fmtA f

/-- The blocks of chunk c of COUNT over N members (R457). -/
def chunkBlocks (count n c : Nat) : List Nat := upFrom (c * count / n) ((c + 1) * count / n - c * count / n)

/-- The receive steps of a command: reduce-scatter, all-gather or both (R457). -/
def CollCmd.steps (c : CollCmd) (n : Nat) : Nat := if c.op = 0 then 2 * (n - 1) else n - 1

/-- Step t of a command belongs to the all-gather. -/
def CollCmd.gather (c : CollCmd) (n t : Nat) : Bool := c.op == 2 || (c.op == 0 && decide (n - 1 ≤ t))

/-- The chunk due at receive step t of the member at POS i (R457). -/
def CollCmd.due (c : CollCmd) (n i t : Nat) : Nat :=
  if c.gather n t then (i + n - (if c.op = 0 then t - (n - 1) else t)) % n else (i + 2 * n - 1 - t) % n

/-! ### Sums -/

/-- What a block's addition meets (R458). -/
inductive CollBad where
  | scale | overflow | addr | lasting
  deriving DecidableEq, Repr

/-- The status of a record (R460). -/
def CollBad.status : CollBad → Nat
  | .scale => 2
  | .overflow => 3
  | .addr => 6
  | .lasting => 5

/-- The contributions of a block's elements at scale e in units of EB; a flush where k < 0 (R458). -/
def contribs (eb e : Nat) (vs : List Int) : Except CollBad (List Int × Bool) :=
  let k : Int := (e : Int) - eb
  if e = 255 ∨ 23 < k then .error .scale
  else if k < 0 then .ok (vs.map (fun _ => 0), true)
  else .ok (vs.map (fun v => v * (2 ^ k.toNat : Nat)), false)

/-- The unit of a ring reaches an address from its port die (R455, R363). -/
def State.ringReach (s : State) (r a : Nat) : Bool := s.fabReach (s.rd Reg.FAB_RING_CFG_PORT 0 r) a

/-- An access that the unit of a ring cannot make is reported (R363). -/
def State.ringCut (s : State) (r a : Nat) : State :=
  s.reportUnreachable (cornerDie (s.rd Reg.FAB_RING_CFG_PORT 0 r)) (dieAt a)

/-- The member's own block b of SRC: payload bytes and scale byte (R54, R456, DESIGN CHOICE, assumption log 49). -/
def State.ownBlock (s : State) (r p : Nat) (c : CollCmd) (f b : Nat) : State × Except CollBad (List Byte × Nat) :=
  let a := c.src + b * fmtLen f
  let sc := Config.collScales c.src c.count (fmtA f) + b
  if s.inWindow p a false = false ∨ s.inWindow p (a + fmtLen f - 1) false = false ∨
    (fmtBf f = false ∧ s.inWindow p sc false = false) then (s, .error .addr)
  else if s.ringReach r a = false then (s.ringCut r a, .error .lasting)
  else match s.tierFetch a (fmtLen f) [] with
    | (t, some _, _) => (t, .error .lasting)
    | (t, none, bs) =>
      if fmtBf f then (t, .ok (bs, 0))
      else match t.tierFetch sc 1 [] with
        | (u, some _, _) => (u, .error .lasting)
        | (u, none, e) => (u, .ok (bs, Sys2Proof.ofBytes e))

/-- The 32 elements of a payload in an integer format. -/
def fmtElems (f : Nat) (bs : List Byte) : List Int :=
  (List.range 32).map (fun i => blockElem (fmtSigned f) (fmtA f) (Sys2Proof.ofBytes bs) 32 i)

/-- The 32 FP32 patterns of a BF16 payload. -/
def bfElems (bs : List Byte) : List Word :=
  (List.range 32).map (fun i => BitVec.ofNat 32 (Sys2Proof.ofBytes ((bs.drop (2 * i)).take 2) * 65536))

/-- A partial as it travels (DESIGN CHOICE, assumption log 49): 32 elements of WIRE width and the scale byte, or 32 FP32 values. -/
inductive Partial where
  | ints (vs : List Int)
  | floats (ws : List Word)
  deriving DecidableEq, Repr

/-- The bytes of a partial on the wire, with whether a nonzero bit was discarded; none where the scale leaves E8 (R458). -/
def Partial.wire (c : CollCmd) : Partial → Option (List Byte × Bool)
  | .floats ws => some (ws.flatMap (fun w => leBytes 4 w.toNat), false)
  | .ints vs =>
    let a := if c.wire = 0 then 8 else 16
    let s := blockShift true a vs
    let es := vs.map (fun v => (roundElem true a s none v).1)
    if 254 < c.eb + s then none
    else some (leBytes (4 * a) ((es.mapIdx (fun i v => pattern a v * 2 ^ (a * i))).sum) ++ leBytes 1 (c.eb + s),
      vs.any (fun v => v % (2 ^ s : Nat) != 0))

/-- A partial from the wire, in units of EB. -/
def Partial.ofWire (c : CollCmd) (bs : List Byte) : Except CollBad (Partial × Bool) :=
  if fmtBf c.inF then .ok (.floats ((List.range 32).map (fun i => BitVec.ofNat 32 (Sys2Proof.ofBytes ((bs.drop (4 * i)).take 4)))), false)
  else
    let a := if c.wire = 0 then 8 else 16
    let vs := (List.range 32).map (fun i => signed a (Sys2Proof.ofBytes (bs.take (4 * a)) / 2 ^ (a * i)))
    match contribs c.eb (Sys2Proof.ofBytes (bs.drop (4 * a))) vs with
    | .error e => .error e
    | .ok (xs, f) => .ok (.ints xs, f)

/-- The member's own contribution to block b (R458). -/
def State.ownPartial (s : State) (r p : Nat) (c : CollCmd) (b : Nat) : State × Except CollBad (Partial × Bool) :=
  match s.ownBlock r p c c.inF b with
  | (t, .error e) => (t, .error e)
  | (t, .ok (bs, e)) =>
    if fmtBf c.inF then (t, .ok (.floats (bfElems bs), false))
    else match contribs c.eb e (fmtElems c.inF bs) with
      | .error x => (t, .error x)
      | .ok (xs, f) => (t, .ok (.ints xs, f))

/-- Two partials added: INT32 sums, or FP32 with RNE (R458). -/
def Partial.add : Partial → Partial → Except CollBad Partial
  | .ints a, .ints b =>
    let r := (a.zip b).map (fun p => p.1 + p.2)
    if r.any (fun v => decide (v < -(2 ^ 31)) || decide (2 ^ 31 ≤ v)) then .error .overflow else .ok (.ints r)
  | .floats a, .floats b => .ok (.floats ((a.zip b).map (fun p => add32 p.1 p.2)))
  | a, _ => .ok a

/-- The finished block: payload and scale byte in OUT (R458); none where its scale leaves E8. -/
def Partial.finish (c : CollCmd) : Partial → Option (List Byte × Nat)
  | .ints vs =>
    let q := quantBlock (fmtSigned c.outF) (fmtA c.outF) c.eb (fun _ => none) vs
    if 254 < q.2.1 then none else some (packBlock (fmtA c.outF) q.1, q.2.1)
  | .floats ws =>
    if fmtBf c.outF then some (ws.flatMap (fun w => leBytes 2 ((toBf w).toNat / 65536)), 0)
    else
      let q := quantFloats (fmtSigned c.outF) (fmtA c.outF) (fun _ => none) (ws.map fval)
      some (packBlock (fmtA c.outF) q.1, q.2.1)

/-! ### Progress of a command -/

/-- A command ends with a status (R460), the first that arises. -/
def State.ringEnds (s : State) (r st : Nat) : State :=
  let x := s.ringX r
  if x.cmd.isSome && x.status.isNone then s.setRing r { x with status := some st } else s

/-- A COLL message to NEXT (R457). -/
def State.sendBlock (s : State) (r p : Nat) (c : CollCmd) (b : Nat) (bs : List Byte) : State :=
  let x := s.ringX r
  let m : FabMsg := { typ := 6, dst := s.rd Reg.FAB_RING_PEER_NEXT 0 r, ftag := s.rd Reg.FAB_RING_PEER_FTAG 0 r,
                      len := bs.length, gen := s.partGen.get 0 p, addr := b, aux := c.cseq, payload := bs }
  let s := s.setRing r { x with unacked := x.unacked + 1 }
  match s.submit (.coll r) m (cornerDie (s.rd Reg.FAB_RING_CFG_PORT 0 r)) with
  | (t, true) => t
  | (t, false) => t.ringEnds r 5

/-- A finished block is stored at DST (R458, DESIGN CHOICE, assumption log 49). -/
def State.storeBlock (s : State) (r p : Nat) (c : CollCmd) (b : Nat) (bs : List Byte) (e : Nat) : State :=
  let a := c.dst + b * fmtLen c.outF
  let sc := Config.collScales c.dst c.count (fmtA c.outF) + b
  if s.inWindow p a true = false ∨ s.inWindow p (a + bs.length - 1) true = false ∨
    (fmtBf c.outF = false ∧ s.inWindow p sc true = false) then s.ringEnds r 6
  else if s.ringReach r a = false then (s.ringCut r a).ringEnds r 5
  else
    let t := s.tierStore a bs [] []
    let u := if fmtBf c.outF then (t.1, none) else t.1.tierStore sc (leBytes 1 e) [] []
    if t.2.isSome || u.2.isSome then u.1.ringEnds r 5 else u.1

/-- The wire form of a finished block in an all-gather: its payload and its scale byte. -/
def gatherBytes (c : CollCmd) (bs : List Byte) (e : Nat) : List Byte := bs ++ (if fmtBf c.outF then [] else leBytes 1 e)

/-- A flag set in what the record will hold. -/
def State.ringFlag (s : State) (r : Nat) (flush loss : Bool) : State :=
  let x := s.ringX r
  s.setRing r { x with flush := x.flush || flush, loss := x.loss || loss }

/-- A partial is sent on. -/
def State.sendPartial (s : State) (r p : Nat) (c : CollCmd) (b : Nat) (q : Partial) : State :=
  match q.wire c with
  | none => s.ringEnds r 2
  | some (bs, loss) => (s.ringFlag r false loss).sendBlock r p c b bs

/-- A chunk's completed block: stored, and, in an all-reduce, sent on its first pass of the all-gather. -/
def State.completeBlock (s : State) (r p : Nat) (c : CollCmd) (b : Nat) (q : Partial) : State :=
  match q.finish c with
  | none => s.ringEnds r 2
  | some (bs, e) =>
    let t := s.storeBlock r p c b bs e
    if c.op = 0 then t.sendBlock r p c b (gatherBytes c bs e) else t

/-- The receive step moves on past complete chunks, and the command ends OK once every step is done and every message answered. -/
def State.ringAdvance (s : State) (r : Nat) : Nat → State
  | 0 => s
  | fuel + 1 =>
    let x := s.ringX r
    match x.cmd with
    | none => s
    | some c =>
      let n := s.ringN r
      if x.status.isSome || c.op == 3 then s
      else if c.steps n ≤ x.step then (if x.unacked = 0 then s.ringEnds r 0 else s)
      else if (chunkBlocks c.count n (c.due n (s.ringPos' r) x.step)).all (fun b => x.got.contains b) then
        (s.setRing r { x with step := x.step + 1, got := [] }).ringAdvance r fuel
      else s

/-- What the member sends first: its contribution to the chunk of its own POS, or, in an all-gather, the chunk that it holds
complete (R457). -/
def State.firstSends (s : State) (r p : Nat) (c : CollCmd) : State :=
  let n := s.ringN r
  let i := s.ringPos' r
  let own := chunkBlocks c.count n (if c.op = 2 then (i + 1) % n else i)
  own.foldl (fun t b =>
    if (t.ringX r).status.isSome then t
    else if c.op = 2 then
      match t.ownBlock r p c c.outF b with
      | (u, .error e) => u.ringEnds r e.status
      | (u, .ok (bs, e)) => (u.storeBlock r p c b bs e).sendBlock r p c b (gatherBytes c bs e)
    else match t.ownPartial r p c b with
      | (u, .error e) => u.ringEnds r e.status
      | (u, .ok (q, f)) => (u.ringFlag r f false).sendPartial r p c b q) s

/-- The atomic of OP 3 (R459). -/
def State.sendAtomic (s : State) (r p : Nat) (c : CollCmd) : State :=
  let m : FabMsg := { typ := 3, dst := c.target / 2 ^ 43 % 512, ftag := s.rd Reg.FAB_RING_PEER_FTAG 0 r, gen := s.partGen.get 0 p,
                      addr := c.target % 2 ^ 43, aop := c.aop, len := (if c.aop = 2 then 16 else 8),
                      payload := c.operands.take (if c.aop = 2 then 16 else 8) }
  match s.submit (.atomic r) m (cornerDie (s.rd Reg.FAB_RING_CFG_PORT 0 r)) with
  | (t, true) => t
  | (t, false) => t.ringEnds r 5

/-- A command that the unit refuses with status CMD: an undefined OP, a ring of fewer than two members, or integers to BF16, for
which the spec states no conversion (R455, R456, DESIGN CHOICE, assumption log 49). -/
def CollCmd.bad (c : CollCmd) (n : Nat) : Bool := decide (3 < c.op) || decide (n < 2) || (!fmtBf c.inF && fmtBf c.outF)

/-- COLL_QUEUE_POLL (R456): an idle unit reads slot HEAD, and starts a valid command of a READY partition's ring. -/
def execCollQueuePoll (ring : Nat) (s : State) : Host.Outcome State Fault Refusal :=
  okIf (ring < 16)
    (let a := s.slotAddr ring
    match s.tagPart (s.rd Reg.FAB_RING_PEER_FTAG 0 ring) with
    | none => s
    | some p =>
      if (s.ringX ring).cmd.isSome ∨ s.on Reg.FAB_RING_CFG_VALID 0 ring = false ∨ s.inWindow p a true = false then s
      else if s.ringReach ring a = false then s.ringCut ring a
      else match s.tierFetch a 64 [] with
        | (t, some _, _) => t
        | (t, none, bs) =>
          if Sys2Proof.ofBytes (bs.take 1) ≠ 0xC1 then t
          else
            let c := CollCmd.ofBytes bs
            let t := t.setRing ring { cmd := some c, cur := some c.cseq }
            if c.bad (t.ringN ring) then t.ringEnds ring 1
            else if c.op = 3 then t.sendAtomic ring p c
            else (t.firstSends ring p c).ringAdvance ring 2048)

/-- A block of the due chunk received in the reduce-scatter: added to, and sent on or completed. -/
def State.reduceBlock (s : State) (r p : Nat) (c : CollCmd) (b : Nat) (bs : List Byte) : State :=
  match Partial.ofWire c bs with
  | .error e => s.ringEnds r e.status
  | .ok (q, f) =>
    match s.ownPartial r p c b with
    | (t, .error e) => t.ringEnds r e.status
    | (t, .ok (o, g)) =>
      let t := t.ringFlag r (f || g) false
      match q.add o with
      | .error e => t.ringEnds r e.status
      | .ok w =>
        if (t.ringX r).step + 2 = t.ringN r then t.completeBlock r p c b w else t.sendPartial r p c b w

/-- A completed block received in the all-gather: stored, and passed on but at the last step. -/
def State.gatherBlock (s : State) (r p : Nat) (c : CollCmd) (b : Nat) (bs : List Byte) : State :=
  let n := fmtLen c.outF
  let t := s.storeBlock r p c b (bs.take n) (Sys2Proof.ofBytes (bs.drop n))
  if (s.ringX r).step + 1 = c.steps (s.ringN r) then t else t.sendBlock r p c b bs

/-- A COLL message at the unit of its ring (R457): its STATUS. -/
def State.runColl (s : State) (r k p : Nat) (m : FabMsg) : State × Nat :=
  let x := s.ringX r
  match x.cur with
  | none => (s, 1)
  | some cur =>
    let d := serialDist m.aux cur
    if d = 1 then (s, 1)
    else if 1 < d ∧ d < 2 ^ 31 then (s.fabReport k 0x0C10 m.src 0, 1)
    else if d ≠ 0 then (s, 0)
    else match x.cmd with
      | none => (s, 9)
      | some c =>
        let n := s.ringN r
        if x.status.isSome || c.op == 3 then (s, 9)
        else if c.steps n ≤ x.step ∨ ¬ (chunkBlocks c.count n (c.due n (s.ringPos' r) x.step)).contains m.addr then (s, 9)
        else if x.got.contains m.addr then (s, 0)
        else
          let t := if c.gather n x.step then s.gatherBlock r p c m.addr m.payload else s.reduceBlock r p c m.addr m.payload
          let y := t.ringX r
          ((t.setRing r { y with got := y.got ++ [m.addr] }).ringAdvance r 2048, 0)

/-- COLL (R440, R442, R457). -/
def execColl (k : Nat) (m : FabMsg) (crc : Bool) (s : State) : Host.Outcome State Fault Refusal :=
  okIf (k < 4)
    (let m := { m with typ := 6 }
    match s.receive k m crc with
    | (t, .drop) => t
    | (t, .answer st) => t.answer k m 0x18 st
    | (t, .go p) =>
      t.onceOnly k m 0x18 (fun s =>
        match (List.range 16).find? (fun r => s.on Reg.FAB_RING_CFG_VALID 0 r && s.rd Reg.FAB_RING_PEER_FTAG 0 r == m.ftag &&
          s.rd Reg.FAB_RING_PEER_PREV 0 r == m.src) with
        | none => some (s, 2, 0, [])
        | some r =>
          let q := s.runColl r k p m
          some (q.1, q.2, 0, [])))

/-- The status with which a response's STATUS ends a collective command (R437, R460). -/
def collStatus (status : Nat) : Nat :=
  match status with
  | 0 => 0
  | 2 => 7
  | 3 => 7
  | 4 => 6
  | 9 => 4
  | _ => 5

/-- A message of the command that runs, or its atomic, is answered or lost (R437, R441, R459). -/
def State.collEnds (s : State) (x : Txn) (status : Nat) (payload : List Byte) (lost : Bool) : State :=
  let st := if lost then 5 else collStatus status
  match x.owner with
  | .coll r =>
    let y := s.ringX r
    if !y.cmd.any (fun c => c.op != 3 && c.cseq == x.msg.aux) then s
    else
      let t := s.setRing r { y with unacked := y.unacked - 1 }
      if st = 0 then t.ringAdvance r 2048 else t.ringEnds r st
  | .atomic r =>
    if !(s.ringX r).cmd.any (fun c => c.op == 3) then s
    else (s.setRing r { s.ringX r with result := Sys2Proof.ofBytes (payload.take 8) }).ringEnds r st
  | _ => s

/-- The FAB code of a status other than OK (R460, R464). -/
def collCode (st : Nat) : Nat := 0x0C0F + st

/-- COLL_COMPLETE (R456, R460): the completion record is written to NOTIFY with RTAG produce, where the slot's tag lets it; the slot
is cleared and HEAD advances. A NOTIFY that is no bench window of the partition takes no record. -/
def execCollComplete (ring : Nat) (s : State) : Host.Outcome State Fault Refusal :=
  okIf (ring < 16)
    (let x := s.ringX ring
    match x.cmd, x.status with
    | some c, some st =>
      let rec_ := leBytes 4 c.cseq ++ leBytes 1 st ++ leBytes 1 ((if x.flush then 1 else 0) + (if x.loss then 2 else 0)) ++ leBytes 2 0 ++
        leBytes 8 x.result ++ leBytes 16 0
      let p := s.tagPart (s.rd Reg.FAB_RING_PEER_FTAG 0 ring)
      let spot := match placeOf c.notify, p with
        | .spad gb off, some p => if s.partOf gb = p ∧ off + 32 ≤ 0x60000 then some (gb, off) else none
        | _, _ => none
      let write := match spot with
        | none => some s
        | some (gb, off) =>
          if s.ringReach ring c.notify = false then some (s.ringCut ring c.notify)
          else if s.benchBlocks gb off 32 1 then none else some (s.remoteWrite gb [] off rec_ 1)
      match write with
      | none => s
      | some t =>
        let t := if t.ringReach ring (t.slotAddr ring) then (t.tierStore (t.slotAddr ring) (leBytes 64 0) [] []).1
          else t.ringCut ring (t.slotAddr ring)
        let t := t.wr Reg.FAB_RING_CFG_HEAD 0 ((t.rd Reg.FAB_RING_CFG_HEAD 0 ring + 1) % 64) ring
        let t := t.setRing ring { cur := x.cur }
        if st = 0 then t else t.fabReport (t.rd Reg.FAB_RING_CFG_PORT 0 ring) (collCode st) (t.rd Reg.FAB_RING_PEER_NEXT 0 ring) 0
    | _, _ => s)

end Sys2Proof.Machine
end

