-- ==== Sys2Proof/Machine/FabricRows.lean ====
section
/-! DEFINITION. The commands of the fabric transport but COLL and CAP: messages received and their answers (R436 to R445), timeouts
(R437, R441), management messages (R450), spanning barriers (R454) and global time (R452, R453, R462). -/

namespace Sys2Proof.Machine

open Sys2Proof

/-- A VC0 message for this device is taken from the management inbox (R425). -/
def State.takeInbox (s : State) : State := { s with inbox := s.inbox - 1 }

/-! ### Requests received -/

/-- GET (R439, R440): answered with the bytes, or with the STATUS of its failure. -/
def execGet (k : Nat) (m : FabMsg) (crc : Bool) (ecc : List (Nat × Ecc)) (s : State) : Host.Outcome State Fault Refusal :=
  okIf (k < 4)
    (let m := { m with typ := 1 }
    match s.receive k m crc with
    | (t, .drop) => t
    | (t, .answer st) => t.answer k m 0x19 st
    | (t, .go p) =>
      match t.runGet k p m ecc with
      | none => s
      | some (u, status, aux, bs) => u.answer k m 0x19 status aux bs)

/-- PUT (R440 to R442); `burst` names the blocks whose write CRC fails once or twice (R400). -/
def execPut (k : Nat) (m : FabMsg) (crc : Bool) (ecc : List (Nat × Ecc)) (burst : List (Nat × Bool)) (s : State) :
    Host.Outcome State Fault Refusal :=
  okIf (k < 4)
    (let m := { m with typ := 2 }
    match s.receive k m crc with
    | (t, .drop) => t
    | (t, .answer st) => t.answer k m 0x18 st
    | (t, .go p) => t.onceOnly k m 0x18 (fun u => u.runPut k p m ecc burst))

/-- ATOMIC (R440 to R442, R459). -/
def execAtomic (k : Nat) (m : FabMsg) (crc : Bool) (ecc : List (Nat × Ecc)) (s : State) : Host.Outcome State Fault Refusal :=
  okIf (k < 4)
    (let m := { m with typ := 3 }
    match s.receive k m crc with
    | (t, .drop) => t
    | (t, .answer st) => t.answer k m 0x19 st
    | (t, .go p) => t.onceOnly k m 0x19 (fun u => u.runAtomic k p m ecc))

/-- HDL_DATA (R338, R442). -/
def execHdlData (k : Nat) (m : FabMsg) (crc : Bool) (s : State) : Host.Outcome State Fault Refusal :=
  okIf (k < 4)
    (let m := { m with typ := 4 }
    match s.receive k m crc with
    | (t, .drop) => t
    | (t, .answer st) => t.answer k m 0x18 st
    | (t, .go p) => t.inOrder k m (fun u => u.runHdlData p m))

/-- HDL (R338, R442). -/
def execHdl (k : Nat) (m : FabMsg) (crc : Bool) (ecc : List (Nat × Ecc)) (s : State) : Host.Outcome State Fault Refusal :=
  okIf (k < 4)
    (let m := { m with typ := 5 }
    match s.receive k m crc with
    | (t, .drop) => t
    | (t, .answer st) => t.answer k m 0x18 st
    | (t, .go p) => t.inOrder k m (fun u => u.runHdl k p m ecc))

/-- A VC0 request with a partition's tag: its tests, its effect and its acknowledgement (R436, R440, R450). -/
def State.vc0Request (s : State) (k : Nat) (m : FabMsg) (crc : Bool) (run : Nat → State → State) : State :=
  match s.takeInbox.receive k m crc with
  | (t, .drop) => t
  | (t, .answer st) => t.answer k m 0x1A st
  | (t, .go p) => (run p t).answer k m 0x1A 0

/-- BAR_ARRIVE (R454): the group's number stands in ADDR (DESIGN CHOICE, assumption log 51). -/
def execBarArrive (k : Nat) (m : FabMsg) (crc : Bool) (s : State) : Host.Outcome State Fault Refusal :=
  okIf (k < 4) (let m := { m with typ := 8 }; s.vc0Request k m crc (fun _ t => t.countDevice k m))

/-- BAR_RELEASE (R454). -/
def execBarRelease (k : Nat) (m : FabMsg) (crc : Bool) (s : State) : Host.Outcome State Fault Refusal :=
  okIf (k < 4) (let m := { m with typ := 9 }; s.vc0Request k m crc (fun _ t => t.acceptRelease m))

/-- The benches of a partition. -/
def State.benchesOf (s : State) (p : Nat) : List Nat := (List.range 2560).filter (fun gb => s.partOf gb == p)

/-- STOP (R450): every bench of the partition receives HALT, and the servitor is told the cause. -/
def execStop (k : Nat) (m : FabMsg) (crc : Bool) (s : State) : Host.Outcome State Fault Refusal :=
  okIf (k < 4)
    (let m := { m with typ := 0x0A }
    s.vc0Request k m crc (fun p t =>
      ((t.benchesOf p).foldl (fun u gb => u.haltBench gb) t).emit (.servitor 0x0A m.src (ofBytes (m.payload.take 4)))))

/-- The tests of R440 for a NOTICE or a CAP, which skip the tag test and with it the generation test (R450). -/
def State.receiveUntagged (s : State) (k : Nat) (m : FabMsg) (crc : Bool) : State × Verdict :=
  if m.dst ≠ s.devId ∨ crc = false then (s, .drop)
  else
    let s := s.freeRtid m
    if s.tooOld m then (s.bump Reg.FAB_REJECT_CNT_AGE k, .answer 3) else (s, .go 255)

/-- A VC0 request without a partition. -/
def State.vc0Untagged (s : State) (k : Nat) (m : FabMsg) (crc : Bool) (run : State → State) : State :=
  match s.takeInbox.receiveUntagged k m crc with
  | (t, .drop) => t
  | (t, .answer st) => t.answer k m 0x1A st
  | (t, .go _) => (run t).answer k m 0x1A 0

/-- The function rings of every partition with a fabric tag, and the physical function's (R528). -/
def State.tagRings (s : State) (ftag : Nat) : List Nat :=
  let ps := (List.range 16).filter (fun p => s.on Reg.PART_CFG_VALID 0 p && s.rd Reg.PART_CFG_FAB_TAG 0 p == ftag && ftag != 0)
  (0 :: ps.map (fun p => s.rd Reg.PART_CFG_HOST_FN 0 p)).eraseDups

/-- NOTICE (R450, R528, R537). -/
def execNotice (k : Nat) (m : FabMsg) (crc : Bool) (s : State) : Host.Outcome State Fault Refusal :=
  okIf (k < 4)
    (let m := { m with typ := 0x0B }
    let v := ofBytes (m.payload.take 4)
    s.vc0Untagged k m crc (fun t =>
      let t := t.emit (.servitor 0x0B m.src v)
      t.record (mkRec 0x1108 0 255 0xFFFF 31 (m.src % 512 + bits v 7 0 * 2 ^ 16 + bits v 23 8 * 2 ^ 32) 0) (t.tagRings m.ftag)))

/-! ### Responses -/

/-- The response types that answer a request of a type (R436). -/
def answers (req rsp : Nat) : Bool :=
  match vcOf req with
  | 0 => rsp == 0x1A
  | _ => if req = 1 ∨ req = 3 then rsp == 0x19 else rsp == 0x18

/-- The owner of a transaction learns its end, a collective's through its own unit. -/
def State.settle (s : State) (x : Txn) (status aux : Nat) (payload : List Byte) (lost : Bool) : State :=
  match x.owner with
  | .coll _ => s.collEnds x status payload lost
  | .atomic _ => s.collEnds x status payload lost
  | _ => s.ownerEnds x status aux payload lost

/-- The waiting requests start where a TID of their port die is free, in order; one that has no route any more fails (R438, R449). -/
def State.pumpWait (s : State) : List (TxnOwner × FabMsg × Nat) → State
  | [] => s
  | (o, m, d) :: rest =>
    match s.request o m d with
    | (_, .noTid) => ({ s with fabWait := s.fabWait ++ [(o, m, d)] } : State).pumpWait rest
    | (t, .sent _) => t.pumpWait rest
    | (t, .unreach) => (t.settle { msg := m, owner := o } 7 0 [] false).pumpWait rest

/-- The requests that wait for a TID, or for the location, try again (R47, R438). -/
def State.pump (s : State) : State := ({ s with fabWait := [] } : State).pumpWait s.fabWait

/-- A transaction ends, and its TID goes to a request that waits (R438). -/
def State.closeTxn (s : State) (x : Txn) : State := (s.endTxn x).pump

/-- A response to this device (R437, R441): BUSY and AHEAD leave the transaction, and any other STATUS ends it; a response without
its transaction is discarded. -/
def State.response1 (s : State) (m : FabMsg) (crc : Bool) : State :=
  if m.dst ≠ s.devId ∨ crc = false then s
  else match s.txn m.tid with
    | none => s
    | some x =>
      if x.msg.dst ≠ m.src ∨ answers x.msg.typ m.typ = false then s
      else if m.status = 1 then s.modTxn m.tid (fun y => { y with busy := true })
      else if m.status = 8 then s.resendFlow x (m.aux % 65536)
      else
        let s := if x.retried then s.bump Reg.FAB_XACT_CNT_TRANSIENT (m.tid / 2048) else s
        ((s.noteRtid x).closeTxn x).settle x m.status m.aux m.payload false

/-- RSP (R441). -/
def execRsp (k : Nat) (m : FabMsg) (crc : Bool) (s : State) : Host.Outcome State Fault Refusal :=
  okIf (k < 4) (s.response1 { m with typ := 0x18 } crc)

/-- RSP_DATA (R441). -/
def execRspData (k : Nat) (m : FabMsg) (crc : Bool) (s : State) : Host.Outcome State Fault Refusal :=
  okIf (k < 4) (s.response1 { m with typ := 0x19 } crc)

/-- MGMT_ACK (R450, R451). -/
def execMgmtAck (k : Nat) (m : FabMsg) (crc : Bool) (s : State) : Host.Outcome State Fault Refusal :=
  okIf (k < 4) (s.takeInbox.response1 { m with typ := 0x1A } crc)

/-- A transaction's request sent again; without a route it ends UNREACH (R437, R449). -/
def State.again (s : State) (x : Txn) : State :=
  match s.resendTxn x with
  | (t, true) => t
  | (t, false) => (t.closeTxn x).settle x 7 0 [] false

/-- FAB_TIMEOUT (R441): the first sends the request once more, with RETX; the second is lasting. -/
def execFabTimeout (tid : Nat) (s : State) : Host.Outcome State Fault Refusal :=
  okIf (tid < 8192)
    (match s.txn tid with
    | none => s
    | some x =>
      let k := tid / 2048
      if x.retried = false then
        let y := { x with retried := true, busy := false, msg := { x.msg with retx := true } }
        (s.modTxn tid (fun _ => y)).again y
      else
        let s := ((s.flag Reg.FAB_STATUS_LASTING k true).bump Reg.FAB_XACT_CNT_LASTING k).fabReport k 0x0C01 x.msg.dst tid
        (s.closeTxn x).settle x 0 0 [] true)

/-- BUSY_RESEND (R437): 2 µs after a BUSY response. -/
def execBusyResend (tid : Nat) (s : State) : Host.Outcome State Fault Refusal :=
  okIf (tid < 8192)
    (match s.txn tid with
    | none => s
    | some x =>
      if x.busy then
        let y := { x with busy := false }
        (s.modTxn tid (fun _ => y)).again y
      else s)

/-- CACHE_ENTRY_EXPIRY (R442): an entry of the home `k`, 2^30 + 2^20 ns after execution. -/
def execCacheEntryExpiry (k src tid : Nat) (s : State) : Host.Outcome State Fault Refusal :=
  okIf (k < 4)
    { s with cache := s.cache.put [] k ((s.cache.get [] k).filter (fun e =>
        e.src != src || e.tid != tid || decide (s.lifeNs < e.time + 2 ^ 30 + 2 ^ 20))) }

/-! ### Transit -/

/-- MESSAGE_TRANSIT (R445): a message from direction `dir` that is addressed to another device goes on; without a route it is
dropped, for a transit device answers nothing. -/
def execMessageTransit (k dir : Nat) (m : FabMsg) (s : State) : Host.Outcome State Fault Refusal :=
  okIf (k < 4 && dir < 6)
    (if m.dst % 512 = s.devId then s else (s.sendMsg m (cornerDie k) (some dir)).1)

/-- The message types of R436. -/
def fabTypes : List Nat := [1, 2, 3, 4, 5, 6, 8, 9, 0x0A, 0x0B, 0x0C, 0x10, 0x11, 0x12, 0x13, 0x18, 0x19, 0x1A]

/-- UNKNOWN_MESSAGE_TYPE (R436). -/
def execUnknownMessageType (k : Nat) (m : FabMsg) (crc : Bool) (s : State) : Host.Outcome State Fault Refusal :=
  okIf (k < 4)
    (if fabTypes.contains m.typ ∨ m.dst ≠ s.devId ∨ crc = false then s else s.bump Reg.FAB_REJECT_CNT_TYPE k)

/-! ### Global time -/

/-- The neighbour of a device in a direction (R411, R444). -/
def neighbour (n dir : Nat) : Nat :=
  let p := 8 ^ (2 - dir / 2)
  let c := n / p % 8
  n - c * p + (if dir % 2 = 0 then (c + 1) % 8 else (c + 7) % 8) * p

/-- The parent of a device: the neighbour in the first direction towards the master (R452). -/
def parentOf (n master : Nat) : Option Nat := (dirTo n master).map (neighbour n)

/-- A time message with its timestamp (R436). -/
def State.sendTime (s : State) (typ dst t : Nat) : State :=
  (s.sendMsg { typ := typ, src := s.devId, dst := dst, len := 8, stamp := s.fabTime / 1024 % 2 ^ 32, payload := leBytes 8 t } 0).1

/-- FAB_TIME with `sub` ns passed since its last update. -/
def State.clock (s : State) (sub : Nat) : Nat := (s.fabTime + sub) % 2 ^ 64

/-- FAB_TIME replaced. -/
def State.setTime (s : State) (t : Nat) : State :=
  (s.wr Reg.FAB_TIME_LO_TIME_LO 0 t).wr Reg.FAB_TIME_HI_TIME_HI 0 (t / 2 ^ 32)

/-- SYNC_PERIOD (R452): a new period. As a child of the tree to `master` the device opens its exchange, the one before being missing
where it is not complete; to each of its own children it sends SYNC and FOLLOW_UP with its clock, `sub` ns after the last update. -/
def execSyncPeriod (master sub : Nat) (s : State) : Host.Outcome State Fault Refusal :=
  okIf (master < 512)
    (let own := s.devId
    let x := s.timeX
    let s : State := match s.on Reg.FAB_TIME_CFG_MASTER 0, parentOf own master with
      | false, some n =>
        { s with timeX := { x with parent := n, t1 := none, t2 := none, t3 := none, complete := false,
                                   missed := x.missed + (if x.complete then 0 else 1) } }
      | _, _ => s
    ((List.range 6).map (neighbour own)).foldl (fun t n =>
      if parentOf n master = some own then (t.sendTime 0x10 n (t.clock sub)).sendTime 0x11 n (t.clock sub) else t) s)

/-- A time message for this device, from its parent, in an exchange as a child (R452). -/
def State.fromParent (s : State) (m : FabMsg) (crc : Bool) : Bool :=
  crc && m.dst == s.devId && !s.on Reg.FAB_TIME_CFG_MASTER 0 && m.src == s.timeX.parent && !s.timeX.complete

/-- SYNC (R452): t2 is the clock at its arrival. -/
def execSync (k : Nat) (m : FabMsg) (crc : Bool) (sub : Nat) (s : State) : Host.Outcome State Fault Refusal :=
  okIf (k < 4)
    (let t := s.takeInbox
    if s.fromParent m crc then { t with timeX := { t.timeX with t2 := some (s.clock sub), t1 := none, t3 := none } } else t)

/-- FOLLOW_UP (R452): it carries t1; the child sends DELAY_REQ at t3. -/
def execFollowUp (k : Nat) (m : FabMsg) (crc : Bool) (sub : Nat) (s : State) : Host.Outcome State Fault Refusal :=
  okIf (k < 4)
    (let t := s.takeInbox
    if s.fromParent m crc && s.timeX.t2.isSome then
      ({ t with timeX := { t.timeX with t1 := some (ofBytes (m.payload.take 8)), t3 := some (s.clock sub) } } : State).sendTime
        0x12 m.src (s.clock sub)
    else t)

/-- DELAY_REQ (R452): the parent answers with t4, its clock at the arrival. -/
def execDelayReq (k : Nat) (m : FabMsg) (crc : Bool) (sub : Nat) (s : State) : Host.Outcome State Fault Refusal :=
  okIf (k < 4)
    (let t := s.takeInbox
    if m.dst ≠ s.devId ∨ crc = false then t else t.sendTime 0x13 m.src (s.clock sub))

/-- offset = ((t2 − t1) − (t4 − t3)) ÷ 2 (R452). -/
def timeOffset (t1 t2 t3 t4 : Nat) : Int := (((t2 : Int) - t1) - ((t4 : Int) - t3)).fdiv 2

/-- The correction of the clock by an offset (R453). -/
def State.correct (s : State) (off : Int) : State :=
  let s := s.wr Reg.FAB_TIME_CFG_OFFSET 0 (pattern 16 (clampTo (-32768) 32767 off).1)
  if -1000 ≤ off ∧ off ≤ 1000 then
    ({ s with timeX := { s.timeX with slew := off } } : State).flag Reg.FAB_TIME_CFG_VALID 0 true
  else
    let s : State := { s with timeX := { s.timeX with slew := 0 } }
    (s.setTime (((s.fabTime : Int) - off) % 2 ^ 64).toNat).fabReport 0 0x0C05 s.timeX.parent 0

/-- DELAY_RESP (R452, R453): the exchange is complete; one that a replay or a retrain of a cane disturbed is discarded. -/
def execDelayResp (k : Nat) (m : FabMsg) (crc disturbed : Bool) (s : State) : Host.Outcome State Fault Refusal :=
  okIf (k < 4)
    (let t := s.takeInbox
    let done : TimeX := { t.timeX with t1 := none, t2 := none, t3 := none }
    if s.fromParent m crc then
      match t.timeX.t1, t.timeX.t2, t.timeX.t3 with
      | some t1, some t2, some t3 =>
        if disturbed then { t with timeX := done }
        else ({ t with timeX := { done with complete := true, missed := 0 } } : State).correct
          (timeOffset t1 t2 t3 (ofBytes (m.payload.take 8)))
      | _, _, _ => t
    else t)

/-- FAB_TIME_LOST (R453). -/
def execFabTimeLost (s : State) : Host.Outcome State Fault Refusal :=
  okIf true
    (if s.on Reg.FAB_TIME_CFG_MASTER 0 = false ∧ s.on Reg.FAB_TIME_CFG_VALID 0 = true ∧ 16 ≤ s.timeX.missed then
      (s.flag Reg.FAB_TIME_CFG_VALID 0 false).fabReport 0 0x0C06 s.timeX.parent 0
    else s)

/-- FAB_TIME_HI_WRITE (R453, R462): on the master a commit of the held low half and this half; the servitor, the gaffer and the
physical function reach the register. -/
def execFabTimeHiWrite (agent value : Nat) (s : State) : Host.Outcome State Fault Refusal :=
  okIf true
    (if agent ≤ 2 ∧ s.on Reg.FAB_TIME_CFG_MASTER 0 = true then
      (s.setTime (value % 2 ^ 32 * 2 ^ 32 + s.heldLo.get 0 (Reg.FAB_TIME_LO_TIME_LO.key 0 0))).flag Reg.FAB_TIME_CFG_VALID 0 true
    else s)

end Sys2Proof.Machine
end

