-- ==== Sys2Proof/Machine/Image.lean ====
section
/-! DEFINITION. Batch images: the header, the records and their framing (R374 to R378), and the checks of a load (R380, R381, R386,
R389). A check is a fault code with the byte offset at which it looked. -/

namespace Sys2Proof.Machine

open Sys2Proof

/-! ### Framing -/

/-- A little-endian field of n bytes at offset o of an image. -/
def imgField (img : List Byte) (o n : Nat) : Nat := ofBytes ((img.drop o).take n)

/-- The offset of the trailer (R376). -/
def trailerAt (img : List Byte) : Nat := img.length - 104

/-- The records between `off` and `lim`, TYPE, PART, offset and value bytes, none where one leaves the space (R375). -/
def framing (img : List Byte) (lim : Nat) : Nat → Nat → Option (List (Nat × Nat × Nat × List Byte))
  | off, 0 => if off = lim then some [] else none
  | off, n + 1 =>
    let vlen := imgField img (off + 4) 4
    let next := off + 8 + ceilDiv vlen 8 * 8
    if lim < off + 8 ∨ lim < next then none
    else (framing img lim next n).map (fun r =>
      (imgField img off 2, imgField img (off + 2) 1, off, (img.drop (off + 8)).take vlen) :: r)

/-- The records of an image. -/
def recordsOf (img : List Byte) : Option (List (Nat × Nat × Nat × List Byte)) := framing img (trailerAt img) 64 (imgField img 12 4)

/-- The first check of a list that fails: its code and offset. -/
def firstBad : List (Bool × Nat × Nat) → Option (Nat × Nat)
  | [] => none
  | (bad, code, off) :: r => if bad then some (code, off) else firstBad r

/-- The first of a list of failures. -/
def firstOf : List (Option (Nat × Nat)) → Option (Nat × Nat)
  | [] => none
  | some e :: _ => some e
  | none :: r => firstOf r

/-- CRC-32C of an image against its trailer (R376). -/
def imgCrcOk (img : List Byte) : Bool := crc32c (img.take (trailerAt img)) == imgField img (trailerAt img) 4

/-- The SHA-384 digest that the signature is taken over, and the signature, big-endian (R376). -/
def imgDigestOf (img : List Byte) : Nat := Config.sha384 (img.take (trailerAt img + 8))
def bigEndian (bs : List Byte) : Nat := bs.foldl (fun n b => 256 * n + b.toNat) 0
def imgSignature (img : List Byte) : Nat := bigEndian ((img.drop (trailerAt img + 8)).take 96)

/-- The public key that a slot holds (R502). -/
def State.keyOf (s : State) (slot : Nat) : Option Nat := if s.keys.get 0 slot = 0 then none else some (s.keys.get 0 slot - 1)

/-- The unit's serial number as the image headers name it (R46). -/
def serialNow : Nat := Config.serialBcd % 2 ^ 40

/-- The checks of VERIFY, in the order of R380; a KIND that is not the operation's is an error of the header. -/
def State.verifyImage (s : State) (op part : Nat) (img : List Byte) : Option (Nat × Nat) :=
  let len := imgField img 8 4
  let slot := imgField img 19 1
  let t := trailerAt img
  firstBad
    [ (decide (img.length < 168), 0x0D01, 0),
      (imgField img 0 4 != 0xB47C1A9E, 0x0D01, 0),
      (imgField img 4 2 != 1, 0x0D01, 4),
      (imgField img 6 1 != op, 0x0D01, 6),
      (imgField img 6 1 == 0 && imgField img 7 1 != 0, 0x0D01, 7),
      (len != s.rd Reg.BATCH_LEN_LEN 0 || len % 8 != 0 || decide (2 ^ 27 < len), 0x0D01, 8),
      (((img.drop 32).take 32).any (fun b => b != 0#8), 0x0D01, 32),
      ((recordsOf img).isNone, 0x0D01, 64),
      (imgField img (t + 4) 4 != 0, 0x0D01, t + 4),
      (!imgCrcOk img, 0x0D02, t),
      (decide (7 < slot) || (s.keyOf slot).isNone || slot != (if op = 0 then 0 else s.rd Reg.PART_CFG_KEY_SLOT 0 part), 0x0D04, 19),
      (!Config.signatureOk ((s.keyOf slot).getD 0) (imgDigestOf img) (imgSignature img), 0x0D03, t + 8),
      (decide (imgField img 20 4 < s.keyMin.get 0 slot), 0x0D05, 20),
      (imgField img 16 2 != s.rd Reg.DEV_ID_PART_CODE 0, 0x0D06, 16),
      (imgField img 18 1 != 0xFF && imgField img 18 1 != s.rd Reg.DEV_ID_STEP_LETTER 0 * 16 + s.rd Reg.DEV_ID_STEP_DIGIT 0,
        0x0D06, 18),
      (imgField img 24 8 != 0 && imgField img 24 8 != serialNow, 0x0D06, 24) ]

/-! ### Records -/

/-- The values given for the records, in order, read into the image's records. -/
def withValues : List (Nat × Nat × Nat × List Byte) → List ImgVal → List ImgRec
  | [], _ => []
  | (t, p, o, b) :: r, vs => ⟨t, p, o, b, vs.headD .tool⟩ :: withValues r (vs.drop 1)

/-- The record type whose value a value is; tool records have any type from 0x8000 on (R377). -/
def valType : ImgVal → Nat
  | .partTable _ => 1
  | .benchMap => 2
  | .windows _ => 3
  | .dieShare _ => 4
  | .pkgExclude _ => 5
  | .power .. => 6
  | .partParams .. => 0x10
  | .benchCfg => 0x11
  | .routes _ _ => 0x12
  | .walk .. => 0x13
  | .barrier _ _ => 0x14
  | .bcast _ => 0x15
  | .program .. => 0x16
  | .tool => 0x8000

/-- A record type's scope: 0 whole, 1 whole with a partition named in PART, 2 partition, 3 a tool record, none unknown (R377). -/
def recScope (typ : Nat) : Option Nat :=
  if 0x8000 ≤ typ then some 3
  else if typ = 1 ∨ typ = 2 ∨ typ = 4 ∨ typ = 5 then some 0
  else if typ = 3 ∨ typ = 6 then some 1
  else if 0x10 ≤ typ ∧ typ ≤ 0x16 then some 2
  else none

/-- The records of a type of an image, of partition `p` where it names one. -/
def Image.ofType (i : Image) (typ : Nat) (p : Option Nat) : List ImgRec :=
  i.recs.filter (fun r => r.typ == typ && (match p with
    | some p => r.part == p
    | none => true))

/-- The table that PART_TABLE gives, and the entry of a partition: an image of one partition keeps the whole image's. -/
def Image.table (i : Image) : List PartEnt :=
  i.recs.foldl (fun t r => match r.val with
    | .partTable es => es
    | _ => t) []
def State.partEnt (s : State) (i : Image) (p : Nat) : PartEnt :=
  if i.kind = 0 then i.table.getD p {}
  else { valid := s.on Reg.PART_CFG_VALID 0 p, hostFn := s.rd Reg.PART_CFG_HOST_FN 0 p, keySlot := s.rd Reg.PART_CFG_KEY_SLOT 0 p,
         fabTag := s.rd Reg.PART_CFG_FAB_TAG 0 p, barFirst := s.rd Reg.PART_GROUPS_BAR_FIRST 0 p,
         barCount := s.rd Reg.PART_GROUPS_BAR_COUNT 0 p, bcFirst := s.rd Reg.PART_GROUPS_BC_FIRST 0 p,
         bcCount := s.rd Reg.PART_GROUPS_BC_COUNT 0 p }

/-- The partition of a bench under an image, 255 for none (R377: BENCH_MAP). -/
def State.mapOf (s : State) (i : Image) (gb : Nat) : Nat :=
  if i.kind = 0 then ((i.ofType 2 none).getLast?.map (fun r => (r.body.getD gb 255#8).toNat)).getD 255 else s.partOf gb

/-- The benches of a partition under an image, ascending. -/
def State.imgBenches (s : State) (i : Image) (p : Nat) : List Nat := (List.range 2560).filter (fun gb => s.mapOf i gb == p)

/-- The partitions that an image configures. -/
def State.imgParts (_s : State) (i : Image) : List Nat :=
  if i.kind = 0 then (List.range 16).filter (fun p => (i.table.getD p {}).valid) else [i.part]

/-- A BENCH_CFG entry (R378). -/
structure BenchEnt where
  logical : Nat
  quota : Nat := 0
  cap : Nat := 0
  potEn : Nat := 0
  role : Nat := 0
  idle : Bool := true
  deriving DecidableEq, Repr

/-- The entry that 16 bytes spell. -/
def BenchEnt.ofBytes (bs : List Byte) : BenchEnt :=
  { logical := imgField bs 0 2, quota := imgField bs 2 2 % 4096, cap := imgField bs 4 2 % 4096, potEn := imgField bs 6 2,
    role := imgField bs 8 4, idle := bit (imgField bs 12 1) 0 }

/-- The role that an entry gives a pot. -/
def BenchEnt.roleOf (e : BenchEnt) (p : Nat) : Nat := e.role / 4 ^ p % 4

/-- The entries of a partition's benches, in ascending order of the benches. -/
def State.benchEnts (s : State) (i : Image) (p : Nat) : List (Nat × BenchEnt) :=
  match (i.ofType 0x11 (some p)).getLast? with
  | none => []
  | some r => (s.imgBenches i p).mapIdx (fun k gb => (gb, BenchEnt.ofBytes ((r.body.drop (16 * k)).take 16)))

/-- The length that a record's value must have, where R377 and R378 give it. -/
def State.recLenOk (s : State) (i : Image) (r : ImgRec) : Bool :=
  match r.typ with
  | 1 => r.body.length == 128
  | 2 => r.body.length == 2560
  | 0x11 => r.body.length == 16 * (s.imgBenches i r.part).length
  | _ => true

/-- How often a record type must occur for a partition under R377: at least and at most. -/
def recOccurs (typ : Nat) : Nat × Option Nat :=
  match typ with
  | 1 => (1, some 1)
  | 2 => (1, some 1)
  | 0x10 => (1, some 1)
  | 0x11 => (1, some 1)
  | 0x13 => (0, none)
  | 0x16 => (0, none)
  | _ => (0, some 1)

/-- The dies on which a partition has benches under an image. -/
def State.imgDies (s : State) (i : Image) (p : Nat) : List Nat :=
  (List.range 16).filter (fun d => (s.imgBenches i p).any (fun gb => gb / 160 == d))

/-- DIE_SHARE of a partition on a die under an image: the entry, or the default where the partition alone has benches there
(R379). -/
def State.shareOf (s : State) (i : Image) (die p : Nat) : Option ShareEnt :=
  let given := (i.recs.flatMap (fun r => match r.val with
    | .dieShare es => es
    | _ => [])).filter (fun e => e.die == die && e.part == p)
  match given.getLast? with
  | some e => some e
  | none =>
    if !(s.imgDies i p).contains die || (s.imgParts i).any (fun q => q != p && (s.imgDies i q).contains die) then none
    else some ⟨die, p, 64, 2048, 0⟩

/-- The check of the records (R377, R380), in the order of the row. -/
def State.checkRecords (s : State) (op part : Nat) (img : List Byte) (i : Image) : Option (Nat × Nat) :=
  let parts := s.imgParts i
  let counts := fun (typ : Nat) (p : Option Nat) =>
    let n := (i.ofType typ p).length
    let o := recOccurs typ
    let last := ((i.ofType typ p).getLast?.map ImgRec.off).getD 64
    (decide (n < o.1) || (match o.2 with
      | some m => decide (m < n)
      | none => false), 0x0D07, last)
  let wholeRows := if op = 0 then [1, 2, 4, 5].map (fun t => counts t none) ++
    (List.range 16).flatMap (fun p => [3, 6].map (fun t => counts t (some p))) else []
  let partRows := parts.flatMap (fun p => [0x10, 0x11, 0x12, 0x13, 0x14, 0x15, 0x16].map (fun t => counts t (some p)))
  firstBad
    (i.recs.map (fun r => ((recScope r.typ).isNone, 0x0D07, r.off)) ++
    i.recs.map (fun r => (match recScope r.typ with
      | some 0 => decide (op ≠ 0) || r.part != 0xFF
      | some 1 => decide (op ≠ 0) || decide (15 < r.part)
      | some 2 => if op = 0 then !parts.contains r.part else r.part != part
      | _ => false, 0x0D07, r.off)) ++
    wholeRows ++ partRows ++
    i.recs.map (fun r => (decide (r.typ < 0x8000) && valType r.val != r.typ, 0x0D07, r.off)) ++
    i.recs.map (fun r => (!s.recLenOk i r, 0x0D07, r.off)) ++
    [ (op == 1 && imgField img 7 1 != part, 0x0D07, 7),
      (op == 1 && !s.on Reg.PART_CFG_VALID 0 part, 0x0D07, 7),
      (op == 0 && parts.any (fun p => (s.imgDies i p).any (fun d => (s.shareOf i d p).isNone)), 0x0D07, 64) ])

/-- Resources that a bench's record of the whole image leaves a partition on a die: SHARE, QUOTA_SUM and POOL. -/
def State.partShare (s : State) (i : Image) (die p : Nat) : ShareEnt :=
  if i.kind = 0 then (s.shareOf i die p).getD ⟨die, p, 0, 0, 0⟩
  else ⟨die, p, s.rd Reg.DMA_REG_CFG_SHARE die p, s.quotaSum.get 0 (16 * die + p), s.rd Reg.DMA_REG_CFG_POOL die p⟩

/-- Two ranges of numbers share none. -/
def apart (a n b m : Nat) : Bool := decide (n = 0) || decide (m = 0) || decide (a + n ≤ b) || decide (b + m ≤ a)

/-- The producer's entry that a route ends at, in its own device (R337). -/
def Image.prodFor (i : Image) (dev : Nat) (r : RouteEnt) : Option ProdEnt :=
  (i.recs.flatMap (fun q => match q.val with
    | .routes _ rings => (rings.filter (fun g => g.bench == r.dest)).flatMap RingEnt.prods
    | _ => [])).find? (fun e => e.device == dev && e.bench == r.bench)

/-- The resource rules of one record (R337, R364, R377, R380, R386). -/
def State.recResource (s : State) (i : Image) (r : ImgRec) : Bool :=
  let t := s.partEnt i r.part
  match r.val with
  | .partParams _ rd wr rem _ => decide (rd + wr + rem ≠ 16) && decide (rd + wr + rem ≠ 0)
  | .walk _ dir _ => dir.any (fun e => decide (1024 < e.base + e.len) || decide (2 < e.level))
  | .routes outs rings =>
    outs.any (fun o => decide (o.hslots < 1) || decide (64 < o.hslots) || decide (o.allot < 1) || decide (64 < o.allot) ||
      (o.device == s.devId && (match i.prodFor s.devId o with
        | some e => e.allot != o.allot || e.hslots != o.hslots
        | none => true))) ||
    rings.any (fun g => decide (384 < g.first + g.count) || decide (16 < g.prods.length) ||
      decide (64 < (g.prods.map ProdEnt.allot).sum) ||
      g.prods.any (fun e => decide (e.first < g.first) || decide (g.first + g.count < e.first + e.allot * e.hslots)) ||
      (List.range g.prods.length).any (fun a => (List.range a).any (fun b => match g.prods[a]?, g.prods[b]? with
        | some x, some y => !apart x.first (x.allot * x.hslots) y.first (y.allot * y.hslots)
        | _, _ => false)))
  | .barrier gs bs =>
    gs.any (fun g => decide (g.group < t.barFirst) || decide (t.barFirst + t.barCount ≤ g.group) ||
      (bs.filter (fun b => b.group == g.group)).length != g.n || !bs.any (fun b => b.group == g.group && b.bench / 160 == g.home)) ||
    bs.any (fun b => decide (3 < b.ctx) || !gs.any (fun g => g.group == b.group))
  | .bcast gs => gs.any (fun g => decide (g.1 < t.bcFirst) || decide (t.bcFirst + t.bcCount ≤ g.1))
  | _ => false

/-- The check of resources (R380, R386). -/
def State.checkResources (s : State) (i : Image) : Option (Nat × Nat) :=
  let parts := s.imgParts i
  let dies := List.range 16
  let pairs := parts.flatMap (fun p => (parts.filter (fun q => decide (p < q))).map (fun q => (s.partEnt i p, s.partEnt i q)))
  let cfgOff := fun p => ((i.ofType 0x11 (some p)).getLast?.map ImgRec.off).getD 64
  let whole := if i.kind = 0 then
      dies.map (fun d => (decide (64 < (parts.map (fun p => (s.partShare i d p).share)).sum), 0x0D08, 64)) ++
      dies.map (fun d => (decide (2048 < (parts.map (fun p => (s.partShare i d p).quotaSum + (s.partShare i d p).pool)).sum),
        0x0D08, 64))
    else []
  let perPart := parts.flatMap (fun p =>
    let es := s.benchEnts i p
    (dies.map (fun d => (decide ((s.partShare i d p).quotaSum <
      ((es.filter (fun e => e.1 / 160 == d)).map (fun e => e.2.quota)).sum), 0x0D08, cfgOff p))) ++
    [ (es.any (fun e => decide (e.2.cap < e.2.quota)), 0x0D08, cfgOff p),
      (es.any (fun e => (List.range 12).any (fun k => e.2.roleOf k == 2)), 0x0D08, cfgOff p) ])
  let ranges := if i.kind = 0 then
      [ (pairs.any (fun q => !apart q.1.barFirst q.1.barCount q.2.barFirst q.2.barCount ||
          !apart q.1.bcFirst q.1.bcCount q.2.bcFirst q.2.bcCount), 0x0D08, 64),
        (parts.any (fun p => decide (256 < (s.partEnt i p).barFirst + (s.partEnt i p).barCount) ||
          decide (32 < (s.partEnt i p).bcFirst + (s.partEnt i p).bcCount)), 0x0D08, 64) ]
    else []
  firstBad (whole ++ perPart ++ i.recs.map (fun r => (s.recResource i r, 0x0D08, r.off)) ++ ranges)

/-- The windows of a partition under an image, in GiB. -/
def State.imgWindows (s : State) (i : Image) (p : Nat) : List WinEnt :=
  if i.kind = 0 then
    (i.ofType 3 (some p)).foldl (fun ws r => match r.val with
      | .windows w => w
      | _ => ws) []
  else ((List.range 8).filter (fun w => s.on Reg.PART_WIN_VALID 0 (8 * p + w))).map (fun w =>
    ⟨s.rd Reg.PART_WIN_BASE 0 (8 * p + w), s.rd Reg.PART_WIN_SIZE 0 (8 * p + w) + 1, s.on Reg.PART_WIN_WRITE 0 (8 * p + w)⟩)

/-- A window lies in one tier and outside the last GiB, which holds the staging area (R383, R389). -/
def WinEnt.ok (w : WinEnt) : Bool :=
  decide (0 < w.size) && (decide (w.base + w.size ≤ 512) || (decide (512 ≤ w.base) && decide (w.base + w.size ≤ 2047)))

/-- The isolation rules of one record (R346, R389). -/
def State.recIsolation (s : State) (i : Image) (r : ImgRec) : Bool :=
  let t := s.partEnt i r.part
  let mine := fun gb => s.mapOf i gb == r.part
  match r.val with
  | .partParams _ _ _ _ snap =>
    !(s.imgWindows i r.part).any (fun w => w.write && decide (w.base + w.size ≤ 512) && decide (w.base * 2 ^ 30 ≤ snap) &&
      decide (snap + 20480 ≤ (w.base + w.size) * 2 ^ 30))
  | .routes outs rings =>
    outs.any (fun o => !mine o.bench || (if o.device = s.devId then !mine o.dest else t.fabTag == 0)) || rings.any (fun g => !mine g.bench)
  | .barrier _ bs => bs.any (fun b => !mine b.bench)
  | .bcast gs => gs.any (fun g => g.2.any (fun gb => !mine gb))
  | _ => false

/-- The check of isolation (R389). -/
def State.checkIsolation (s : State) (i : Image) : Option (Nat × Nat) :=
  let parts := s.imgParts i
  let pairs := parts.flatMap (fun p => (parts.filter (fun q => decide (p < q))).map (fun q => (p, q)))
  let shares := parts.filterMap (fun p => (i.ofType 6 (some p)).foldl (fun c r => match r.val with
    | .power _ _ _ sh => sh
    | _ => c) none)
  let whole := if i.kind = 0 then
      [ (parts.any (fun p => decide (8 < (s.imgWindows i p).length) || !(s.imgWindows i p).all WinEnt.ok), 0x0D09, 64),
        (pairs.any (fun q => (s.imgWindows i q.1).any (fun a => (s.imgWindows i q.2).any (fun b =>
          !apart a.base a.size b.base b.size))), 0x0D09, 64),
        (pairs.any (fun q => (s.partEnt i q.1).fabTag != 0 && (s.partEnt i q.1).fabTag == (s.partEnt i q.2).fabTag), 0x0D09, 64),
        (pairs.any (fun q => (s.partEnt i q.1).hostFn == (s.partEnt i q.2).hostFn), 0x0D09, 64),
        (decide (s.rd Reg.PWR_CAP_CAP_W 0 < shares.sum), 0x0D09, 64) ]
    else []
  firstBad (whole ++ i.recs.map (fun r => (s.recIsolation i r, 0x0D09, r.off)))

/-- The check of fenced dies and retired pots (R7, R380). -/
def State.checkFenced (s : State) (i : Image) : Option (Nat × Nat) :=
  firstBad ((s.imgParts i).flatMap (fun p =>
    [ ((s.imgDies i p).any (fun d => s.on Reg.PWR_DIE_STATUS_FENCED 0 d), 0x0D0A, 64),
      ((s.benchEnts i p).any (fun e => (List.range 16).any (fun k =>
        bit e.2.potEn k && s.on Reg.POT_INTEG_RETIRED (16 * e.1 + k))), 0x0D0A,
        ((i.ofType 0x11 (some p)).getLast?.map ImgRec.off).getD 64) ]))

/-- The image that a verified copy spells with the values of its records. -/
def imageOf (img : List Byte) (vals : List ImgVal) : Image :=
  { kind := imgField img 6 1, part := imgField img 7 1, version := imgField img 20 4,
    recs := withValues ((recordsOf img).getD []) vals, digest := imgDigestOf img }

/-- The checks of CHECK, in the order of R380. -/
def State.checkImage (s : State) (op part : Nat) (img : List Byte) (i : Image) : Option (Nat × Nat) :=
  firstOf [s.checkRecords op part img i, s.checkResources i, s.checkIsolation i, s.checkFenced i]

end Sys2Proof.Machine
end

