-- ==== Sys2Proof/Machine/Load.lean ====
section
/-! DEFINITION. Batch loads: the commands that start a load, its states, and what APPLY leaves (R382 to R391). -/

namespace Sys2Proof.Machine

open Sys2Proof

/-! ### Starts and ends -/

/-- A mailbox request ends: DONE, its RESULT and its interrupt (R561, R562). -/
def State.endMbox (s : State) (fn code : Nat) : State :=
  (((s.flag Reg.HOST_MBOX_STATUS_BUSY fn false).flag Reg.HOST_MBOX_STATUS_DONE fn true).wr Reg.HOST_MBOX_STATUS_RESULT fn code).signal
    fn (s.rd Reg.HOST_MBOX_CTRL_VECTOR fn)

/-- A load result ends an operation: DONE, RESULT and, where a check failed, its offset; it is reported to the requesting function,
and ends its mailbox request where there is one (R382, R394, R562). -/
def State.endLoad (s : State) (code off : Nat) : State :=
  match s.load with
  | none => s
  | some x =>
    let s := ((s.wr Reg.BATCH_STATUS_STATE 0 0).flag Reg.BATCH_STATUS_DONE 0 true).wr Reg.BATCH_STATUS_RESULT 0 code
    let s := if code = 0 then s else (s.wr Reg.BATCH_ERR_INFO_OFFSET 0 off).loadReport x.fn 0x1400 code off
    let s : State := { s with load := none }
    if x.mbox then s.endMbox x.fn code else s

/-- The partitions that a load targets: all for a whole load, the named one otherwise (R382). -/
def State.loadParts (s : State) (x : LoadX) : List Nat :=
  if x.op = 0 then (List.range 16).filter (fun p => s.on Reg.PART_CFG_VALID 0 p) else [x.part]

/-- The benches that the target partitions hold. -/
def State.loadBenches (s : State) (x : LoadX) : List Nat :=
  (List.range 2560).filter (fun gb => (s.loadParts x).contains (s.partOf gb))

/-- A front end abandons every transfer of a bench: those without a tracker entry, or with one and no request made, are gone, and
the data of the others is discarded when it comes (R347, R384). -/
def State.abandonAll (s : State) (gb : Nat) : State :=
  let left := s.xfers.map (fun x => if x.gb = gb then { x with pieces := [] } else x)
  { s with xfers := left.filter (fun x => x.gb != gb || x.phase == .requested || x.phase == .staged)
           fabWait := s.fabWait.filter (fun w => match w.1 with
             | .xfer id => !s.xfers.any (fun x => x.id == id && x.gb == gb)
             | .hdl g _ => g != gb
             | .hdlData g _ => g != gb
             | _ => true) }

/-- A bench abandons its work as under ABORT, in whatever state it is (R284, R382). -/
def State.quiesceBench (s : State) (gb : Nat) : State :=
  let t := if s.stopped gb then s else (s.setSeqState gb .drain).abortBench gb
  let held := t.remoteWait.get [] gb
  let t := held.foldl (fun t id => t.respond id .denied) t
  (({ t with remoteWait := t.remoteWait.put [] gb [] } : State).setOut gb []).abandonAll gb

/-- The commands of a queue that a partition's work needs end ABORTED (R559, R564); a NOP has none. -/
def State.abortQueue (s : State) (k : Nat) : State :=
  let x := s.queues.get {} k
  let f := fun (c : HostCmd) => if c.phase < 2 && c.opcode != 0 then { c with phase := 2, status := 7, info := 0 } else c
  { s with queues := s.queues.put {} k { x with cmds := x.cmds.map f } }

/-- QUIESCE begins: the target partitions are LOADING, their benches abandon their work, and a collective command of theirs is
abandoned without a record (R382, R384, R461); the host commands fetched for those partitions end ABORTED (R564). -/
def State.beginQuiesce (s : State) (x : LoadX) : State :=
  let ps := s.loadParts x
  let tags := ps.map (fun p => s.rd Reg.PART_CFG_FAB_TAG 0 p)
  let t := ps.foldl (fun t p => t.wr Reg.PART_STATUS_STATE 0 1 p) s
  let fns := (ps.map (fun p => s.rd Reg.PART_CFG_HOST_FN 0 p)).eraseDups
  let t := fns.foldl (fun t fn => (upFrom (4 * fn) 4).foldl State.abortQueue t) t
  let t := (s.loadBenches x).foldl State.quiesceBench t
  let t := (List.range 16).foldl (fun t r =>
    if tags.contains (t.rd Reg.FAB_RING_PEER_FTAG 0 r) && (t.ringX r).cmd.isSome then t.setRing r { cur := (t.ringX r).cur } else t) t
  ({ t with load := some x } : State).wr Reg.BATCH_STATUS_STATE 0 4

/-- A request for an operation: refused in safe mode (R514) and while a load runs (R391). -/
def State.startLoad (s : State) (op part fn : Nat) (mbox : Bool) : State :=
  let x : LoadX := { op := op, part := part, fn := fn, mbox := mbox }
  if s.rd Reg.BOOT_STATUS_MODE 0 = 2 then
    let s := ({ s with load := some x } : State).endLoad 0x0F02 0
    (s.wr Reg.BOOT_STATUS_LAST_FAULT 0 0x0F02).devReport 0x1401 0x0F02 (s.rd Reg.BOOT_STATUS_SAFE_STEP 0)
  else if s.rd Reg.BATCH_STATUS_STATE 0 ≠ 0 then
    let s := s.loadReport fn 0x1400 0x0D0B (s.rd Reg.BATCH_ERR_INFO_OFFSET 0)
    if mbox then s.endMbox fn 0x0D0B else s
  else if op ≠ 2 then ({ s with load := some x } : State).wr Reg.BATCH_STATUS_STATE 0 1
  else if s.on Reg.PART_CFG_VALID 0 part then s.beginQuiesce x
  else ({ s with load := some x } : State).endLoad 0x0D07 7

/-- A write of BATCH_CTRL with GO: from the physical function or the servitor, and an unload from the gaffer itself in the STOP of
a withdraw (R392, R538). -/
def State.batchGo (s : State) (agent op part : Nat) : State :=
  let own := agent = 0 ∧ op = 2 ∧ s.rd Reg.FLT_WD_STATUS_STATE 0 = 2
  if agent = 1 ∨ agent = 2 ∨ own then ((s.wr Reg.BATCH_CTRL_OP 0 op).wr Reg.BATCH_CTRL_PART 0 part).startLoad op part 0 false else s

/-- WHOLE_LOAD (R382). -/
def execWholeLoad (agent part : Nat) (s : State) : Host.Outcome State Fault Refusal :=
  okIf (part < 16) (s.batchGo agent 0 part)

/-- PARTITION_LOAD (R382). -/
def execPartitionLoad (agent part : Nat) (s : State) : Host.Outcome State Fault Refusal :=
  okIf (part < 16) (s.batchGo agent 1 part)

/-- UNLOAD (R388). -/
def execUnload (agent part : Nat) (s : State) : Host.Outcome State Fault Refusal :=
  okIf (part < 16) (s.batchGo agent 2 part)

/-- A load ends before QUIESCE for a reset or a withdraw (R391). -/
def State.abortLoad (s : State) : State :=
  if 1 ≤ s.rd Reg.BATCH_STATUS_STATE 0 ∧ s.rd Reg.BATCH_STATUS_STATE 0 ≤ 3 then s.endLoad 0x0D0C 0 else s

/-! ### COPY, VERIFY, CHECK -/

/-- BATCH_COPY_DONE (R382, R383): the bytes at the host address are copied into the staging area, at most 128 MiB of them; a CRC
mismatch repeats the copy once; a read that failed twice ends the load, and so does a cut path through furnace die 0 (R25, R482). -/
def execBatchCopyDone (img : List Byte) (lasting : Bool) (s : State) : Host.Outcome State Fault Refusal :=
  okIf true
    (match s.load with
    | none => s
    | some x =>
      if s.rd Reg.BATCH_STATUS_STATE 0 ≠ 1 then s
      else if lasting || s.stageCut img.length then s.endLoad 0x0D0D 0
      else if img.length ≠ min (s.rd Reg.BATCH_LEN_LEN 0) (2 ^ 27) then s
      else
        let s := s.storeBytes stagingBase img
        if !imgCrcOk img && !x.again then { s with load := some { x with again := true } }
        else ({ s with load := some { x with bytes := img } } : State).wr Reg.BATCH_STATUS_STATE 0 2)

/-- BATCH_VERIFY_DONE (R380). -/
def execBatchVerifyDone (s : State) : Host.Outcome State Fault Refusal :=
  okIf true
    (match s.load with
    | none => s
    | some x =>
      if s.rd Reg.BATCH_STATUS_STATE 0 ≠ 2 then s
      else match s.verifyImage x.op x.part x.bytes with
        | some (c, o) => s.endLoad c o
        | none => s.wr Reg.BATCH_STATUS_STATE 0 3)

/-- BATCH_CHECK_DONE (R380); `vals` are the values that the records spell, in their order. -/
def execBatchCheckDone (vals : List ImgVal) (s : State) : Host.Outcome State Fault Refusal :=
  okIf true
    (match s.load with
    | none => s
    | some x =>
      if s.rd Reg.BATCH_STATUS_STATE 0 ≠ 3 then s
      else
        let i := imageOf x.bytes vals
        match s.checkImage x.op x.part x.bytes i with
        | some (c, o) => s.endLoad c o
        | none => s.beginQuiesce { x with img := some i, bytes := [] })

/-! ### QUIESCE -/

/-- A target partition holds a tracker entry (R384). -/
def State.loadTracked (s : State) (x : LoadX) : Bool :=
  s.xfers.any (fun y => y.tracked && (s.loadParts x).contains (s.partOf y.gb))

/-- QUIESCE_DONE (R384). -/
def execQuiesceDone (s : State) : Host.Outcome State Fault Refusal :=
  okIf true
    (match s.load with
    | none => s
    | some x =>
      if s.rd Reg.BATCH_STATUS_STATE 0 ≠ 4 ∨ s.loadTracked x = true then s else s.wr Reg.BATCH_STATUS_STATE 0 5)

/-- QUIESCE_TIMEOUT (R384): the entries still held are freed by force, with one report for each partition that held some. -/
def execQuiesceTimeout (s : State) : Host.Outcome State Fault Refusal :=
  okIf true
    (match s.load with
    | none => s
    | some x =>
      if s.rd Reg.BATCH_STATUS_STATE 0 ≠ 4 then s
      else
        let ps := (s.loadParts x).filter (fun p => s.xfers.any (fun y => y.tracked && s.partOf y.gb == p))
        let t : State := { s with xfers := s.xfers.filter (fun y => !(s.loadParts x).contains (s.partOf y.gb)) }
        ps.foldl (fun t p => t.record (mkRec 0x0D21 0 p 0x1400 31 (t.rd Reg.BATCH_ERR_INFO_OFFSET 0) 0) [0]) t)

/-! ### APPLY -/

/-- The register blocks of a bench, with the instances that the bench has in each. -/
def benchBlocksOf (gb : Nat) : List (Blk × List Nat) :=
  [ (.bench, [gb]), (.par, [gb]), (.pot, upFrom (16 * gb) 16), (.sparse, upFrom (4 * gb) 4), (.upd, upFrom (16 * gb) 16),
    (.jack, [gb]), (.spad, [gb]), (.seq, [gb]), (.dma, [gb]), (.pq, [gb]) ]

/-- Every sticky flag and RC counter of a bench's blocks at zero (R385). -/
def State.clearCounts (s : State) (gb : Nat) : State :=
  (benchBlocksOf gb).foldl (fun t b => b.2.foldl (fun t i =>
    t.resetFields (b.1.fields.filter (fun f => f.acc == .rc || f.acc == .w1c)) i) t) s

/-- Every witness, accumulator, set and table of a pot after APPLY; cullet list, RETIRED and self-test age stay (R143, R385). -/
def State.clearPot (s : State) (gp : Nat) : State :=
  let x := s.potx gp
  let lo := 1024 * gp
  let s : State := { s with cells := s.cells.clear lo (lo + 1024), accs := s.accs.clear lo (lo + 1024),
                            gated := s.gated.clear lo (lo + 1024), poolBuf := s.poolBuf.clear lo (lo + 1024),
                            finBuf := s.finBuf.clear lo (lo + 1024),
                            metaRam := s.metaRam.clear lo (lo + 1024) }
  let s := s.setPotx gp { x with chain := none, undef := false, pool := none, poolAbort := false, mask := none, reload := false,
                                 classes := List.replicate 32 0 }
  let s := s.resetFields [Reg.POT_CFG_VALID, Reg.POT_INTEG_SHADOW_OK, Reg.POT_STATUS_POOL_CNT, Reg.POT_CFG_ROLE] gp
  let s := s.resetFields [Reg.POT_UPD_STATUS_RUN, Reg.POT_UPD_STATUS_RUN_NEXT, Reg.POT_UPD_RUN_ADDR] gp
  if gp % 16 < 12 then s
  else s.resetFields [Reg.POT_SP_CFG_TILED, Reg.POT_SP_CFG_BLOCKS, Reg.POT_SP_CFG_RG_DENSE, Reg.POT_SP_CFG_RG_LANE,
    Reg.POT_SP_CFG_RG_SUB, Reg.POT_SP_CFG_RG_VOID] (spIx gp)

/-- A parison after APPLY (R171): its sketch and remap table clear, CAL_VALID 0, which may be reported anew (R168), and a calibration
due (R169). -/
def State.clearPar (s : State) (gb : Nat) : State :=
  let s : State := { s with sketch := s.sketch.clear (512 * gb) (512 * gb + 512) }
  let x := s.parx gb
  let s := s.setParx gb { x with calDue := true, dead := [], notCalSaid := x.notCalSaid && !s.on Reg.PAR_STATUS_CAL_VALID gb }
  s.resetFields [Reg.PAR_REMAP_TBL_VALID, Reg.PAR_REMAP_TBL_PAIR, Reg.PAR_STATUS_REMAPS, Reg.PAR_STATUS_DEAD,
    Reg.PAR_STATUS_CAL_VALID] gb

/-- A sequencer after reset, its instruction and walk memories, contexts and directory clear (R262, R385). -/
def State.clearSeq (s : State) (gb : Nat) : State :=
  let s : State := { s with sregs := s.sregs.clear (32 * gb) (32 * gb + 32), walkRam := s.walkRam.clear (1024 * gb) (1024 * gb + 1024),
                            cycleCtr := s.cycleCtr.put 0#64 gb 0#64, waits := s.waits.clear (32 * gb) (32 * gb + 32) }
  let s := (s.setSeq gb {}).progress gb
  s.resetFields [Reg.SEQ_STATUS_STATE, Reg.SEQ_STATUS_MULTI, Reg.SEQ_PC_PC, Reg.SEQ_BAR_ARRIVE_EPOCH, Reg.SEQ_BAR_RELEASE_EPOCH,
    Reg.SEQ_BAR_INFO_OUTSTANDING, Reg.SEQ_BAR_INFO_WAITING, Reg.SEQ_BAR_INFO_GROUP, Reg.SEQ_WALK_DIR_LEVEL, Reg.SEQ_WALK_DIR_BASE,
    Reg.SEQ_WALK_DIR_LEN] gb

/-- Scratchpad, tags, poison, instruction memory and punty ports of a bench clear (R248, R385). -/
def State.clearStore (s : State) (gb : Nat) : State :=
  let b := spadBase gb
  let s : State := { s with mem := s.mem.filter (fun e => !(decide (b ≤ e.1) && decide (e.1 < b + 0x108000))),
                            tags := s.tags.clear (384 * gb) (384 * gb + 384), poison := s.poison.clear (b / 32) ((b + 0x60000) / 32),
                            writeback := s.writeback.clear (b / 32) ((b + 0x60000) / 32), pqOut := s.pqOut.put [] gb [],
                            pqIn := s.pqIn.put {} gb {}, producers := s.producers.clear (16 * gb) (16 * gb + 16),
                            ringPos := s.ringPos.clear (16 * gb) (16 * gb + 16), fseqOut := s.fseqOut.put 0 gb 0,
                            xfers := s.xfers.filter (fun x => x.gb != gb) }
  let s := s.wr Reg.SPAD_POISON_INFO_COUNT gb 0
  s.resetFields [Reg.PQ_STATUS_OUT_Q, Reg.PQ_STATUS_IN_Q, Reg.PQ_OUT_ROUTE_VALID, Reg.PQ_OUT_ROUTE_DEVICE, Reg.PQ_OUT_ROUTE_BENCH,
    Reg.PQ_OUT_CREDIT_HSLOTS, Reg.PQ_OUT_CREDIT_ALLOT, Reg.PQ_OUT_CREDIT_CREDIT, Reg.PQ_OUT_CREDIT_SEQ, Reg.PQ_IN_RING_RING_FIRST,
    Reg.PQ_IN_RING_RING_COUNT, Reg.PQ_IN_RING_PRODUCERS, Reg.PQ_IN_PROD_BASE, Reg.PQ_IN_PROD_ALLOT, Reg.PQ_IN_PROD_EXPECT,
    Reg.PQ_IN_PROD_OUT, Reg.PQ_IN_PROD_VALID] gb

/-- The clears of APPLY but that of the parison, with the configuration of a BENCH_CFG entry (R378, R385). -/
def State.clearUnits (s : State) (gb : Nat) (e : BenchEnt) (seed : DWord) : State :=
  let s := ((s.clearCounts gb).clearStore gb).clearSeq gb
  let s := (List.range 16).foldl (fun t p =>
    let t := t.clearPot (16 * gb + p)
    ({ t with potOff := t.potOff.put false (16 * gb + p) (!bit e.potEn p) } : State).wr Reg.POT_CFG_ROLE (16 * gb + p) (e.roleOf p)) s
  let s : State := { s with logical := s.logical.put (gb + 1) gb (e.logical + 1), slowClock := s.slowClock.put false gb e.idle }
  let s := (List.range 17).foldl (fun t k => t.setPrng gb k (prngSeed seed e.logical k)) s
  (s.wr Reg.DMA_CFG_QUOTA gb e.quota).wr Reg.DMA_CFG_CAP gb e.cap

/-- A bench after the clears of APPLY (R385). -/
def State.clearBench (s : State) (gb : Nat) (e : BenchEnt) (seed : DWord) : State := (s.clearPar gb).clearUnits gb e seed

/-- What an unload leaves a bench of its BENCH_CFG entry: IDLE, with every pot disabled (R388). -/
def State.idleEnt (s : State) (gb : Nat) : BenchEnt :=
  { logical := s.logicalOf gb, quota := s.rd Reg.DMA_CFG_QUOTA gb, cap := s.rd Reg.DMA_CFG_CAP gb,
    role := ((List.range 16).map (fun p => s.rd Reg.POT_CFG_ROLE (16 * gb + p) % 4 * 4 ^ p)).sum }

/-- PART_PARAMS of a partition: seed, split (9/5/2 where all three are 0, R379) and the snapshot's address. -/
def Image.params (i : Image) (p : Nat) : DWord × Nat × Nat × Nat × Nat :=
  (i.ofType 0x10 (some p)).foldl (fun d r => match r.val with
    | .partParams seed rd wr rem snap => if rd + wr + rem = 0 then (seed, 9, 5, 2, snap) else (seed, rd, wr, rem, snap)
    | _ => d) (0#64, 9, 5, 2, 0)

/-- A route written (R337, R385). -/
def State.applyRoute (s : State) (o : RouteEnt) : State :=
  let s := ((s.flag Reg.PQ_OUT_ROUTE_VALID o.bench true).wr Reg.PQ_OUT_ROUTE_DEVICE o.bench o.device).wr Reg.PQ_OUT_ROUTE_BENCH o.bench o.dest
  ((s.wr Reg.PQ_OUT_CREDIT_HSLOTS o.bench (o.hslots - 1)).wr Reg.PQ_OUT_CREDIT_ALLOT o.bench o.allot).wr Reg.PQ_OUT_CREDIT_CREDIT
    o.bench o.allot

/-- A ring with its producers written (R337, R385). -/
def State.applyRing (s : State) (g : RingEnt) : State :=
  let s := ((s.wr Reg.PQ_IN_RING_RING_FIRST g.bench g.first).wr Reg.PQ_IN_RING_RING_COUNT g.bench (g.count - 1)).wr
    Reg.PQ_IN_RING_PRODUCERS g.bench g.prods.length
  (List.range g.prods.length).foldl (fun t j => match g.prods[j]? with
    | none => t
    | some e =>
      let t := ((t.wr Reg.PQ_IN_PROD_BASE g.bench e.first j).wr Reg.PQ_IN_PROD_ALLOT g.bench e.allot j).flag Reg.PQ_IN_PROD_VALID
        g.bench true j
      { t with producers := t.producers.put 0 (16 * g.bench + j) (e.device * 4096 + e.bench + 1) }) s

/-- A barrier group at its home, and a context bound to a group (R364, R385, R386). -/
def State.applyGroup (s : State) (g : GroupEnt) : State :=
  (((s.flag Reg.NOC_BAR_CFG_HOME g.home true g.group).flag Reg.NOC_BAR_CFG_SPANS g.home g.spans g.group).wr Reg.NOC_BAR_CFG_MEMBERS
    g.home g.n g.group).wr Reg.NOC_BAR_EPOCH_EXPECT g.home g.e g.group
def State.applyBind (s : State) (gs : List GroupEnt) (b : BindEnt) : State :=
  let e := (((gs.find? (fun g => g.group == b.group)).map GroupEnt.e).getD 0 + 2 ^ 32 - 1) % 2 ^ 32
  ((s.wr Reg.SEQ_BAR_INFO_GROUP b.bench b.group b.ctx).wr Reg.SEQ_BAR_ARRIVE_EPOCH b.bench e b.ctx).wr Reg.SEQ_BAR_RELEASE_EPOCH
    b.bench e b.ctx

/-- A record of partition `p` applied to its benches (R377, R385). -/
def State.applyRec (s : State) (p : Nat) (r : ImgRec) : State :=
  let mine := fun gb => s.partOf gb == p
  match r.val with
  | .routes outs rings => rings.foldl State.applyRing (outs.foldl State.applyRoute s)
  | .walk benches dir ram =>
    (benches.filter mine).foldl (fun t gb =>
      let t := (List.range 16).foldl (fun t k => match dir[k]? with
        | none => t
        | some e => ((t.wr Reg.SEQ_WALK_DIR_LEVEL gb e.level k).wr Reg.SEQ_WALK_DIR_BASE gb e.base k).wr Reg.SEQ_WALK_DIR_LEN gb e.len k) t
      { t with walkRam := (List.range (min ram.length 1024)).foldl (fun m k =>
          m.put 0#64 (1024 * gb + k) (ram.getD k 0#64)) t.walkRam }) s
  | .barrier gs bs => bs.foldl (fun t b => t.applyBind gs b) (gs.foldl State.applyGroup s)
  | .bcast gs => gs.foldl (fun t g => { t with bcGroups := t.bcGroups.put [] g.1 g.2 }) s
  | .program benches first words =>
    (benches.filter mine).foldl (fun t gb => t.storeBytes (imemBase gb + 8 * first)
      ((words.take (4096 - first)).flatMap (fun w => leBytes 8 w.toNat))) s
  | _ => s

/-- The barrier and broadcast groups of a partition's ranges, undefined (R379). -/
def State.clearGroups (s : State) (p : Nat) : State :=
  let bars := upFrom (s.rd Reg.PART_GROUPS_BAR_FIRST 0 p) (s.rd Reg.PART_GROUPS_BAR_COUNT 0 p)
  let bcs := upFrom (s.rd Reg.PART_GROUPS_BC_FIRST 0 p) (s.rd Reg.PART_GROUPS_BC_COUNT 0 p)
  let clr := fun (t : State) (f : Field) (d g : Nat) => t.wr f d f.rst g
  let s := bars.foldl (fun t g => (List.range 16).foldl (fun t d =>
    clr (clr (clr (clr (clr t Reg.NOC_BAR_CFG_HOME d g) Reg.NOC_BAR_CFG_SPANS d g) Reg.NOC_BAR_CFG_ARRIVED d g)
      Reg.NOC_BAR_CFG_MEMBERS d g) Reg.NOC_BAR_EPOCH_EXPECT d g) t) s
  { s with bcGroups := bcs.foldl (fun m g => m.put [] g []) s.bcGroups, barSrc := bars.foldl (fun m g => m.put [] g []) s.barSrc }

/-- HOMED of every die (R371). -/
def State.showHomed (s : State) : State :=
  (List.range 16).foldl (fun t d => t.wr Reg.NOC_STATUS_HOMED d
    (min 255 ((List.range 256).filter (fun g => t.on Reg.NOC_BAR_CFG_HOME d g)).length)) s

/-- The regulator settings of a partition on every die (R330, R385); an unload keeps them (R388). -/
def State.applyShares (s : State) (i : Option Image) (p : Nat) : State :=
  let z : State := { s with buckets := s.buckets.clearIf (fun k => k / 4 % 256 == p) }
  match i with
  | none => z
  | some i =>
    let (_, rd, wr, rem, _) := i.params p
    (List.range 16).foldl (fun t d =>
      let t := ((t.wr Reg.DMA_REG_CFG_READ d rd p).wr Reg.DMA_REG_CFG_WRITE d wr p).wr Reg.DMA_REG_CFG_REMOTE d rem p
      if i.kind = 0 then
        let e := s.partShare i d p
        ({ t with quotaSum := t.quotaSum.put 0 (16 * d + p) e.quotaSum } : State).wr Reg.DMA_REG_CFG_SHARE d e.share p |>.wr
          Reg.DMA_REG_CFG_POOL d e.pool p
      else t) z

/-- The limits of PWR_DIE_CFG: the most restrictive of the partitions with benches on the die (R390, R470). -/
def State.showPower (s : State) : State :=
  (List.range 16).foldl (fun t d =>
    let ps := ((upFrom (160 * d) 160).map (fun gb => t.partOf gb)).eraseDups.filter (fun p => decide (p < 16))
    let rs := ps.map (fun p => t.power.get {} p)
    ((t.wr Reg.PWR_DIE_CFG_MAX_POINT 0 (rs.foldl (fun m r => max m r.maxPoint) 0) d).flag Reg.PWR_DIE_CFG_P0_ALLOW 0
      (rs.all PowerRec.p0) d).flag Reg.PWR_DIE_CFG_REHEAT_EN 0 (rs.all PowerRec.reheat) d) s

/-- The isolation registers and whole-scope settings of a whole image (R377, R389, R393). -/
def State.applyWhole (s : State) (i : Image) : State :=
  let s := (List.range 16).foldl State.clearGroups s
  let s := (List.range 16).foldl (fun t p =>
    let e := i.table.getD p {}
    let t := (((t.flag Reg.PART_CFG_VALID 0 e.valid p).wr Reg.PART_CFG_HOST_FN 0 e.hostFn p).wr Reg.PART_CFG_KEY_SLOT 0 e.keySlot p).wr
      Reg.PART_CFG_FAB_TAG 0 e.fabTag p
    let t := (((t.wr Reg.PART_GROUPS_BAR_FIRST 0 e.barFirst p).wr Reg.PART_GROUPS_BAR_COUNT 0 e.barCount p).wr
      Reg.PART_GROUPS_BC_FIRST 0 e.bcFirst p).wr Reg.PART_GROUPS_BC_COUNT 0 e.bcCount p
    let ws := s.imgWindows i p
    let t := (List.range 8).foldl (fun t k =>
      let w := ws.getD k ⟨0, 1, false⟩
      (((t.flag Reg.PART_WIN_VALID 0 (decide (k < ws.length)) (8 * p + k)).flag Reg.PART_WIN_WRITE 0 w.write (8 * p + k)).wr
        Reg.PART_WIN_BASE 0 w.base (8 * p + k)).wr Reg.PART_WIN_SIZE 0 (w.size - 1) (8 * p + k)) t
    { t with power := t.power.put {} p ((i.ofType 6 (some p)).foldl (fun d r => match r.val with
        | .power m a b sh => ⟨m, a, b, sh⟩
        | _ => d) {}) }) s
  let links := i.recs.flatMap (fun r => match r.val with
    | .pkgExclude ls => ls
    | _ => [])
  let owner : SMap Nat := (List.range 2560).foldl (fun m gb => m.put 0 gb (if s.mapOf i gb = 255 then 0 else s.mapOf i gb + 1)) []
  let s : State := { s with owner := owner, trackPtr := [], pkgExcl := links.foldl (fun m l => m.put false (4 * l.1 + l.2) true) [],
                            imgDigest := s.imgDigest.put 0 16 i.digest }
  (s.wr Reg.BATCH_VERSION_VERSION 0 i.version).showDetours.showPower

/-- The benches and groups of one partition after APPLY; without an image as R388 unloads it, with the seed and the entries that
it has. -/
def State.applyPart (s : State) (i : Option Image) (p : Nat) : State :=
  let d := (i.map (fun i => i.params p)).getD (s.partSeed.get 0#64 p, 9, 5, 2, 0)
  let ents := (i.map (fun i => s.benchEnts i p)).getD ((s.benchesOf p).map (fun gb => (gb, s.idleEnt gb)))
  let s := s.clearGroups p
  let s := (s.benchesOf p).foldl (fun t gb =>
    t.clearBench gb (((ents.find? (fun e => e.1 == gb)).map Prod.snd).getD { logical := gb }) d.1) s
  let s := s.applyShares i p
  let s := match i with
    | none => s
    | some i => (i.recs.filter (fun (r : ImgRec) => r.part == p)).foldl (fun t r => t.applyRec p r) s
  let s : State := { s with partGen := s.partGen.put 0 p ((s.partGen.get 0 p + 1) % 2 ^ 32) }
  match i with
  | none => (s.wr Reg.PART_STATUS_STATE 0 0 p).flag Reg.PART_STATUS_DEGRADED 0 false p
  | some i =>
    let s : State := { s with imgDigest := s.imgDigest.put 0 p i.digest, partSeed := s.partSeed.put 0#64 p d.1 }
    (((s.wr Reg.PART_STATUS_STATE 0 2 p).flag Reg.PART_STATUS_DEGRADED 0 false p).wr Reg.PART_VERSION_VERSION 0 i.version p).wr
      Reg.PART_SNAPSHOT_ADDR 0 (d.2.2.2.2 / 128) p

/-- A partition that the whole image does not keep: its benches cleared and unassigned (R373, R385). -/
def State.dropPart (s : State) (gbs : List Nat) (p : Nat) : State :=
  let s := gbs.foldl (fun t gb => t.clearBench gb { logical := gb } 0#64) s
  let s : State := { s with partGen := s.partGen.put 0 p ((s.partGen.get 0 p + 1) % 2 ^ 32) }
  (s.wr Reg.PART_STATUS_STATE 0 0 p).flag Reg.PART_STATUS_DEGRADED 0 false p

/-- APPLY of a load (R385, R388). -/
def State.applyLoad (s : State) (x : LoadX) : State :=
  match x.img with
  | none => (s.applyPart none x.part).showHomed
  | some i =>
    if x.op = 0 then
      let old := (List.range 16).filter (fun p => s.on Reg.PART_CFG_VALID 0 p)
      let keep := s.imgParts i
      let freed := (List.range 2560).filter (fun gb => decide (s.partOf gb < 16) && s.mapOf i gb == 255)
      let t := s.applyWhole i
      let t := keep.foldl (fun t p => t.applyPart (some i) p) t
      let t := (old.filter (fun p => !keep.contains p)).foldl (fun t p => t.dropPart [] p) t
      (freed.foldl (fun t gb => t.clearBench gb { logical := gb } 0#64) t).showHomed
    else (s.applyPart (some i) x.part).showHomed

/-- A partition has a bench on a fenced die. -/
def State.onFenced (s : State) (p : Nat) : Bool :=
  (s.benchesOf p).any (fun gb => s.on Reg.PWR_DIE_STATUS_FENCED 0 (gb / 160))

/-- APPLY_DONE (R385, R387): `retired` are pots that failed while they were cleared; APPLY waits while a cap stops the clocks
(R391). -/
def execApplyDone (retired : List Nat) (s : State) : Host.Outcome State Fault Refusal :=
  okIf true
    (match s.load with
    | none => s
    | some x =>
      if s.rd Reg.BATCH_STATUS_STATE 0 ≠ 5 ∨ s.rd Reg.PWR_STATUS_MODE 0 = 2 then s
      else
        let t := s.applyLoad x
        let t := retired.foldl (fun t gp => t.retire (gp / 16) (gp % 16)) t
        let ps := if x.op = 2 then [] else t.loadParts x
        let bad := ps.filter (fun p => t.onFenced p || retired.any (fun gp => t.partOf (gp / 16) == p))
        let t := bad.foldl (fun t p => (t.flag Reg.PART_STATUS_DEGRADED 0 true p).record
          (mkRec 0x0D20 0 p 0x1400 31 (t.rd Reg.BATCH_ERR_INFO_OFFSET 0) 0) [0]) t
        t.endLoad 0 0)

end Sys2Proof.Machine
end

