-- ==== Sys2Proof/Machine/TierRows.lean ====
section
/-! DEFINITION. The commands of the tier controllers (R399 to R407). -/

namespace Sys2Proof.Machine

open Sys2Proof

/-- A requested transfer that stands at a tier controller unanswered. -/
def Xfer.atTier (x : Xfer) : Bool :=
  x.tgt == 0 && x.phase == .requested && x.resp.isNone && (match placeOf x.ext with
    | .tierA => true
    | .tierB => true
    | _ => false)

/-- TIER_READ (R399, R401, R404): the controller serves a GET or a load's read. -/
def execTierRead (id : Nat) (ecc : List (Nat × Ecc)) (s : State) : Host.Outcome State Fault Refusal :=
  .next (match s.xfer id with
    | none => s
    | some x =>
      if x.atTier && x.inward then
        match s.tierFetch x.ext x.len ecc with
        | (t, some e, _) => t.respond id (.memError e.1)
        | (t, none, bs) => t.respond id (.data bs)
      else s)

/-- TIER_WRITE (R400, R401, R404): the controller serves a PUT or an emission, and accepts it where no block fails. -/
def execTierWrite (id : Nat) (ecc : List (Nat × Ecc)) (crc : List (Nat × Bool)) (s : State) :
    Host.Outcome State Fault Refusal :=
  .next (match s.xfer id with
    | none => s
    | some x =>
      if x.atTier && !x.inward then
        match s.tierStore x.ext x.data ecc crc with
        | (t, some e) => t.respond id (.memError e.1)
        | (t, none) => t.respond id .ack
      else s)

/-- TIER_WRITEBACK (R399): a corrected block is stored again; a write that came before it has cancelled it (R407). -/
def execTierWriteback (block : Nat) (s : State) : Host.Outcome State Fault Refusal :=
  .next { s with tierWb := s.tierWb.put false block false }

/-- The address of block `n` of a controller's scrub pass (R396, R397, R402). -/
def scrubAddr (ctl n : Nat) : Nat :=
  let off := 64 * n
  if ctl < 8 then
    if off < 2 ^ 35 then off / 1024 * 8192 + ctl * 1024 + off % 1024
    else 0x4000000000 + ctl * 2 ^ 35 + (off - 2 ^ 35)
  else
    let pkg := 6 * (ctl - 8) + off / 2 ^ 36
    let o := off % 2 ^ 36
    0x8000000000 + (o / 4096 * 24 + pkg) * 4096 + o % 4096

/-- The blocks of a scrub pass: 64 GiB for a stack, six packages for an annex. -/
def scrubLen (ctl : Nat) : Nat := if ctl < 8 then 2 ^ 30 else 6 * 2 ^ 30

/-- SCRUB_READ (R402, R407): the next block of a controller's pass is read under R399, a lasting error reported as
MEM_SCRUB_POISON. A poisoned block, and one of a down target, is passed over; so is a lasting error that a pending whole write
covers. -/
def execScrubRead (ctl : Nat) (ecc : Option Ecc) (covered : Bool) (s : State) : Host.Outcome State Fault Refusal :=
  okIf (ctl < 12)
    (let n := s.scrubPos.get 0 ctl
    let a := scrubAddr ctl n
    let c := ctlOf a
    let t : State := { s with scrubPos := s.scrubPos.put 0 ctl (if n + 1 < scrubLen ctl then n + 1 else 0) }
    let t := if n + 1 < scrubLen ctl then t else t.bump (c.f Reg.MEMA_SCRUB_PASSES Reg.MEMB_SCRUB_PASSES) c.inst
    if s.tierState c = 3 ∨ s.tierPoison.get false (a / 64) = true then t
    else if ecc = some .lasting then (if covered then t else t.blockLasting (a / 64) 0x0A05 2)
    else (t.blockRead (a / 64) ecc).1)

/-- A stack (0 to 7) or a package (8 + its number) is down, and what is queued at it answered (R404, R407). -/
def State.tierLoss (s : State) (dev : Nat) : State :=
  let t := if dev < 8 then s.wr Reg.MEMA_STATUS_STATE (stackDie dev) 3
    else s.wr Reg.MEMB_STATUS_STATE ((dev - 8) / 6) 3 ((dev - 8) % 6)
  (t.xfers.filter (fun x => x.atTier && (ctlOf x.ext).dev == dev)).foldl (fun t x =>
    (t.memReport (ctlOf x.ext) 0x0A04 (x.ext / 64 * 64) (some 4)).respond x.id (.memError 0x0A04)) t

/-- TIER_TARGET_LOSS (R404, R407). -/
def execTierTargetLoss (dev : Nat) (s : State) : Host.Outcome State Fault Refusal :=
  okIf (dev < 32) (s.tierLoss dev)

end Sys2Proof.Machine
end

