-- ==== Sys2Proof/Machine/Power.lean ====
section
/-! DEFINITION. Power and temperature: the caps, the controller, the regulator phases, the thermal limits and the fence (R465 to
R495). -/

namespace Sys2Proof.Machine

open Sys2Proof

/-! ### Operating points -/

/-- Set voltage in mV, die power in W and rail current in A of P0 to P7 (R465). -/
def pointMv (p : Nat) : Nat := [850, 800, 750, 700, 660, 620, 580, 550].getD p 550
def pointW (p : Nat) : Nat := [189, 150, 116, 88, 70, 54, 42, 32].getD p 32
def pointA (p : Nat) : Nat := [222, 188, 155, 126, 106, 87, 72, 58].getD p 58

/-- A common multiple of the die powers of R465. -/
def powerUnit : Nat := 48232800

/-- What a die holds beside its registers. -/
def State.die (s : State) (d : Nat) : DieX := s.dies.get {} d
def State.setDie (s : State) (d : Nat) (x : DieX) : State := { s with dies := s.dies.put {} d x }

/-- The current point of a furnace die. -/
def State.point (s : State) (d : Nat) : Nat := s.rd Reg.PWR_DIE_STATUS_POINT 0 d

/-- The furnace dies that are not fenced. -/
def State.liveDies (s : State) : List Nat := (List.range 16).filter (fun d => !s.dieFenced d)

/-- A PWR report of a die, whose power in INFO0 is not stated further (R495, R524). -/
def State.pwrReport (s : State) (d code : Nat) : State :=
  let (v, t) := s.free
  (t.wr Reg.PWR_STATUS_LAST_FAULT 0 code).devReport (0x1000 + d) code v.toNat

/-- The die whose SOURCE a report of the whole device carries: the control die (DESIGN CHOICE, assumption log 60). -/
def controlDie : Nat := 24

/-- A THERM report of a die, with a temperature (R495, R524). -/
def State.thermReport (s : State) (d code temp : Nat) : State :=
  (s.wr Reg.THERM_STATUS_LAST_FAULT 0 code d).devReport (0x1000 + d) code temp

/-- P0_BARRED and BAR_MS (R488, R489, R492). -/
def State.showBar (s : State) (d : Nat) : State :=
  let n := (s.die d).p0Bar
  (s.flag Reg.PWR_DIE_STATUS_P0_BARRED 0 (decide (0 < n) || s.on Reg.PWR_P0_INFO_BUDGET_OUT 0 d) d).wr Reg.PWR_P0_INFO_BAR_MS 0
    ((n + 9) / 10) d

/-- The die's clock goes to a point; leaving P0 after more than 10 ms bars it for 80 ms (R488). -/
def State.moveFreq (s : State) (d p : Nat) : State :=
  let x := s.die d
  let s := if s.point d = 0 ∧ p ≠ 0 then
      (s.setDie d { x with p0Ticks := 0, p0Bar := if 100 < x.p0Ticks then 800 else x.p0Bar }).wr Reg.PWR_P0_INFO_CONT_MS 0 0 d
    else s
  (s.wr Reg.PWR_DIE_STATUS_POINT 0 p d).showBar d

/-- An operating-point change reaches the parison of a bench: a calibration is due, and the next comparisons settle (R157, R169). -/
def State.settlePar (s : State) (gb : Nat) : State := (s.calDue gb).wr Reg.PAR_STATUS_SETTLE_LEFT gb 2

/-- The end of a point change (R466). -/
def State.endChange (s : State) (d p : Nat) : State :=
  let s := (s.moveFreq d p).wr Reg.VR_RAIL_VSET 0 (pointMv p) d
  let s := (s.setDie d { s.die d with change := none }).bump Reg.PWR_POINT_CNT_COUNT 0 1 d
  let s := (upFrom (160 * d) 160).foldl State.settlePar s
  -- the rail is back in a slice's window: what is due on the die may start (R145)
  s.pots.foldl (fun t e => if e.1 / 2560 = d then t.beginSlice (e.1 / 16) (e.1 % 16) false else t) s

/-- The parisons of a die with a computed record not yet presented, as a point change begins (R174). -/
def State.changeBegins (s : State) (d : Nat) : State :=
  s.pars.foldl (fun t e => if e.1 / 160 = d && e.2.computed.isSome then t.settleComputed e.1 else t) s

/-- The gaffer sets a die on its way to a point: where clock and voltage are there already, no change is needed (R466). -/
def State.aim (s : State) (d p : Nat) : State :=
  if s.point d = p ∧ s.rd Reg.VR_RAIL_VSET 0 d = pointMv p then s.setDie d { s.die d with change := none }
  else (if (s.die d).change.isNone then s.changeBegins d else s).setDie d { s.die d with change := some p }

/-- The throttle line: the clock falls to a point, the voltage stays, a change in progress is abandoned (R481, R484, R491). -/
def State.throttle (s : State) (d p : Nat) : State :=
  let s := if s.point d < p then (s.changeBegins d).moveFreq d p else s
  s.setDie d { s.die d with change := none }

/-- POINT_CHANGE_DONE (R466). -/
def execPointChangeDone (die : Nat) (s : State) : Host.Outcome State Fault Refusal :=
  okIf (die < 16) (match (s.die die).change with
    | none => s
    | some p => if s.dieFenced die then s else s.endChange die p)

/-! ### Caps -/

/-- The cap in force and its source (R467). The fallback is in force until a rack cap comes; a fabric cap counts where FAB_CAP = 1
and it is the lower. -/
def State.recap (s : State) : State :=
  let put := fun (v src : Nat) => (s.wr Reg.PWR_CAP_CAP_W 0 (min v 4200)).wr Reg.PWR_CAP_SOURCE 0 src
  match s.rackCap with
  | none => put (s.rd Reg.PWR_FALLBACK_FALLBACK_W 0) 0
  | some r =>
    match s.on Reg.PWR_CAP_FAB_CAP 0, s.fabCap with
    | true, some f => if f < r then put f 2 else put r 1
    | _, _ => put r 1

/-- DEVICE_CAP (R467, R468, R578): a rack cap, which clears MGR_LOST. -/
def execDeviceCap (watts : Nat) (s : State) : Host.Outcome State Fault Refusal :=
  okIf true ((({ s with rackCap := some (min watts 4200) } : State).flag Reg.PWR_STATUS_MGR_LOST 0 false).recap)

/-- CAP_LEASE (R468, R578). -/
def execCapLease (seconds : Nat) (s : State) : Host.Outcome State Fault Refusal :=
  okIf true (if seconds < 256 then s.wr Reg.PWR_CAP_LEASE_S 0 seconds else s)

/-- FALLBACK (R578). -/
def execFallback (watts : Nat) (s : State) : Host.Outcome State Fault Refusal :=
  okIf true (s.wr Reg.PWR_FALLBACK_FALLBACK_W 0 (min watts 4200)).recap

/-- FAB_CAP (R578): state 1 accepts fabric caps, 2 refuses them. -/
def execFabCap (state : Nat) (s : State) : Host.Outcome State Fault Refusal :=
  okIf true (if state = 1 ∨ state = 2 then (s.flag Reg.PWR_CAP_FAB_CAP 0 (decide (state = 1))).recap else s)

/-- CAP (R450, R467): a fabric cap, delivered to the gaffer. -/
def execCap (k : Nat) (m : FabMsg) (crc : Bool) (s : State) : Host.Outcome State Fault Refusal :=
  okIf (k < 4)
    (let m := { m with typ := 0x0C }
    let w := min (ofBytes (m.payload.take 4)) 4200
    s.vc0Untagged k m crc (fun t => (({ t with fabCap := some w } : State).wr Reg.PWR_FALLBACK_FABRIC_W 0 w).recap))

/-- LEASE_EXPIRY (R468): LEASE_S seconds without a rack cap. -/
def execLeaseExpiry (s : State) : Host.Outcome State Fault Refusal :=
  okIf true
    (if s.rd Reg.PWR_CAP_LEASE_S 0 = 0 ∨ s.on Reg.PWR_STATUS_MGR_LOST 0 = true then s
    else ((({ s with rackCap := none } : State).flag Reg.PWR_STATUS_MGR_LOST 0 true).recap).pwrReport controlDie 0x0E03)

/-! ### Limits -/

/-- The partitions with benches on a die. -/
def State.diePartsOn (s : State) (d : Nat) : List Nat :=
  (((upFrom (160 * d) 160).map (fun gb => s.partOf gb)).eraseDups).filter (fun p => decide (p < 16))

/-- The shares of the partitions on a die with a CAP_SHARE, each with its benches (R470). -/
def State.sharesOn (s : State) (d : Nat) : List (Nat × Nat) :=
  (s.diePartsOn d).filterMap (fun p => (s.power.get {} p).share.map (fun w => (w, (s.benchesOf p).length)))

/-- σ as a fraction (R470). -/
def State.sigma (s : State) : Nat × Nat :=
  let cap := s.rd Reg.PWR_CAP_CAP_W 0
  let sum := ((List.range 16).filterMap (fun p => (s.power.get {} p).share)).foldl (· + ·) 0
  if sum ≤ cap then (1, 1) else (cap, sum)

/-- BUDGET_W of a die, whole watts; 0 for no budget (R470, R492). -/
def State.budgetW (s : State) (d : Nat) : Nat :=
  let (a, b) := s.sigma
  match (s.sharesOn d).map (fun e => 160 * e.1 * a / (e.2 * b)) with
  | [] => 0
  | v :: r => min 8191 (r.foldl min v)

/-- A die that draws `meas` mW at its current point keeps its budget at point p by the model (R470, R472). -/
def State.inBudget (s : State) (d meas p : Nat) : Bool :=
  let (a, b) := s.sigma
  (s.sharesOn d).all (fun e => decide (meas * pointW p * (e.2 * b) ≤ 160000 * e.1 * a * pointW (s.point d)))

/-- The fastest point that the lost phases of a die allow (R481): the first loss holds P3 until the controller's tick; P7 where no
current fits. -/
def State.phasePoint (s : State) (d : Nat) : Nat :=
  let n := s.rd Reg.VR_PHASES_LOSSES 0 d
  if n = 0 then 0
  else if n = 1 then ([2, 3, 4, 5, 6].find? (fun p => pointA p ≤ s.rd Reg.VR_CURRENT_ILIMIT 0 d)).getD 7
  else 7

/-- The limits of a die that is not fenced, as LIMIT code and fastest point (R472, R483, R488, R489). A blind die's code is not
stated, and neither is that of P0_ALLOW = 0, taken as 6 (DESIGN CHOICE, assumption log 61). -/
def State.limits (s : State) (d meas : Nat) : List (Nat × Nat) :=
  let x := s.die d
  let st := s.rd Reg.THERM_STATUS_STATE 0 d
  [ (2, if st = 2 then 7 else x.ramp), (3, s.phasePoint d), (4, x.softCap), (Config.blindLimit % 16, if st = 4 then 7 else 0),
    (5, s.rd Reg.PWR_DIE_CFG_MAX_POINT 0 d),
    (6, if s.on Reg.PWR_DIE_CFG_P0_ALLOW 0 d = false ∨ s.on Reg.PWR_DIE_STATUS_P0_BARRED 0 d = true then 1 else 0),
    (7, ((List.range 7).find? (fun p => s.inBudget d meas p)).getD 7) ]

/-- The fastest point that every limit of a list allows. -/
def slowest (ls : List (Nat × Nat)) : Nat := ls.foldl (fun m l => max m l.2) 0

/-- LIMIT: the lowest code of the limits that bind at a point; 7 where the loop went below them all (R472). -/
def limitCode (ls : List (Nat × Nat)) (pt : Nat) : Nat :=
  if pt = 0 then 0
  else if slowest ls < pt then 7
  else (ls.filter (fun l => l.2 == pt)).foldl (fun m l => min m l.1) 15

/-! ### The controller -/

/-- The dies of a tick: die, measured power in mW, the current point and the chosen one. -/
structure Pick where
  die : Nat
  meas : Nat
  cur : Nat
  pt : Nat
  deriving DecidableEq, Repr

/-- pred of a die, in mW divided by `powerUnit` (R471). -/
def Pick.pred (k : Pick) : Nat := k.meas * pointW k.pt * (powerUnit / pointW k.cur)

/-- sum(pred) exceeds what an effective cap leaves beside the other loads: cap ÷ 1.081 less `other` (R471). -/
def overCap (cap other : Nat) (ks : List Pick) : Bool :=
  decide (cap * 1000000 * powerUnit < (ks.foldl (fun n k => n + k.pred) 0) * 1081 + other * 1081 * powerUnit)

/-- The die that the loop slows next: the largest pred, the lowest number on a tie, P7 left out (R471). -/
def nextDown (ks : List Pick) : Option Nat :=
  (ks.filter (fun k => k.pt < 7)).foldl (fun (b : Option Pick) k => match b with
    | none => some k
    | some a => if a.pred < k.pred then some k else b) none |>.map Pick.die

/-- The loop of R471, which ends within 7 rounds for each die. -/
def slowLoop (cap other : Nat) : Nat → List Pick → List Pick
  | 0, ks => ks
  | n + 1, ks =>
    if overCap cap other ks then
      match nextDown ks with
      | none => ks
      | some d => slowLoop cap other n (ks.map (fun k => if k.die = d then { k with pt := k.pt + 1 } else k))
    else ks

/-- A rail after its first or second loss, as the gaffer's tick leaves it (R481). -/
def State.tickPhase (s : State) (d : Nat) : State :=
  if (s.die d).phaseHold then
    (s.setDie d { s.die d with phaseHold := false }).wr Reg.VR_CURRENT_ILIMIT 0 (if s.rd Reg.VR_PHASES_LOSSES 0 d = 1 then 176 else 160) d
  else s

/-- The wear budget of a die is judged: 12,960 s spend it, 11,664 s restore it, in ticks of 100 µs (R489). -/
def State.judgeBudget (s : State) (d : Nat) : State :=
  let x := s.die d
  let used := x.bins.foldl (· + ·) x.minute
  let out := s.on Reg.PWR_P0_INFO_BUDGET_OUT 0 d
  let s := s.wr Reg.PWR_P0_INFO_USED_S 0 (used / 10000) d
  if out = false ∧ 129600000 ≤ used then ((s.flag Reg.PWR_P0_INFO_BUDGET_OUT 0 true d).showBar d).pwrReport d 0x0E07
  else if out = true ∧ used ≤ 116640000 then (s.flag Reg.PWR_P0_INFO_BUDGET_OUT 0 false d).showBar d
  else s

/-- 100 µs of P0 residency or of its bar, and of the ramp after lehr (R485, R488, R489). -/
def State.tickDie (s : State) (d : Nat) : State :=
  let x := s.die d
  let hot := s.point d = 0
  let x := { x with p0Bar := x.p0Bar - 1, p0Ticks := if hot then x.p0Ticks + 1 else 0, minute := if hot then x.minute + 1 else x.minute }
  let x := if x.ramp = 0 then x else if x.rampTicks + 1 < 1000 then { x with rampTicks := x.rampTicks + 1 }
    else { x with rampTicks := 0, ramp := x.ramp - 1 }
  let s := (s.setDie d x).wr Reg.PWR_P0_INFO_CONT_MS 0 (min 31 (x.p0Ticks / 10)) d
  ((s.showBar d).tickPhase d).judgeBudget d

/-- 100 µs pass: the device's clocks advance, FAB_TIME slewed by at most 200 ppm (R453, R525). -/
def State.passTime (s : State) : State :=
  let k := (clampTo (-20) 20 s.timeX.slew).1
  let s : State := { s with timeNs := s.timeNs + 100000, timeX := { s.timeX with slew := s.timeX.slew - k } }
  s.setTime (((s.fabTime : Int) + 100000 - k) % 2 ^ 64).toNat

/-- 100 µs of a withdraw's grace (R538, R543). -/
def State.tickGrace (s : State) : State :=
  if s.rd Reg.FLT_WD_STATUS_STATE 0 = 1 then
    let t : State := { s with graceAt := s.graceAt + 1 }
    t.wr Reg.FLT_WD_STATUS_GRACE_LEFT 0 (min 2047 (s.rd Reg.FLT_WD_CFG_GRACE_S 0 - t.graceAt / 10000))
  else s

/-- What the gaffer measures, in its registers (R492 to R494). -/
def State.showTick (s : State) (env : TickEnv) : State :=
  let s := ((s.wr Reg.PWR_INPUT_INPUT_W 0 env.input).wr Reg.VR_INPUT_VIN 0 env.vin).wr Reg.VR_INPUT_IIN 0 env.iin
  let s := env.temps.foldl (fun t e => if e.1 < 25 then t.wr Reg.THERM_STATUS_TEMP 0 e.2 e.1 else t) s
  (List.range 16).foldl (fun t d =>
    (t.wr Reg.VR_CURRENT_IRAIL 0 (env.amps.getD d 0) d).wr Reg.VR_RAIL_VSENSE 0 (env.sense.getD d 0) d) s

/-- The clocks of every bench that is on no fenced die, stopped or running (R475). -/
def State.setClocks (s : State) (off : Bool) : State :=
  { s with clockOff := s.liveDies.foldl (fun m d => (upFrom (160 * d) 160).foldl (fun m gb => m.put false gb off) m) s.clockOff }

/-- DUTY of every die that is not fenced. -/
def State.setDuty (s : State) (n : Nat) : State := s.liveDies.foldl (fun t d => t.wr Reg.PWR_DIE_STATUS_DUTY 0 n d) s

/-- MODE 2: the cap is below the floor, and every bench clock stops (R475). -/
def State.unattainable (s : State) : State :=
  (((s.wr Reg.PWR_STATUS_MODE 0 2).setDuty 0).setClocks true).pwrReport controlDie 0x0E01

/-- Duty pulsing as a tick leaves it (R474, R475): `tooHigh` says that every die is at P7 and the prediction exceeds the effective cap.
It is entered with the floor measured; it ends when every window runs whole and the prediction fits (DEDUCED, assumption log 62). A stop of
the clocks ends at a cap at or above the floor, and the benches then start row by row (R477). -/
def State.judgeDuty (s : State) (cap floor : Nat) (tooHigh : Bool) : State :=
  let mode := s.rd Reg.PWR_STATUS_MODE 0
  if mode = 2 then
    if s.rd Reg.PWR_INPUT_FLOOR_W 0 ≤ cap then
      s.liveDies.foldl (fun t d => (upFrom (160 * d) 160).foldl State.stagger t) (((s.wr Reg.PWR_STATUS_MODE 0 1).setDuty 1).setClocks false)
    else s
  else if mode = 1 then
    if cap < s.rd Reg.PWR_INPUT_FLOOR_W 0 then s.unattainable
    else if tooHigh || s.liveDies.any (fun d => s.rd Reg.PWR_DIE_STATUS_DUTY 0 d != 64) then s
    else s.wr Reg.PWR_STATUS_MODE 0 0
  else if tooHigh then
    let s := ((s.wr Reg.PWR_STATUS_MODE 0 1).wr Reg.PWR_INPUT_FLOOR_W 0 floor).pwrReport controlDie 0x0E02
    if cap < floor then s.unattainable else s
  else s

/-- The sustained limit (R469). -/
def State.judgeSustain (s : State) (avg : Nat) : State :=
  if 3500 ≤ avg then s.flag Reg.PWR_STATUS_SUSTAIN 0 true
  else if avg < 3400 then s.flag Reg.PWR_STATUS_SUSTAIN 0 false
  else s

/-- The effective cap (R469). -/
def State.effCap (s : State) : Nat :=
  let cap := s.rd Reg.PWR_CAP_CAP_W 0
  if s.on Reg.PWR_STATUS_SUSTAIN 0 then min cap 3500 else cap

/-- The reheat passes of a die, where it runs reheat (R478, R479). -/
def State.countReheat (s : State) (d n : Nat) : State :=
  let l := s.rd Reg.PWR_DIE_STATUS_LIMIT 0 d
  if s.on Reg.PWR_DIE_CFG_REHEAT_EN 0 d = false ∨ l = 1 ∨ l = 2 ∨ l = 3 ∨ s.rd Reg.PWR_STATUS_MODE 0 ≠ 0 then s
  else s.bump Reg.PWR_REHEAT_CNT_COUNT 0 n d

/-- CONTROLLER_TICK (R471 to R475, R488). -/
def execControllerTick (env : TickEnv) (s : State) : Host.Outcome State Fault Refusal :=
  okIf true
    (let s := ((s.passTime.tickGrace.showTick env).judgeSustain env.avg)
    let s := s.liveDies.foldl (fun t d => (t.countReheat d (env.reheat.getD d 0)).tickDie d) s
    let cap := s.effCap
    let pulsed := s.rd Reg.PWR_STATUS_MODE 0 ≠ 0 ∧ s.liveDies.any (fun d => s.rd Reg.PWR_DIE_STATUS_DUTY 0 d != 64) = true
    let picks := s.liveDies.map (fun d =>
      let m := env.dies.getD d 0
      Pick.mk d m (s.point d) (slowest (s.limits d m)))
    let done := if pulsed then picks.map (fun k => { k with pt := 7 }) else slowLoop cap env.other 112 picks
    let t := done.foldl (fun t k =>
      let t := (t.wr Reg.PWR_DIE_STATUS_MAX_EFF 0 k.pt k.die).wr Reg.PWR_DIE_STATUS_BUDGET_W 0 (s.budgetW k.die) k.die
      (t.wr Reg.PWR_DIE_STATUS_LIMIT 0 (limitCode (s.limits k.die k.meas) k.pt) k.die).aim k.die k.pt) s
    t.judgeDuty cap env.floor (done.all (fun k => k.pt == 7) && overCap cap env.other done))

/-- DUTY_WINDOW (R474, R475): D of the next window from the average of the last one: the draw above the floor is in proportion to D
(DEDUCED, assumption log 62). -/
def execDutyWindow (avg : Nat) (s : State) : Host.Outcome State Fault Refusal :=
  okIf true
    (let floor := s.rd Reg.PWR_INPUT_FLOOR_W 0
    let cap := s.effCap
    if s.rd Reg.PWR_STATUS_MODE 0 ≠ 1 then s
    else match s.liveDies with
      | [] => s
      | d :: _ =>
        let prev := s.rd Reg.PWR_DIE_STATUS_DUTY 0 d
        s.setDuty (if avg ≤ floor then 64 else min 64 (max 1 (prev * (cap - floor) / (avg - floor)))))

/-! ### The fence -/

/-- Clocks and links of a fenced furnace die: its bench clocks stop, its rail is dropped, its package links are down, and so is the
stack that it owns (R481, R482, R484). -/
def State.fenceDie (s : State) (d : Nat) : State :=
  let s := (s.flag Reg.PWR_DIE_STATUS_FENCED 0 true d).wr Reg.PWR_DIE_STATUS_LIMIT 0 1 d
  let s := (s.setDie d { s.die d with change := none }).wr Reg.VR_RAIL_VSET 0 0 d
  let s : State := { s with clockOff := (upFrom (160 * d) 160).foldl (fun m gb => m.put false gb true) s.clockOff }
  let s := (List.range 4).foldl (fun t e =>
    if hasEdge d e && t.rd Reg.PKG_LINK_STATUS_STATE d e != 3 then t.pkgDown d e else t) s
  match (List.range 8).find? (fun t => stackDie t == d) with
  | some t => s.tierLoss t
  | none => s

/-- A partition fault: every bench of the partition enters FAULT and the partition FAULTED (R346, R522). A partition that is LOADING
ends its load instead (R387, R491). -/
def State.faultPart (s : State) (p code : Nat) : State :=
  if s.rd Reg.PART_STATUS_STATE 0 p = 1 then s
  else ((s.benchesOf p).foldl (fun t gb => t.faultBench code gb) s).wr Reg.PART_STATUS_STATE 0 3 p

/-- Every partition with benches on a die is faulted, with a record (R482); without one, the record names no partition. -/
def State.faultParts (s : State) (d code info0 : Nat) (dep : Bool) : State :=
  match s.diePartsOn d with
  | [] => s.record (mkRec code 2 255 (0x1000 + d) 31 info0 0 dep) [0]
  | ps => ps.foldl (fun t p =>
      let r := t.ringOf p
      (t.faultPart p code).record (mkRec code 2 p (0x1000 + d) 31 info0 0 dep) (if r == [0] then r else r ++ [0])) s

/-! ### Regulator phases -/

/-- The tests of R480 over one reading of a phase, `n` phases in service. -/
def phaseFails (n : Nat) (r : PhaseRead) : Bool :=
  let off := ((n : Int) * r.sensed - r.rail).natAbs
  (decide (r.sensed < 500) && decide (20000 < r.rail)) || decide (r.sensed < -2000) || decide (40000 < r.sensed) ||
    (decide (r.rail < 4 * off) && decide (4000 * n < off))

/-- A phase is lost (R481). -/
def State.losePhase (s : State) (d k : Nat) : State :=
  let n := s.rd Reg.VR_PHASES_LOSSES 0 d + 1
  let s := (s.wr Reg.VR_PHASES_LOST 0 (s.rd Reg.VR_PHASES_LOST 0 d ||| 2 ^ k) d).wr Reg.VR_PHASES_OK 0 (s.rd Reg.VR_PHASES_OK 0 d - 1) d
  let s := (s.wr Reg.VR_PHASES_LOSSES 0 (min n 3) d).bump Reg.VR_CNT_LASTING 0 1 d
  if n = 1 then
    let s := s.throttle d 3
    (s.setDie d { s.die d with phaseHold := true }).pwrReport d 0x0E04
  else if n = 2 then
    let s := s.throttle d 7
    (s.setDie d { s.die d with phaseHold := true }).pwrReport d 0x0E05
  else
    let (v, s) := (s.wr Reg.PWR_STATUS_LAST_FAULT 0 0x0E06).free
    (s.fenceDie d).faultParts d 0x0E06 v.toNat true

/-- PHASE_TEST (R480, R481): a reading, and the one of the repeat where the first fails. -/
def execPhaseTest (die phase : Nat) (first again : PhaseRead) (s : State) : Host.Outcome State Fault Refusal :=
  okIf (die < 16 && phase < 12)
    (if (s.rd Reg.VR_PHASES_LOST 0 die).testBit phase ∨ s.dieFenced die = true then s
    else
      let n := s.rd Reg.VR_PHASES_OK 0 die
      let show_ := fun (t : State) (r : PhaseRead) => (t.wr Reg.VR_PHASE_I_ISENSE 0 (r.sensed.toNat / 1000) (16 * die + phase)).wr
        Reg.VR_PHASE_I_ISHARE 0 (r.rail / 1000 / n) (16 * die + phase)
      if !phaseFails n first then show_ s first
      else if !phaseFails n again then (show_ s again).bump Reg.VR_CNT_TRANSIENT 0 1 die
      else (show_ s again).losePhase die phase)

/-! ### Temperature -/

/-- STATE of a furnace die that is not in lehr, tripped or blind: 1 while the soft throttle acts (R484, R493). -/
def State.showSoft (s : State) (d : Nat) : State :=
  let st := s.rd Reg.THERM_STATUS_STATE 0 d
  if st ≤ 1 then s.wr Reg.THERM_STATUS_STATE 0 (if (s.die d).soft || (s.die d).softCap != 0 then 1 else 0) d else s

/-- SOFT_THROTTLE (R484): a 1 ms tick of a die, at `temp`. -/
def execSoftThrottle (die temp : Nat) (s : State) : Host.Outcome State Fault Refusal :=
  okIf (die < 25)
    (let s := s.wr Reg.THERM_STATUS_TEMP 0 temp die
    let x := s.die die
    let f := decide (die < 16)
    if 380 ≤ temp then
      let s := s.setDie die { x with soft := true, softMs := 0, softCap := if f then min 7 (max x.softCap (s.point die) + 1) else 0 }
      let s := if f then s.showSoft die else s
      if x.soft then s else (s.bump Reg.THERM_CNT_SOFT 0 1 die).thermReport die 0x0E20 temp
    else if 368 ≤ temp then s.setDie die { x with softMs := 0 }
    else
      let x := { x with soft := false }
      let x := if x.softCap = 0 then x else if x.softMs + 1 < 10 then { x with softMs := x.softMs + 1 }
        else { x with softMs := 0, softCap := x.softCap - 1 }
      let s := s.setDie die x
      if f then s.showSoft die else s)

/-- HARD_THROTTLE (R484, R485). -/
def execHardThrottle (die temp : Nat) (s : State) : Host.Outcome State Fault Refusal :=
  okIf (die < 25)
    (let st := s.rd Reg.THERM_STATUS_STATE 0 die
    let s := s.wr Reg.THERM_STATUS_TEMP 0 temp die
    if temp < 420 ∨ (die < 16 ∧ (st = 2 ∨ st = 3)) then s
    else
      let s := (s.bump Reg.THERM_CNT_HARD 0 1 die).thermReport die 0x0E21 temp
      if 16 ≤ die then s
      else
        let s := s.throttle die 7
        (s.setDie die { s.die die with ramp := 0, rampTicks := 0 }).wr Reg.THERM_STATUS_STATE 0 2 die)

/-- A trip (R482, R484): latched; a furnace die is fenced and faults its partitions, a port die takes its canes down, an annex die
its packages. Within rated conditions a furnace die's trip counts (R534). -/
def State.trip (s : State) (d temp : Nat) : State :=
  let s := (s.flag Reg.THERM_STATUS_TRIP_LATCH 0 true d).wr Reg.THERM_STATUS_STATE 0 3 d
  if d < 16 then
    ((s.wr Reg.THERM_STATUS_LAST_FAULT 0 0x0E22 d).fenceDie d).faultParts d 0x0E22 temp
      (decide (s.rd Reg.THERM_COOLANT_INLET 0 ≤ 160))
  else
    let s := s.thermReport d 0x0E22 temp
    if d < 20 then
      (upFrom (9 * (d - 16)) 9).foldl (fun t c => if [1, 2, 3, 4, 6, 7].contains (t.caneState c) then t.caneDown c else t) s
    else if d < 24 then (upFrom (8 + 6 * (d - 20)) 6).foldl State.tierLoss s
    else s

/-- THERMAL_TRIP (R484). -/
def execThermalTrip (die temp : Nat) (s : State) : Host.Outcome State Fault Refusal :=
  okIf (die < 25)
    (let t := s.wr Reg.THERM_STATUS_TEMP 0 temp die
    if temp < 460 ∨ s.on Reg.THERM_STATUS_TRIP_LATCH 0 die = true then t else t.trip die temp)

/-- LEHR_EXIT (R485): 1 s at or below 90 °C. -/
def execLehrExit (die temp : Nat) (s : State) : Host.Outcome State Fault Refusal :=
  okIf (die < 16)
    (let s := s.wr Reg.THERM_STATUS_TEMP 0 temp die
    if 360 < temp ∨ s.rd Reg.THERM_STATUS_STATE 0 die ≠ 2 then s
    else
      let s := (s.setDie die { s.die die with ramp := 7, rampTicks := 0 }).wr Reg.THERM_STATUS_STATE 0 0 die
      (s.showSoft die).thermReport die 0x0E23 temp)

/-- A write that an RW-G field or register refuses: recorded with its address and the writer's code (R19, R524). -/
def State.lockedWrite (s : State) (addr agent : Nat) : State :=
  s.devReport 0x1401 0x0F30 (addr % 2 ^ 43 + agent % 256 * 2 ^ 56)

/-- CLEAR_TRIP (R486): the die that THERM_SEL names. -/
def execClearTrip (agent : Nat) (s : State) : Host.Outcome State Fault Refusal :=
  okIf true
    (let d := s.rd Reg.THERM_SEL_DIE 0
    if agent ≠ 0 then s.lockedWrite 0x7F000005008 agent
    else if d < 25 ∧ s.rd Reg.THERM_STATUS_TEMP 0 d ≤ 360 then s.flag Reg.THERM_STATUS_TRIP_LATCH 0 false d
    else s)

/-- The median of an odd number of readings. -/
def medianOf (rs : List Int) : Int := (sortBy (fun a b => decide (a ≤ b)) rs).getD (rs.length / 2) 0

/-- Whether sensor k of a list of readings is ignored (R483). -/
def sensorBad (rs : List Int) (k : Nat) : Bool :=
  let r := rs.getD k 0
  decide (r < -160) || decide (600 < r) || decide (80 < (r - medianOf (rs.eraseIdx k)).natAbs)

/-- SENSOR_IGNORED (R483): the readings of all sensors of a die, in units of 0.25 °C: 8 of a furnace die, 2 of another. -/
def execSensorIgnored (die : Nat) (readings : List Int) (s : State) : Host.Outcome State Fault Refusal :=
  okIf (die < 25 && readings.length == (if die < 16 then 8 else 2))
    (let ks := List.range readings.length
    let bad := ks.filter (sensorBad readings)
    let good := ks.filter (fun k => !sensorBad readings k)
    let s := s.wr Reg.THERM_SENSOR_BAD 0 (bad.foldl (fun m k => m + 2 ^ k) 0) die
    let s := match good.map (fun k => (readings.getD k 0).toNat) with
      | [] => s
      | v :: r => s.wr Reg.THERM_STATUS_TEMP 0 (r.foldl max v) die
    let s := bad.foldl (fun t k =>
      let x := t.die die
      if x.said.testBit k then t
      else (t.setDie die { x with said := x.said + 2 ^ k }).thermReport die 0x0E24 (t.rd Reg.THERM_STATUS_TEMP 0 die)) s
    let st : Nat := s.rd Reg.THERM_STATUS_STATE 0 die
    if good.isEmpty then
      if st = 3 then s
      else if die < 16 then s.wr Reg.THERM_STATUS_STATE 0 4 die
      else s.trip die (s.rd Reg.THERM_STATUS_TEMP 0 die)
    else if st = 4 then (s.wr Reg.THERM_STATUS_STATE 0 0 die).showSoft die
    else s)

/-! ### Peak residency, coolant and telemetry -/

/-- P0_RESIDENCY_LIMIT (R488). -/
def execP0ResidencyLimit (die : Nat) (s : State) : Host.Outcome State Fault Refusal :=
  okIf (die < 16)
    (if s.point die ≠ 0 ∨ (s.die die).p0Ticks < 200 then s
    else ((s.setDie die { s.die die with p0Bar := 800 }).showBar die).aim die 1)

/-- P0_MINUTE_TICK (R489): the minute's bin of every die enters the store. -/
def execP0MinuteTick (s : State) : Host.Outcome State Fault Refusal :=
  okIf true ((List.range 16).foldl (fun t d =>
    let x := t.die d
    (t.setDie d { x with minute := 0, bins := (x.minute :: x.bins).take 1440 }).judgeBudget d) s)

/-- COOLANT_INLET_HIGH (R487): the coolant temperatures, reported once per episode above 40 °C. -/
def execCoolantInletHigh (inlet outlet : Nat) (s : State) : Host.Outcome State Fault Refusal :=
  okIf true
    (let was := s.inletHigh
    let s := ({ s with inletHigh := decide (160 < inlet) } : State).wr Reg.THERM_COOLANT_INLET 0 inlet |>.wr Reg.THERM_COOLANT_OUTLET 0 outlet
    if 160 < inlet ∧ was = false then s.thermReport controlDie 0x0E25 inlet else s)

/-- The sensors of R579, in their order. -/
def State.sensorList (s : State) : List (Nat × Nat) :=
  [ (1, s.rd Reg.PWR_INPUT_INPUT_W 0), (2, s.rd Reg.PWR_CAP_CAP_W 0), (3, s.rd Reg.PWR_CAP_SOURCE 0), (4, s.rd Reg.VR_INPUT_VIN 0),
    (5, s.rd Reg.THERM_COOLANT_INLET 0), (6, s.rd Reg.THERM_COOLANT_OUTLET 0), (7, s.rd Reg.MOD_COOLANT_FLOW 0),
    (8, (List.range 16).foldl (fun m d => max m (s.rd Reg.PWR_P0_INFO_USED_S 0 d)) 0), (9, s.rd Reg.PWR_BAR_WAIT_FRACTION 0),
    (10, s.rd Reg.FLT_WD_STATUS_STATE 0), (11, s.rd Reg.BOOT_STATUS_MODE 0) ] ++
  (List.range 25).map (fun d => (16 + d, s.rd Reg.THERM_STATUS_TEMP 0 d)) ++
  (List.range 16).map (fun d => (48 + d, s.point d + 256 * s.rd Reg.PWR_DIE_STATUS_LIMIT 0 d))

/-- TELEMETRY_PUBLISH (R490, R579): the bench cycles of the last 100 ms stopped on ARRIVE or WAIT, of all those in RUN, and the
sensors that crossed a threshold of their PDRs, each of which raises an event. -/
def execTelemetryPublish (waited running : Nat) (crossed : List Nat) (s : State) : Host.Outcome State Fault Refusal :=
  okIf true
    (let s := if running = 0 then
        let (v, t) := s.free
        t.wr Reg.PWR_BAR_WAIT_FRACTION 0 v.toNat
      else s.wr Reg.PWR_BAR_WAIT_FRACTION 0 (min 1023 (waited * 1024 / running))
    let evs := s.sensorList.filter (fun v => crossed.contains v.1)
    ({ s with pldmEvents := s.pldmEvents ++ evs } : State).emit (.sensors s.sensorList))

end Sys2Proof.Machine
end

