-- ==== Sys2Proof/Machine/Boot.lean ====
section
/-! DEFINITION. Starts: the boot steps, cold and warm starts, failures, safe mode and the ledger (R496 to R500, R510 to R519). -/

namespace Sys2Proof.Machine

open Sys2Proof

/-! ### Reports and the ledger -/

/-- A BOOT or FW report; INFO0 is the step of a BOOT code (R521, R524). -/
def State.bootReport (s : State) (code info0 : Nat) (dep : Bool := depCodes.contains code) : State :=
  (s.wr Reg.BOOT_STATUS_LAST_FAULT 0 code).devReport 0x1401 code info0 0 dep

/-- This start's ledger entry changed (R518). -/
def State.modLedger (s : State) (f : LedgerEnt → LedgerEnt) : State :=
  match s.ledger with
  | [] => { s with ledger := [f {}] }
  | e :: r => { s with ledger := f e :: r }

/-- A number with a bit for each true entry of a list, the first in bit 0. -/
def maskOf : List Bool → Nat
  | [] => 0
  | b :: r => (if b then 1 else 0) + 2 * maskOf r

/-- The package links as the ledger numbers them: by die, and on each die edge 0 before edge 1 (DESIGN CHOICE, assumption log 63). -/
def pkgLinks : List (Nat × Nat) :=
  (List.range 64).filterMap (fun k => if k % 4 < 2 ∧ hasEdge (k / 4) (k % 4) = true then some (k / 4, k % 4) else none)

/-- The consecutive counts of the steps (R513). -/
def State.fails (s : State) (j : Nat) : Nat := s.rd Reg.BOOT_STEP_FAILS 0 j

/-- The entry brought up to date as a step ends (R518). -/
def State.syncLedger (s : State) : State :=
  s.modLedger (fun e => { e with
    steps := (List.range 12).map (fun j => s.rd Reg.BOOT_STEP_OUTCOME 0 j + 8 * s.rd Reg.BOOT_STEP_ALT 0 j)
    fenced := maskOf ((List.range 16).map s.dieFenced)
    links := maskOf (pkgLinks.map (fun l => s.rd Reg.PKG_LINK_STATUS_STATE l.1 l.2 != 1))
    stackSet := maskOf ((List.range 8).map (fun t => s.rd Reg.MEMA_STATUS_STATE (stackDie t) == 3))
    pkgs := maskOf ((List.range 24).map (fun p => s.rd Reg.MEMB_STATUS_STATE (p / 6) (p % 6) == 3))
    canes := maskOf ((List.range 36).map (fun c => s.caneState c != 3))
    retired := min 65535 ((List.range 40960).filter (fun gp => s.on Reg.POT_INTEG_RETIRED gp)).length
    counts := (List.range 12).map s.fails })

/-- The 64 bytes of an entry (R518). -/
def LedgerEnt.bytes (e : LedgerEnt) : List Byte :=
  let counts := (e.counts.zipIdx.map (fun c => c.1 % 4 * 4 ^ c.2)).foldl (· + ·) 0
  let front := leBytes 4 e.startNo ++ leBytes 1 e.kind ++ leBytes 1 e.cause ++ leBytes 1 e.safeStep ++ leBytes 1 0 ++
    e.steps.map (fun v => BitVec.ofNat 8 v) ++ leBytes 4 e.life ++ leBytes 2 e.fault ++ leBytes 2 e.fenced ++ leBytes 3 e.links ++
    leBytes 1 e.stackSet ++ leBytes 3 e.pkgs ++ leBytes 1 0 ++ leBytes 5 e.canes ++ leBytes 1 0 ++ leBytes 2 e.retired ++
    leBytes 3 counts ++ leBytes 12 0
  front.map id ++ leBytes 4 (crc32c front)

/-! ### Parts of a start -/

/-- Every field of a list at its reset value, in the instances that `p` selects. -/
def State.resetWhere (s : State) (fs : List Field) (p : Nat → Bool) : State :=
  { s with regs := s.regs.clearIf (fun k => fs.any (fun f => f.base == k / 1099511627776) && p (k / 1048576 % 1048576)) }

/-- The fields that a cold start keeps: those of the store (R501), and the pins and the management interface of the module, which
stay powered while there is input (R577); a loss of power resets its counters. -/
def keptFields (lost : Bool) : List Field :=
  [ Reg.BOOT_POLICY_MIN_STACKS, Reg.BOOT_POLICY_MIN_PKGS, Reg.BOOT_POLICY_LOC_WAIT_S, Reg.BOOT_POLICY_FULL_S7,
    Reg.BOOT_POLICY_AUTO_RESTART, Reg.PWR_FALLBACK_FALLBACK_W, Reg.BOOT_STEP_FAILS, Reg.BOOT_STEP_NEXT, Reg.BOOT_FW_G_PEND,
    Reg.BOOT_FW_S_PEND, Reg.MOD_STATUS_LATCH, Reg.MOD_STATUS_BUTTON, Reg.MOD_STATUS_VIN_OK, Reg.MOD_STATUS_FLOW_OK,
    Reg.MOD_STATUS_CBL_PRSNT, Reg.MOD_COOLANT_FLOW, Reg.FLT_WD_STATUS_LATCH, Reg.MOD_STATUS_MGMT_ADDR, Reg.MOD_MGMT_EID,
    Reg.MOD_MGMT_DADDR ] ++
  (if lost then [] else [ Reg.MOD_MGMT_ERRORS, Reg.MOD_CNT_VIN, Reg.MOD_CNT_FLOW, Reg.MOD_CNT_BUS, Reg.MOD_CNT_PRESS, Reg.MOD_LED_IDENTIFY ])

/-- The state at the beginning of a cold start (R501, R516): reset, but for the store and what lies outside the block. The P0 minute
that a loss of power cuts short counts as spent (R489). -/
def State.coldBase (s : State) (lost : Bool) : State :=
  let bins := fun (x : DieX) => if lost then (600000 :: x.bins).take 1440 else x.bins
  { State.reset with
    regs := s.regs.filter (fun e => (keptFields lost).any (fun f => f.base == e.1 / 1099511627776))
    dies := (List.range 16).foldl (fun m d => m.put {} d { bins := bins (s.die d), minute := if lost then 0 else (s.die d).minute }) []
    pending := s.pending, freeCtr := s.freeCtr, outbox := s.outbox, readData := s.readData, hostMem := s.hostMem
    tierSpares := s.tierSpares, partGen := s.partGen, keys := s.keys, keyMin := s.keyMin, keyCounter := s.keyCounter
    banks := s.banks, activeBank := s.activeBank, altBanks := s.altBanks, minSvn := s.minSvn, ledger := s.ledger, wdFlag := s.wdFlag
    wasReady := s.ready, inletHigh := s.inletHigh, vinOut := s.vinOut, flowLow := s.flowLow, swOpen := s.swOpen
    locWait := if lost then none else s.locWait }

/-- A bench back in the unassigned state (R373, R516). Its remaps and dead pairs last until the next load or cold start, and the
trims that go with them (R167; assumption log 69). -/
def State.freeBench (s : State) (gb : Nat) : State :=
  let s := s.clearUnits gb { logical := gb } 0#64
  s.setParx gb { s.parx gb with computed := none, record := none }

/-- The mailbox request of a function is lost (R391, R548, R562). -/
def State.loseMbox (s : State) (fn : Nat) : State :=
  if s.on Reg.HOST_MBOX_STATUS_BUSY fn then (s.flag Reg.HOST_MBOX_STATUS_BUSY fn false).devReport Config.hostSource 0x1007 0 else s

/-- The state at the beginning of a warm restart (R373, R516, R519): rails, tiers, canes and the transport stay, every bench is
unassigned, and no image is left. -/
def State.warmBase (s : State) : State :=
  let s := (List.range 17).foldl State.loseMbox s
  let s := (List.range 68).foldl State.abortQueue s
  let s := (List.range 2560).foldl State.freeBench s
  let s := s.resetWhere Blk.part.fields (fun _ => true)
  let s := s.resetWhere [Reg.BATCH_STATUS_STATE, Reg.BATCH_VERSION_VERSION, Reg.NOC_BAR_CFG_HOME, Reg.NOC_BAR_CFG_SPANS,
    Reg.NOC_BAR_CFG_ARRIVED, Reg.NOC_BAR_CFG_MEMBERS, Reg.NOC_BAR_EPOCH_EXPECT, Reg.NOC_STATUS_HOMED, Reg.DMA_REG_CFG_READ,
    Reg.DMA_REG_CFG_WRITE, Reg.DMA_REG_CFG_REMOTE, Reg.DMA_REG_CFG_SHARE, Reg.DMA_REG_CFG_POOL, Reg.FLT_STATUS_DEV_COUNT,
    Reg.FLT_STATUS_HELD_LOST, Reg.BOOT_FW_S_HELD, Reg.BOOT_STATUS_LAST_FAULT, Reg.MOD_STATUS_LAST_FAULT] (fun _ => true)
  let s : State := { s with
    owner := [], logical := [], partSeed := [], bcGroups := [], load := none, imgDigest := [], power := [], quotaSum := [], buckets := [],
    trackPtr := [], pkgExcl := [], xfers := [], remoteWait := [], waits := [], longSaid := [], svRestarts := []
    fabWait := s.fabWait.filter (fun w => match w.1 with
      | .mgmt => true
      | _ => false)
    rings := (List.range 16).foldl (fun m r => m.put {} r { cur := (s.ringX r).cur }) s.rings
    devRing := [], devSeq := 0, ringReady := false, heldRecs := [], repeats := [], timeNs := 0, pastNs := s.lifeNs, fwPieces := []
    clockOff := [], wasReady := s.ready }
  let s := (List.range 16).foldl (fun t d => if t.dieFenced d then
    { t with clockOff := (upFrom (160 * d) 160).foldl (fun m gb => m.put false gb true) t.clockOff } else t) s
  ((s.wr Reg.PWR_STATUS_MODE 0 0).setDuty 64).showDetours.showPower

/-- A furnace die that a step leaves fenced: its clocks stopped, its rail dropped (R510). -/
def State.fenceAtBoot (s : State) (d : Nat) : State :=
  let s := ((s.flag Reg.PWR_DIE_STATUS_FENCED 0 true d).wr Reg.PWR_DIE_STATUS_LIMIT 0 1 d).wr Reg.VR_RAIL_VSET 0 0 d
  { s with clockOff := (upFrom (160 * d) 160).foldl (fun m gb => m.put false gb true) s.clockOff }

/-- A die that a start brings up again (R486, R517). -/
def State.unfence (s : State) (d : Nat) : State :=
  let s := if s.rd Reg.THERM_STATUS_STATE 0 d = 3 then s.wr Reg.THERM_STATUS_STATE 0 0 d else s
  let s := s.setDie d { s.die d with out := false, change := none }
  if 16 ≤ d then s
  else
    let s := (s.flag Reg.PWR_DIE_STATUS_FENCED 0 false d).resetFields [Reg.PWR_DIE_STATUS_LIMIT] 0
    let s := (s.wr Reg.PWR_DIE_STATUS_POINT 0 1 d).wr Reg.VR_RAIL_VSET 0 800 d
    { s with clockOff := (upFrom (160 * d) 160).foldl (fun m gb => m.put false gb false) s.clockOff }

/-- A die is off: fenced, tripped, or left out by S3. -/
def State.dieOut (s : State) (d : Nat) : Bool :=
  (decide (d < 16) && s.dieFenced d) || s.rd Reg.THERM_STATUS_STATE 0 d == 3 || (s.die d).out

/-- A die that a warm restart brings up again: off, its trip latch clear, fewer than three phases lost (R481, R486, R517). -/
def State.revives (s : State) (d : Nat) : Bool :=
  s.dieOut d && !s.on Reg.THERM_STATUS_TRIP_LATCH 0 d && (decide (16 ≤ d) || decide (s.rd Reg.VR_PHASES_LOSSES 0 d < 3))

/-- Every bench clock stopped: the device waits, or is in safe mode (R512, R514). -/
def State.stopAll (s : State) : State :=
  { s with clockOff := (List.range 2560).foldl (fun m gb => m.put false gb true) s.clockOff }

/-! ### Firmware banks -/

/-- The register fields of a firmware kind: bank running and bank pending. -/
def fwBank (kind : Nat) : Field := if kind = 0 then Reg.BOOT_FW_G_BANK else Reg.BOOT_FW_S_BANK
def fwPend (kind : Nat) : Field := if kind = 0 then Reg.BOOT_FW_G_PEND else Reg.BOOT_FW_S_PEND

/-- The first step whose count has reached 3 (R514). -/
def State.safeStep (s : State) : Option Nat := (List.range 12).find? (fun j => s.fails j == 3)

/-- The bank that a start uses for a kind: a pending one as a trial, else the active one, or the other by the rule of S2 and S9
(R508, R510). While a count stands at 3 the start enters safe mode, and a pending bank waits (R514). -/
def State.bankInUse (s : State) (kind : Nat) : Nat :=
  let a := s.activeBank.get 0 kind
  if (s.on (fwPend kind) 0 && s.safeStep.isNone) || s.altBanks.contains kind then 1 - a else a

/-- A bank of a kind. -/
def State.bank (s : State) (kind b : Nat) : Bank := s.banks.get {} (2 * kind + b)

/-- The banks in use, and the versions that run, shown (R520). -/
def State.showBanks (s : State) : State :=
  let g := s.bankInUse 0
  let v := s.bankInUse 1
  let s := ((s.wr Reg.BOOT_FW_G_BANK 0 g).wr Reg.BOOT_FW_S_BANK 0 v).flag Reg.BOOT_FW_ROM_GAFFER 0 false
  (s.wr Reg.BOOT_GVER_VERSION 0 (s.bank 0 g).version).wr Reg.BOOT_SVER_VERSION 0 (s.bank 1 v).version

/-- A trial that fails: pending is cleared, and the following start uses the previous bank (R508). -/
def State.revertTrial (s : State) : State :=
  [0, 1].foldl (fun t k => if t.on (fwPend k) 0 && t.rd (fwBank k) 0 != t.activeBank.get 0 k then
    (t.flag (fwPend k) 0 false).bootReport 0x0F11 0 else t) s

/-- A trial that reaches S11 (R508). -/
def State.commitTrial (s : State) : State :=
  [0, 1].foldl (fun t k =>
    let b := t.rd (fwBank k) 0
    if t.on (fwPend k) 0 && b != t.activeBank.get 0 k then
      ({ t with activeBank := t.activeBank.put 0 k b, minSvn := t.minSvn.put 0 k (max (t.minSvn.get 0 k) (t.bank k b).svn) } : State).flag
        (fwPend k) 0 false
    else t) s

/-! ### The steps -/

/-- What a start carries from step to step: whether it is warm, the dies that it brings up again, and what it meets. -/
structure Start where
  warm : Bool
  rerun : List Nat
  env : BootEnv
  deriving DecidableEq, Repr

/-- DEGRADED or PASS. -/
def passIf (ok : Bool) : Nat := if ok then 1 else 2

/-- S0 (R510, R517). -/
def State.stepS0 (s : State) (x : Start) : State × Nat :=
  if x.env.fail.contains 0 then (s, 3)
  else if x.warm then
    let out := (List.range 25).filter (fun d => s.dieOut d)
    if out.isEmpty then (s, 5)
    else
      let up := x.rerun.filter (fun d => !x.env.dies0.contains d)
      (up.foldl State.unfence s, passIf (out.all (fun d => up.contains d)))
  else
    let bad := (List.range 16).filter (fun d => x.env.dies0.contains d)
    (bad.foldl State.fenceAtBoot s, passIf bad.isEmpty)

/-- S3 (R510, R517): a failing die is fenced. -/
def State.stepS3 (s : State) (x : Start) : State × Nat :=
  let redo := if x.warm then x.rerun.filter (fun d => !s.dieOut d) else List.range 24
  let stay := if x.warm then (List.range 25).any (fun d => s.dieOut d) else false
  if x.env.fail.contains 3 then (s, 3)
  else if x.warm && redo.isEmpty && !stay then (s, 5)
  else
    let bad := redo.filter (fun d => x.env.dies3.contains d && decide (d < 24))
    let t := bad.foldl (fun t d => if d < 16 then t.fenceAtBoot d else t.setDie d { t.die d with out := true }) s
    (t, passIf (bad.isEmpty && !stay))

/-- A link after its training at boot (R362, R510). -/
def State.bootLink (s : State) (up : Bool) (l : Nat × Nat) : State :=
  let s := (s.setLink l.1 l.2 (if up then 1 else 3)).setFails l.1 l.2 0
  (s.setPkg l.1 l.2 {}).setPkg (beside l.1 l.2) (farEdge l.2) {}

/-- S4 (R510, R517). -/
def State.stepS4 (s : State) (x : Start) : State × Nat :=
  let ends := fun (l : Nat × Nat) => [l.1, beside l.1 l.2]
  let redo := if x.warm then pkgLinks.filter (fun l => s.rd Reg.PKG_LINK_STATUS_STATE l.1 l.2 != 1 || (ends l).any x.rerun.contains)
    else pkgLinks
  let far := fun (l : Nat × Nat) => (beside l.1 l.2, farEdge l.2)
  if x.env.fail.contains 4 then (s, 3)
  else if redo.isEmpty then (s, 5)
  else
    let up := fun (l : Nat × Nat) => !x.env.links.contains l && !x.env.links.contains (far l) && !(ends l).any s.dieFenced
    ((redo.foldl (fun t l => t.bootLink (up l) l) s).showDetours, passIf (redo.all up))

/-- The contents of a stack (0 to 7) or a package (8 + its number) are lost and written zero (R401, R517). -/
def State.zeroTier (s : State) (dev : Nat) : State :=
  let mine := fun (a : Nat) => (match placeOf a with
    | .tierA => true
    | .tierB => true
    | _ => false) && (ctlOf a).dev == dev
  { s with mem := s.mem.filter (fun e => !mine e.1), tierPoison := s.tierPoison.clearIf (fun k => mine (64 * k)),
           tierErr := s.tierErr.clearIf (fun k => mine (64 * k)), tierWb := s.tierWb.clearIf (fun k => mine (64 * k)) }

/-- STATE of a stack or package: field, instance and entry. -/
def tierField (dev : Nat) : Field × Nat × Nat :=
  if dev < 8 then (Reg.MEMA_STATUS_STATE, stackDie dev, 0) else (Reg.MEMB_STATUS_STATE, (dev - 8) / 6, (dev - 8) % 6)
def State.setTier (s : State) (dev v : Nat) : State := s.wr (tierField dev).1 (tierField dev).2.1 v (tierField dev).2.2
def State.tierUp (s : State) (dev : Nat) : Bool :=
  let v := s.rd (tierField dev).1 (tierField dev).2.1 (tierField dev).2.2
  v == 1 || v == 2

/-- The die that carries a stack's or a package's controller, as THERM_SEL numbers dies. -/
def tierDie (dev : Nat) : Nat := if dev < 8 then stackDie dev else 20 + (dev - 8) / 6

/-- The controller of a stack or package (R395, R524). -/
def devCtl (dev : Nat) : Ctl :=
  if dev < 8 then ⟨true, stackDie dev, 0, dev, 0x1200 + dev, 0⟩
  else ⟨false, (dev - 8) / 6, (dev - 8) % 6, dev, 0x1300 + (dev - 8), 0⟩

/-- A step that trains stacks or packages (R510, R517): `redo` are those it runs for, `up` those that train, `need` how many must be
up. The repairs recorded in the store are applied again (R403). -/
def State.trainTiers (s : State) (devs redo up : List Nat) (need : Nat) : State × Nat :=
  let spares := fun (dev : Nat) => if dev < 8 then 256 else 16
  let t := redo.foldl (fun t d => ((t.zeroTier d).showSpares (devCtl d)).setTier d
    (if !up.contains d || t.dieOut (tierDie d) then 3 else if t.tierSpares.get 0 d < spares d then 1 else 2)) s
  let n := (devs.filter t.tierUp).length
  (t, if n < need then 3 else passIf (n == devs.length))

/-- S5 and S6 (R510, R517), over the stacks or the packages; NEXT 2 skips the step. -/
def State.stepTier (s : State) (x : Start) (j : Nat) : State × Nat :=
  let devs := if j = 5 then List.range 8 else upFrom 8 24
  let up := if j = 5 then x.env.stackSet else x.env.pkgs.map (· + 8)
  let least := if j = 5 then min 8 (max 1 (s.rd Reg.BOOT_POLICY_MIN_STACKS 0)) else min 24 (max 1 (s.rd Reg.BOOT_POLICY_MIN_PKGS 0))
  let redo := if x.warm then devs.filter (fun d => !s.tierUp d || x.rerun.contains (tierDie d)) else devs
  if s.rd Reg.BOOT_STEP_NEXT 0 j = 2 then (devs.foldl (fun t d => (t.zeroTier d).setTier d 3) s, 4)
  else if redo.isEmpty then (s, 5)
  else s.trainTiers devs redo up least

/-- S7 over some dies: their pots lose their weights and what their slices were to do, and their cullet lists, retirements and
calibrations are found anew (R143, R147, R150, R169, R510, R517). A bench whose calibration the surroundings do not give has one
due. -/
def State.testDies (s : State) (x : Start) (ds : List Nat) : State :=
  let on := fun (gb : Nat) => ds.contains (gb / 160)
  let pots := [Reg.POT_CFG_VALID, Reg.POT_INTEG_RETIRED, Reg.POT_INTEG_SHADOW_OK, Reg.POT_INTEG_SUSPECT, Reg.POT_INTEG_CULLET_USED,
    Reg.POT_CULLET_VALID, Reg.POT_CULLET_SEGMENT, Reg.POT_CULLET_COLUMN, Reg.POT_CULLET_SPARE, Reg.POT_CULLET_MARGINAL,
    Reg.POT_ST_INFO_AGE, Reg.POT_ST_INFO_DEFERRALS, Reg.POT_INTEG_ST_PENDING, Reg.POT_INTEG_ST_ACTIVE, Reg.POT_INTEG_ST_KIND]
  let s := (s.resetWhere pots (fun gp => on (gp / 16))).resetWhere [Reg.BENCH_ST_STATUS_BUSY, Reg.BENCH_ST_STATUS_POT] on
  let s : State := { s with cells := s.cells.clearIf (fun k => on (k / 16384)), metaRam := s.metaRam.clearIf (fun k => on (k / 16384)),
                            pots := s.pots.clearIf (fun gp => on (gp / 16)) }
  let s := ds.foldl (fun t d => t.setDie d { t.die d with s7At := t.lifeNs }) s
  let s := x.env.cullets.foldl (fun t c =>
    if on (c.1 / 16) then t.addCullet (c.1 / 16) (c.1 % 16) c.2.1 c.2.2.1 c.2.2.2.1 c.2.2.2.2 else t) s
  let s := x.env.retired.foldl (fun t gp => if on (gp / 16) then t.retire (gp / 16) (gp % 16) else t) s
  let s := ((List.range 2560).filter on).foldl State.calDue s
  x.env.cal.foldl (fun t c => if on c.1 then t.calibrate c.1 c.2 else t) s

/-- S7 (R510, R517). -/
def State.stepS7 (s : State) (x : Start) : State × Nat :=
  let all := s.on Reg.BOOT_POLICY_FULL_S7 0
  let redo := if x.warm then s.liveDies.filter (fun d => all || x.rerun.contains d || x.env.s7Old.contains d || decide (86400 * 10 ^ 9 < s.lifeNs - (s.die d).s7At)) else s.liveDies
  if x.env.fail.contains 7 then (s, 3)
  else if x.warm && redo.isEmpty && !s.liveDies.isEmpty then (s, 5)
  else
    let bad := redo.filter (fun d => x.env.dies7.contains d)
    let t := (bad.foldl State.fenceAtBoot s).testDies x (redo.filter (fun d => !x.env.dies7.contains d))
    (t, if t.liveDies.isEmpty then 3 else passIf (bad.isEmpty && x.env.retired.isEmpty))

/-- Training of canes in S8: without a cable, or with its port die off, a cane is DOWN (R427, R573). -/
def State.trainCanes (s : State) (cs : List Nat) : State :=
  cs.foldl (fun t c => if t.cabled c && !t.dieOut (16 + c / 9) then t.startTrain c false else t.setCaneState c 5) s

/-- DEV_LOCATION written with VALID (R47); fabric requests that waited for the location start. -/
def State.setLocation (s : State) (id : Nat) : State :=
  ((((s.wr Reg.DEV_LOCATION_X 0 (id / 64 % 8)).wr Reg.DEV_LOCATION_Y 0 (id / 8 % 8)).wr Reg.DEV_LOCATION_Z 0 (id % 8)).flag
    Reg.DEV_LOCATION_VALID 0 true).pump

/-- The canes that S8 runs over without a new location: those neither UP nor UP_MGMT (R517). -/
def State.idleCanes (s : State) : List Nat := (List.range 36).filter (fun c => s.caneState c != 3 && s.caneState c != 2)

/-- S8 begins (R515, R517): held, or a location that has come is written and every cane trains, or with the identity known the canes
that are not up; otherwise it waits for the location. The Boolean says that it is held. -/
def State.beginS8 (s : State) (warm : Bool) : State × Bool :=
  match s.on Reg.DEV_LOCATION_VALID 0, s.locWait with
  | false, some id => ((({ s with locWait := none } : State).setLocation id).trainCanes (List.range 36), false)
  | true, _ => if warm && s.idleCanes.isEmpty then (s, true) else (s.trainCanes s.idleCanes, false)
  | false, none => if warm && s.idleCanes.isEmpty then (s, true) else ({ s with s8Wait := true }, false)

/-- The held records enter the device ring, in order (R531). -/
def State.releaseHeld (s : State) : State :=
  let t : State := { s with heldRecs := [], ringReady := true }
  s.heldRecs.foldl (fun t r => (t.toDevRing r).toFnRings r
    (if r.cls = 2 ∧ r.part < 16 then (t.ringOf r.part ++ [0]).eraseDups else t.ringOf r.part)) t

/-- S9 (R510, R541): the servitor runs; the device ring is made; a power loss without SAFE is reported. -/
def State.stepS9 (s : State) (x : Start) : State × Nat :=
  if x.env.fail.contains 9 then (s, 3)
  else
    let s := s.releaseHeld
    let s := if s.rd Reg.BOOT_STATUS_CAUSE 0 = 0 ∧ s.wasReady = true ∧ s.wdFlag = false then
        (s.wr Reg.MOD_STATUS_LAST_FAULT 0 0x1106).devReport 0xFFFF 0x1106 0
      else s
    (s, 1)

/-- The host link as it trained, width and rate; below x16 or 64 GT/s it is reported (R546, R565). -/
def State.linkUp (s : State) (width rate : Nat) : State :=
  let s := (((s.flag Reg.HOST_LINK_UP 0 true).flag Reg.HOST_LINK_FLIT 0 (decide (rate = 5))).wr Reg.HOST_LINK_RATE 0 rate).wr
    Reg.HOST_LINK_WIDTH 0 width
  if width = 16 ∧ rate = 5 then s else s.devReport Config.hostSource 0x1002 0

/-- S10 (R510, R517). -/
def State.stepS10 (s : State) (x : Start) (bankChange : Bool) : State × Nat :=
  if x.warm && s.on Reg.HOST_LINK_UP 0 && !bankChange then (s, 5)
  else match x.env.link with
    | none => (s.flag Reg.HOST_LINK_UP 0 false, 3)
    | some (w, r) => (s.linkUp w r, passIf (w == 16 && r == 5))

/-! ### Running the steps -/

/-- Steps that have an alternate method, and those that may be skipped, after a FAIL (R510). -/
def nextRule (j : Nat) : Nat :=
  if j = 1 then 3 else if [2, 4, 9, 10].contains j then 1 else if j = 5 ∨ j = 6 then 2 else 0

/-- A step ends with an outcome (R511, R513, R518, R520). -/
def State.endStep (s : State) (j outcome us : Nat) : State :=
  let s := (s.wr Reg.BOOT_STEP_OUTCOME 0 outcome j).wr Reg.BOOT_STEP_TIME_US 0 (min us (2 ^ 24 - 1)) j
  let s := s.flag Reg.BOOT_STEP_ALT 0 (decide (s.rd Reg.BOOT_STEP_NEXT 0 j = 1) && outcome != 5) j
  let s := s.wr Reg.BOOT_STEP_NEXT 0 (if outcome = 3 then nextRule j else 0) j
  let s := if outcome = 3 then s.wr Reg.BOOT_STEP_FAILS 0 (min 3 (s.fails j + 1)) j
    else if outcome = 1 ∨ outcome = 2 then s.wr Reg.BOOT_STEP_FAILS 0 0 j
    else s
  let s := if outcome = 2 ∨ outcome = 4 then s.flag Reg.BOOT_STATUS_DEGRADED 0 true else s
  s.syncLedger

/-- Safe mode (R514). -/
def State.enterSafe (s : State) (step : Nat) (link : Option (Nat × Nat)) : State :=
  let s := ((s.wr Reg.BOOT_STATUS_MODE 0 2).wr Reg.BOOT_STATUS_SAFE_STEP 0 step).bootReport 0x0F02 step
  let s := if step = 1 ∨ step = 2 then (s.flag Reg.BOOT_FW_ROM_GAFFER 0 true).wr Reg.BOOT_GVER_VERSION 0 0 else s
  let s := if step = 1 then s else s.modLedger (fun e => { e with safeStep := step })
  let s := (List.range 36).foldl (fun t c => (t.loseBuffer c).setCaneState c 0) s.stopAll
  match link with
  | none => s
  | some (w, r) => if s.on Reg.HOST_LINK_UP 0 then s else s.linkUp w r

/-- The rules of the steps that a start has not reached apply no more (R510). -/
def State.dropRules (s : State) (j : Nat) : State :=
  (upFrom (j + 1) (11 - j)).foldl (fun t k => t.wr Reg.BOOT_STEP_NEXT 0 0 k) s

/-- A start ends with step j's FAIL, already noted (R508, R512, R513, R514). -/
def State.failStart (s : State) (j : Nat) (link : Option (Nat × Nat)) : State :=
  let s := (s.dropRules j).modLedger (fun e => { e with fault := 0x0F01 })
  let s := (s.bootReport 0x0F01 j s.wasReady).revertTrial
  if s.fails j = 3 then s.enterSafe j link else (s.wr Reg.BOOT_STATUS_MODE 0 3).stopAll

/-- S11 (R508, R510, R541). -/
def State.stepS11 (s : State) : State :=
  let s := ((s.wr Reg.BOOT_STATUS_STEP 0 11).wr Reg.BOOT_STATUS_MODE 0 1).commitTrial
  let s := ({ s with ready := true, wdFlag := false, altBanks := [] } : State).endStep 11 1 0
  if s.on Reg.BOOT_STATUS_DEGRADED 0 then s.bootReport 0x0F03 11 else s

/-- One of the steps whose outcome is at hand. -/
def State.runStep (s : State) (x : Start) (j : Nat) : State × Nat :=
  match j with
  | 0 => s.stepS0 x
  | 1 => (s, if x.env.fail.contains 1 then 3 else passIf (x.env.ledgerBad != 1))
  | 2 =>
    let bad := [0, 1].filter (fun k => !(s.bank k (s.bankInUse k)).full || x.env.badBanks.contains k)
    let t := s.showBanks
    ({ t with altBanks := bad.filter (fun k => !t.on (fwPend k) 0) }, if bad.isEmpty && !x.env.fail.contains 2 then 1 else 3)
  | 3 => s.stepS3 x
  | 4 => s.stepS4 x
  | 5 => s.stepTier x 5
  | 6 => s.stepTier x 6
  | 7 => s.stepS7 x
  | 9 => s.stepS9 x
  | 10 => s.stepS10 x (s.on Reg.BOOT_FW_G_PEND 0)
  | _ => (s, 1)

/-- S1 ends FAIL: the store is unreadable, so neither the ledger nor a count is written, and safe mode follows at once (R512, R514). -/
def State.failStore (s : State) (link : Option (Nat × Nat)) : State :=
  let s := ({ s with ledger := s.ledger.drop 1 } : State).wr Reg.BOOT_STEP_OUTCOME 0 3 1
  ((s.wr Reg.BOOT_STEP_NEXT 0 3 1).bootReport 0x0F05 1).enterSafe 1 link

/-- The steps from `j` on, `n` of them at most: until one fails, one waits, or the start is ready. S8 waits for its canes unless it is
held; a `late` step waits for its condition or its limit. -/
def State.bootSteps (s : State) (x : Start) : Nat → Nat → State
  | 0, _ => s
  | n + 1, j =>
    let s := s.wr Reg.BOOT_STATUS_STEP 0 j
    let us := x.env.times.getD j 0
    if j = 11 then s.stepS11
    else if x.env.late.contains j then s
    else if j = 8 then
      match s.beginS8 x.warm with
      | (t, false) => t
      | (t, true) => (t.endStep 8 5 us).bootSteps x n 9
    else
      match s.runStep x j with
      | (t, 3) =>
        if j = 1 then t.failStore x.env.link
        else
          let t := if j = 9 && !t.on Reg.BOOT_FW_S_PEND 0 then { t with altBanks := [1] } else t
          (t.endStep j 3 us).failStart j x.env.link
      | (t, o) =>
        let t := t.endStep j o us
        match j, t.safeStep with
        | 2, some k => (t.modLedger (fun e => { e with kind := 2 })).enterSafe k x.env.link
        | _, _ => t.bootSteps x n (j + 1)

/-- A new ledger entry (R518). Both copies bad begin a fresh ledger, with counts of zero. -/
def State.newEntry (s : State) (warm : Bool) (cause : Nat) (env : BootEnv) : State :=
  let no := match s.ledger with
    | [] => 0
    | e :: _ => e.startNo
  let s := if 2 ≤ env.ledgerBad then
      ((List.range 12).foldl (fun t j => t.wr Reg.BOOT_STEP_FAILS 0 0 j) ({ s with ledger := [] } : State)).bootReport 0x0F04 1
    else s
  let e : LedgerEnt := { startNo := (if 2 ≤ env.ledgerBad then 0 else no) + 1, kind := if warm then 1 else 0, cause := cause, life := env.life,
                         counts := (List.range 12).map s.fails }
  { s with ledger := (e :: s.ledger).take 256 }

/-- A start (R510, R516, R517): both copies of the ledger bad make it a cold one (R518). A watchdog restart is reported once the gaffer
runs (R500). -/
def State.start (s : State) (warm : Bool) (cause : Nat) (env : BootEnv) : State :=
  let warm := warm && decide (env.ledgerBad < 2)
  let t := if warm then s.warmBase else s.coldBase (decide (cause = 0))
  let rerun := if warm then (List.range 25).filter (fun d => t.revives d) else List.range 25
  let t : State := { t with restart := none, ready := false, s8Wait := false }
  let t := (List.range 12).foldl (fun t j => ((t.wr Reg.BOOT_STEP_OUTCOME 0 0 j).wr Reg.BOOT_STEP_ALT 0 0 j).wr Reg.BOOT_STEP_TIME_US 0 0 j) t
  let t := ((t.wr Reg.BOOT_STATUS_MODE 0 0).flag Reg.BOOT_STATUS_WARM 0 warm).flag Reg.BOOT_STATUS_DEGRADED 0 false
  let t := ((t.wr Reg.BOOT_STATUS_SAFE_STEP 0 15).wr Reg.BOOT_STATUS_CAUSE 0 cause).newEntry warm cause env
  let t := if cause = 4 then t.bootReport 0x0F14 0 else t
  t.bootSteps { warm := warm, rerun := rerun, env := env } 13 0

/-! ### The commands -/

/-- COLD_START (R516): the cold restart that is due, or power-on where none is. With the hot-swap switch open there is no power good. -/
def execColdStart (env : BootEnv) (s : State) : Host.Outcome State Fault Refusal :=
  okIf true
    (if s.swOpen then s
    else match s.restart with
      | some (false, c) => s.start false c env
      | some (true, _) => s
      | none => s.start false 0 env)

/-- WARM_RESTART (R516, R517): the warm restart that is due. The SAFE of a withdraw ends only by a cold start (R538). -/
def execWarmRestart (env : BootEnv) (s : State) : Host.Outcome State Fault Refusal :=
  okIf true
    (match s.restart with
    | some (true, c) => if s.swOpen || s.rd Reg.FLT_WD_STATUS_STATE 0 == 4 then s else s.start true c env
    | _ => s)

/-- A restart becomes due; a batch load ends with no result (R519). -/
def State.askRestart (s : State) (warm : Bool) (cause : Nat) : State :=
  { s with restart := some (warm, cause), load := none }

/-- FAILURE_RESTART (R512): 1 s after a FAIL. -/
def execFailureRestart (s : State) : Host.Outcome State Fault Refusal :=
  okIf true
    (if s.rd Reg.BOOT_STATUS_MODE 0 = 3 ∧ s.on Reg.BOOT_POLICY_AUTO_RESTART 0 = true then s.askRestart true 3 else s)

/-- GAFFER_WDT (R500, R508, R512): a missed kick; a step that was running is recorded FAIL. -/
def execGafferWdt (s : State) : Host.Outcome State Fault Refusal :=
  okIf true
    (let s := if s.rd Reg.BOOT_STATUS_MODE 0 = 0 then (s.endStep (s.rd Reg.BOOT_STATUS_STEP 0) 3 0).revertTrial else s
    s.askRestart true 4)

/-- A write of BOOT_CTRL.CMD, from the gaffer or the physical function (R520). -/
def State.bootCtrl (s : State) (agent : Nat) (f : State → State) : State := if agent = 0 ∨ agent = 2 then f s else s

/-- WARM (R516, R520). -/
def execWarm (agent : Nat) (s : State) : Host.Outcome State Fault Refusal :=
  okIf true (s.bootCtrl agent (fun s => s.askRestart true 2))

/-- COLD (R516, R520). -/
def execCold (agent : Nat) (s : State) : Host.Outcome State Fault Refusal :=
  okIf true (s.bootCtrl agent (fun s => s.askRestart false 1))

/-- The consecutive counts at zero (R513). -/
def State.clearSafe (s : State) : State := (List.range 12).foldl (fun t j => t.wr Reg.BOOT_STEP_FAILS 0 0 j) s

/-- CLEAR_SAFE (R513, R519). -/
def execClearSafe (agent : Nat) (s : State) : Host.Outcome State Fault Refusal :=
  okIf true (s.bootCtrl agent State.clearSafe)

/-- RESTART_WARM and RESTART_COLD (R516, R578). -/
def execRestartWarm (s : State) : Host.Outcome State Fault Refusal := okIf true (s.askRestart true 6)
def execRestartCold (s : State) : Host.Outcome State Fault Refusal := okIf true (s.askRestart false 5)

/-- A start is under way at step j; a withdraw ends it (R539). -/
def State.atStep (s : State) (j : Nat) : Bool :=
  s.rd Reg.BOOT_STATUS_STEP 0 == j && s.rd Reg.BOOT_STATUS_MODE 0 == 0 && s.rd Reg.FLT_WD_STATUS_STATE 0 == 0

/-- Step S8 waits for its location or its canes. -/
def State.inS8 (s : State) : Bool := s.atStep 8

/-- LOC_WAIT_TIMEOUT (R515). -/
def execLocWaitTimeout (s : State) : Host.Outcome State Fault Refusal :=
  okIf true
    (if s.inS8 && s.s8Wait then
      let t := ({ s with s8Wait := false } : State).bootReport 0x0F06 8
      t.trainCanes t.idleCanes
    else s)

/-- LOCATION (R47, R515, R578): written when S8 waits for it, kept otherwise. With the identity valid, another value is refused. -/
def execLocation (id : Nat) (s : State) : Host.Outcome State Fault Refusal :=
  okIf (id < 512)
    (if s.on Reg.DEV_LOCATION_VALID 0 then s.emit (.pldm (if id = s.devId then 0 else 2))
    else if s.inS8 && s.s8Wait then
      ((({ s with s8Wait := false, locWait := none } : State).setLocation id).trainCanes (List.range 36)).emit (.pldm 0)
    else ({ s with locWait := some id } : State).emit (.pldm 0))

/-- DEV_LOCATION_WRITE (R19, R47): the gaffer writes identity and VALID at once; a valid identity stays until the next cold start. -/
def execDevLocationWrite (agent id : Nat) (s : State) : Host.Outcome State Fault Refusal :=
  okIf (id < 512)
    (if agent ≠ 0 then s.lockedWrite 0x7F000000040 agent
    else if s.on Reg.DEV_LOCATION_VALID 0 then s
    else s.setLocation id)

/-- CANE_TRAINING_DONE (R427, R510, R517): every cane has reached UP, UP_MGMT, DOWN or MISWIRED; S8 ends, and the start goes on. -/
def execCaneTrainingDone (env : BootEnv) (s : State) : Host.Outcome State Fault Refusal :=
  okIf true
    (if !s.inS8 || s.s8Wait || (List.range 36).any (fun c => [0, 1, 4].contains (s.caneState c)) then s
    else
      let all := (List.range 36).all (fun c => s.caneState c == 3)
      let t := s.endStep 8 (passIf (all && s.on Reg.DEV_LOCATION_VALID 0)) (env.times.getD 8 0)
      t.bootSteps { warm := s.on Reg.BOOT_STATUS_WARM 0, rerun := [], env := env } 4 9)

/-- BOOT_STEP_LIMIT (R510): the running step has not met its condition in time. S8 never fails. -/
def execBootStepLimit (s : State) : Host.Outcome State Fault Refusal :=
  okIf true
    (let j := s.rd Reg.BOOT_STATUS_STEP 0
    if s.atStep j = false ∨ j = 8 ∨ 11 ≤ j then s
    else if j = 1 then s.failStore none
    else
      let s := if j = 9 && !s.on Reg.BOOT_FW_S_PEND 0 then { s with altBanks := [1] } else s
      (s.endStep j 3 0).failStart j none)

/-- HOST_LINK_UP (R546, R548): the port trains, at a width and a rate; a start that waits for it in S10 goes on. -/
def execHostLinkUp (width rate : Nat) (s : State) : Host.Outcome State Fault Refusal :=
  okIf (decide (1 ≤ width) && decide (width ≤ 16) && decide (rate ≤ 5))
    (let t := s.linkUp width rate
    if s.atStep 10 then
      (t.endStep 10 (passIf (width == 16 && rate == 5)) 0).stepS11
    else t)

/-! ### The servitor -/

/-- BOOT_HEARTBEAT (R499, R520): a write by the servitor alone. -/
def execBootHeartbeat (agent value : Nat) (s : State) : Host.Outcome State Fault Refusal :=
  okIf true (if agent = 1 then s.wr Reg.BOOT_HEARTBEAT_COUNT 0 value else s)

/-- HEARTBEAT_TIMEOUT (R499, R510, R562): 1 s without a heartbeat. In S9 the step fails; later the servitor starts again, its mailbox
commands lost, or is held at the third time within an hour. -/
def execHeartbeatTimeout (s : State) : Host.Outcome State Fault Refusal :=
  okIf true
    (let mode := s.rd Reg.BOOT_STATUS_MODE 0
    if s.atStep 9 then
      let s := if s.on Reg.BOOT_FW_S_PEND 0 then s else { s with altBanks := [1] }
      (s.endStep 9 3 0).failStart 9 none
    else if mode ≠ 1 ∨ s.on Reg.BOOT_FW_S_HELD 0 = true then s
    else
      let recent := s.svRestarts.filter (fun t => s.timeNs < t + 3600000000000)
      let s := (List.range 17).foldl (fun t fn =>
        let cmd := ofBytes ((t.mbox.get [] fn).take 2)
        if t.on Reg.HOST_MBOX_STATUS_BUSY fn && (cmd == 7 || cmd == 8) then
          (t.endMbox fn 0x1007).devReport Config.hostSource 0x1007 0
        else t) s
      let s : State := { s with svRestarts := s.timeNs :: recent }
      if 2 ≤ recent.length then (s.flag Reg.BOOT_FW_S_HELD 0 true).bootReport 0x0F13 0 else s.bootReport 0x0F12 0)

end Sys2Proof.Machine
end

