-- ==== Sys2Proof/Machine/Firmware.lean ====
section
/-! DEFINITION. The mailbox and what it serves: loads, keys, firmware images, attestation and the ledger (R501 to R509, R562). -/

namespace Sys2Proof.Machine

open Sys2Proof

/-! ### Requests and responses -/

/-- The partition that a function owns (R389, R565). -/
def State.fnPart (s : State) (fn : Nat) : Option Nat :=
  (List.range 16).find? (fun p => s.on Reg.PART_CFG_VALID 0 p && s.rd Reg.PART_CFG_HOST_FN 0 p == fn)

/-- The mailbox buffer of a function, and a little-endian field of it (R562). -/
def State.mboxOf (s : State) (fn : Nat) : List Byte := s.mbox.get [] fn
def State.mboxField (s : State) (fn o n : Nat) : Nat := ofBytes (((s.mboxOf fn).drop o).take n)
def State.mboxCmd (s : State) (fn : Nat) : Nat := s.mboxField fn 0 2

/-- A buffer with bytes at an offset, within its 4 KiB; what nothing has written is zero. -/
def putBytes (buf : List Byte) (o : Nat) (bs : List Byte) : List Byte :=
  let pad := buf ++ List.replicate (o - buf.length) 0#8
  (pad.take o ++ bs ++ pad.drop (o + bs.length)).take 4096

/-- A response: CMD, LEN and the payload from byte 8 on, over the request (R562). -/
def State.respondMbox (s : State) (fn cmd : Nat) (payload : List Byte) : State :=
  let head := leBytes 2 cmd ++ leBytes 2 payload.length ++ leBytes 4 0
  let t : State := { s with mbox := s.mbox.put [] fn (putBytes (s.mboxOf fn) 0 (head ++ payload)) }
  t.endMbox fn 0

/-- A request refused or lost (R562). -/
def State.refuseMbox (s : State) (fn : Nat) : State := (s.endMbox fn 0x1007).devReport Config.hostSource 0x1007 0

/-- Whether a function may send a CMD now (R514, R562). In safe mode the physical function alone is served, with the ledger, images
and keys; a load is refused under its own code. The servitor serves telemetry, and the ledger unless it is held. -/
def State.mayAsk (s : State) (fn cmd : Nat) : Bool :=
  let pf := fn == 0
  let safe := s.rd Reg.BOOT_STATUS_MODE 0 == 2
  if safe then pf && [1, 2, 5, 6, 7].contains cmd
  else match cmd with
    | 1 => pf || (s.fnPart fn).isSome
    | 2 => pf || (s.fnPart fn).isSome
    | 3 => pf
    | 4 => true
    | 5 => true
    | 6 => pf
    | 7 => pf && s.ringReady
    | 8 => s.ringReady && !s.on Reg.BOOT_FW_S_HELD 0
    | _ => false

/-- HOST_MBOX_CTRL.GO (R562): ignored while a request runs; a request that may not be sent completes at once. -/
def State.mboxGo (s : State) (fn : Nat) : State :=
  if s.on Reg.HOST_MBOX_STATUS_BUSY fn then s
  else if s.mayAsk fn (s.mboxCmd fn) then s.flag Reg.HOST_MBOX_STATUS_BUSY fn true
  else s.refuseMbox fn

/-- A request of a function runs and is to be served. -/
def State.asked (s : State) (fn cmd : Nat) : Bool :=
  s.on Reg.HOST_MBOX_STATUS_BUSY fn && s.mboxCmd fn == cmd && !(match s.load with
    | some x => x.mbox && x.fn == fn
    | none => false)

/-! ### Loads -/

/-- The partition of a load request: a virtual function's own; the physical function names it (DESIGN CHOICE, assumption log 64). -/
def State.askedPart (s : State) (fn o : Nat) : Nat := if fn = 0 then s.mboxField 0 o 1 % 16 else (s.fnPart fn).getD 0

/-- MBOX_PARTITION_LOAD (R392, R562): the host address and the length stand in the payload. -/
def execMboxPartitionLoad (fn : Nat) (s : State) : Host.Outcome State Fault Refusal :=
  okIf (decide (fn < 17))
    (if s.asked fn 1 then
      let a := s.mboxField fn 8 8
      let t := if s.load.isNone then
          ((s.wr Reg.BATCH_SRC_LO_ADDR_LO 0 (a / 64)).wr Reg.BATCH_SRC_HI_ADDR_HI 0 (a / 2 ^ 32)).wr Reg.BATCH_LEN_LEN 0 (s.mboxField fn 16 4)
        else s
      t.startLoad 1 (s.askedPart fn 20) fn true
    else s)

/-- MBOX_PARTITION_UNLOAD (R388, R562). -/
def execMboxPartitionUnload (fn : Nat) (s : State) : Host.Outcome State Fault Refusal :=
  okIf (decide (fn < 17)) (if s.asked fn 2 then s.startLoad 2 (s.askedPart fn 8) fn true else s)

/-! ### Keys -/

/-- The fields of a key command (R503), at payload offset 8. -/
def State.keyField (s : State) (o n : Nat) : Nat := s.mboxField 0 (8 + o) n
def State.keyOp (s : State) : Nat := s.keyField 4 1
def State.keySlot (s : State) : Nat := s.keyField 5 1
def State.newKey (s : State) : Nat := bigEndian (((s.mboxOf 0).drop 36).take 96)

/-- The signature of a key command by a key: over the SHA-384 digest of bytes 0 to 127 (R503). -/
def State.keySigned (s : State) (key : Option Nat) : Bool :=
  match key with
  | none => false
  | some k => Config.signatureOk k (Config.sha384 (((s.mboxOf 0).drop 8).take 128)) (bigEndian (((s.mboxOf 0).drop 136).take 96))

/-- What every key command must satisfy (R503, R504). -/
def State.keyCommon (s : State) : Bool :=
  s.keyField 0 4 == 0xB47C4B59 && decide (s.keySlot < 8) && s.keyField 8 5 == serialNow && decide (s.keyCounter < s.keyField 20 4)

/-- A whole image is loaded: it marks partitions VALID (R504). -/
def State.wholeLoaded (s : State) : Bool := (List.range 16).any (fun p => s.on Reg.PART_CFG_VALID 0 p)

/-- The signature rule of R504. -/
def State.keyAllowed (s : State) : Bool :=
  let k := s.keySlot
  match s.keyOp with
  | 0 => if k = 0 then (match s.keyOf 0 with
        | none => !s.wholeLoaded && s.keySigned (some s.newKey)
        | some old => s.keySigned (some old))
      else s.keySigned (s.keyOf 0)
  | 1 => k != 0 && s.keySigned (s.keyOf 0)
  | 2 => decide (s.keyMin.get 0 k < s.keyField 24 4) && s.keySigned (s.keyOf 0)
  | _ => false

/-- A key command is served: it waits for the end of a load; accepted, it stores COUNTER and applies (R504). -/
def State.keyCommand (s : State) (mine : Bool) (apply : State → State) : State :=
  if !s.asked 0 3 || !mine || s.rd Reg.BATCH_STATUS_STATE 0 != 0 then s
  else if s.keyCommon && s.keyAllowed then
    ((apply { s with keyCounter := s.keyField 20 4 }).bootReport 0x0F20 0).endMbox 0 0
  else (s.bootReport 0x0F21 0).endMbox 0 0x0F21

/-- KEY_INSTALL (R504); an unknown OP is refused here. -/
def execKeyInstall (s : State) : Host.Outcome State Fault Refusal :=
  okIf true (s.keyCommand (s.keyOp != 1 && s.keyOp != 2) (fun t => { t with keys := t.keys.put 0 s.keySlot (s.newKey + 1) }))

/-- KEY_REVOKE (R504). -/
def execKeyRevoke (s : State) : Host.Outcome State Fault Refusal :=
  okIf true (s.keyCommand (s.keyOp == 1) (fun t => { t with keys := t.keys.put 0 s.keySlot 0 }))

/-- KEY_RAISE_MINIMUM (R504). -/
def execKeyRaiseMinimum (s : State) : Host.Outcome State Fault Refusal :=
  okIf true (s.keyCommand (s.keyOp == 2) (fun t => { t with keyMin := t.keyMin.put 0 s.keySlot (s.keyField 24 4) }))

/-! ### Firmware images -/

/-- Checks of a firmware image (R506, R507). -/
def State.fwImageOk (s : State) (img : List Byte) : Bool :=
  let kind := imgField img 4 1
  let len := imgField img 12 4
  decide (168 ≤ img.length) && imgField img 0 4 == 0xB47CF1A6 && decide (kind < 2) && len % 64 == 0 &&
    decide (len ≤ (if kind = 0 then 4194048 else 25165568)) && img.length == 64 + len + 104 && imgCrcOk img &&
    Config.firmwareOk (imgDigestOf img) (imgSignature img) && imgField img 16 2 == s.rd Reg.DEV_ID_PART_CODE 0 &&
    (imgField img 18 1 == 0xFF || imgField img 18 1 == s.rd Reg.DEV_ID_STEP_LETTER 0 * 16 + s.rd Reg.DEV_ID_STEP_DIGIT 0) &&
    decide (s.minSvn.get 0 kind ≤ imgField img 6 2)

/-- Steps 2 and 3 of an update (R507): a good image enters the inactive bank, pending; the code that ends the request. -/
def State.takeImage (s : State) (img : List Byte) : State × Nat :=
  if s.fwImageOk img then
    let kind := imgField img 4 1
    let b : Bank := { full := true, svn := imgField img 6 2, version := imgField img 8 4,
                      digest := Config.sha384 (img.take (64 + imgField img 12 4)) }
    (({ s with banks := s.banks.put {} (2 * kind + (1 - s.activeBank.get 0 kind)) b } : State).flag (fwPend kind) 0 true, 0)
  else (s.bootReport 0x0F10 0, 0x0F10)

/-- FW_UPDATE (R507): `img` is what stands at the request's host address; it passes through the staging area. An image that cannot
reach it, die 0 being cut (R25), is bad (DESIGN CHOICE, assumption log 90). -/
def execFwUpdate (img : List Byte) (s : State) : Host.Outcome State Fault Refusal :=
  okIf true
    (if !s.asked 0 6 then s
    else if s.rd Reg.BATCH_STATUS_STATE 0 ≠ 0 then (s.bootReport 0x0F15 0).endMbox 0 0x0F15
    else if img.length ≠ s.mboxField 0 16 4 then s
    else if s.stageCut img.length then (s.bootReport 0x0F10 0).endMbox 0 0x0F10
    else
      let (t, code) := (s.storeBytes stagingBase img).takeImage img
      t.endMbox 0 code)

/-! ### Attestation, certificates, ledger and telemetry -/

/-- The measurements M0 to M20 as a function may see them (R509). -/
def State.measurements (s : State) (fn : Nat) : List Nat :=
  let keys := (List.range 8).map (fun k => s.keys.get 0 k) ++ (List.range 8).map (fun k => s.keyMin.get 0 k) ++ [s.keyCounter]
  [ Config.romDigest, if s.on Reg.BOOT_FW_ROM_GAFFER 0 then 0 else (s.bank 0 (s.rd Reg.BOOT_FW_G_BANK 0)).digest,
    (s.bank 1 (s.rd Reg.BOOT_FW_S_BANK 0)).digest, Config.keyTableDigest keys, s.imgDigest.get 0 16 ] ++
  (List.range 16).map (fun p => if fn = 0 ∨ s.fnPart fn = some p then s.imgDigest.get 0 p else 0)

/-- A digest in 48 bytes, big-endian. -/
def digestBytes (d n : Nat) : List Byte := (leBytes n d).reverse

/-- The report that the signature covers (R509): the widths of its fields are those of their registers (DESIGN CHOICE, assumption log 64). -/
def State.attestation (s : State) (fn : Nat) (nonce : List Byte) : List Byte :=
  let id := s.rd Reg.DEV_ID_PART_CODE 0 * 65536 + s.rd Reg.DEV_ID_STEP_LETTER 0 * 16 + s.rd Reg.DEV_ID_STEP_DIGIT 0
  let e := s.ledger.headD {}
  leBytes 4 id ++ leBytes 5 serialNow ++ leBytes 4 e.startNo ++ leBytes 1 e.kind ++ leBytes 1 (s.rd Reg.BOOT_STATUS_MODE 0) ++
    (s.measurements fn).flatMap (fun m => digestBytes m 48) ++ nonce

/-- ATTESTATION (R509): the nonce is the payload. -/
def execAttestation (fn : Nat) (s : State) : Host.Outcome State Fault Refusal :=
  okIf (decide (fn < 17))
    (if s.asked fn 4 then
      let b := s.attestation fn ((((s.mboxOf fn).drop 8).take 32) ++ List.replicate (32 - ((s.mboxOf fn).drop 8).length) 0#8)
      s.respondMbox fn 4 (b ++ digestBytes (Config.attestSign (Config.sha384 b)) 96)
    else s)

/-- A piece of the certificate chain of 16 KiB (R501, R505): what the 4 KiB buffer takes behind the 8 bytes before a payload (DESIGN CHOICE, assumption log 64). -/
def certPiece (k : Nat) : List Byte := (upFrom (4088 * k) (min 4088 (16384 - 4088 * k))).map Config.certByte

/-- CERT_CHAIN (R505): the payload names the piece (DESIGN CHOICE, assumption log 64). -/
def execCertChain (fn : Nat) (s : State) : Host.Outcome State Fault Refusal :=
  okIf (decide (fn < 17)) (if s.asked fn 5 then s.respondMbox fn 5 (certPiece (s.mboxField fn 8 4)) else s)

/-- A record of the fault log: the device ring, or the held records where it does not exist (R514, R531). -/
def State.faultLog (s : State) : List FaultRec := if s.ringReady then s.devRing else s.heldRecs

/-- The bytes of record k of the fault log, with its index in the device ring as SEQ. -/
def State.logBytes (s : State) (k : Nat) : List Byte :=
  match s.faultLog[k]? with
  | some r => r.bytes false ((s.devSeq + k - s.devRing.length) % 65536)
  | none => []

/-- LEDGER_READ (R514, R518, R562): the payload names an entry and the first record; the answer holds the entry and the records that
the buffer takes (DESIGN CHOICE, assumption log 64). -/
def execLedgerRead (s : State) : Host.Outcome State Fault Refusal :=
  okIf true
    (if s.asked 0 7 then
      let e := (s.ledger[s.mboxField 0 8 4]?).map LedgerEnt.bytes
      s.respondMbox 0 7 (e.getD (List.replicate 64 0#8) ++ (upFrom (s.mboxField 0 12 4) 125).flatMap s.logBytes)
    else s)

/-- TELEMETRY_SNAPSHOT (R562): the servitor's snapshot, whose contents are its firmware's. -/
def execTelemetrySnapshot (fn : Nat) (bs : List Byte) (s : State) : Host.Outcome State Fault Refusal :=
  okIf (decide (fn < 17)) (if s.asked fn 8 then s.respondMbox fn 8 bs else s)

end Sys2Proof.Machine
end

