-- ==== Sys2Proof/Machine/Service.lean ====
section
/-! DEFINITION. Withdraw, the fault rings' host side, and the module's input, coolant, management bus and panel (R529, R530, R537 to
R545, R567 to R588). -/

namespace Sys2Proof.Machine

open Sys2Proof

/-! ### Function rings -/

/-- RING_INTERRUPT (R530): the ring's vector is signalled while HEAD differs from TAIL. -/
def execRingInterrupt (fn : Nat) (s : State) : Host.Outcome State Fault Refusal :=
  okIf (decide (fn < 17))
    (if s.on Reg.FLT_RING_CFG_ENABLE 0 fn && s.rd Reg.FLT_RING_HEAD_HEAD 0 fn != s.rd Reg.FLT_RING_TAIL_TAIL 0 fn then
      s.signal fn (s.rd Reg.FLT_RING_CFG_VECTOR 0 fn)
    else s)

/-- The number of a function's agent (R19, R497), and whether an agent reaches a function's own registers: the function itself, and
for fault rings the physical function and the servitor (R543). -/
def agentOf (fn : Nat) : Nat := if fn = 0 then 2 else 16 + fn
def reachesRing (agent fn : Nat) : Bool := decide (agent ≤ 2) || agent == agentOf fn

/-- TAIL written by the host; one that leaves more than the ring's size unread is ignored (R529, R543). -/
def State.setRingTail (s : State) (fn value : Nat) : State :=
  if s.ringSize fn < (s.rd Reg.FLT_RING_HEAD_HEAD 0 fn + 65536 - value % 65536) % 65536 then s
  else s.wr Reg.FLT_RING_TAIL_TAIL 0 value fn

/-- FLT_RING_TAIL_WRITE (R529, R543). -/
def execFltRingTailWrite (agent fn value : Nat) (s : State) : Host.Outcome State Fault Refusal :=
  okIf (decide (fn < 17)) (if reachesRing agent fn then s.setRingTail fn value else s)

/-! ### Withdraw -/

/-- A MOD report (R544, R545, R588). -/
def State.modReport (s : State) (code info0 : Nat) : State :=
  (s.wr Reg.MOD_STATUS_LAST_FAULT 0 code).devReport 0xFFFF code info0

/-- The withdraw state changes; sensor 10 raises an event (R579). -/
def State.setWd (s : State) (v : Nat) : State :=
  let t := s.wr Reg.FLT_WD_STATUS_STATE 0 v
  if s.rd Reg.FLT_WD_STATUS_STATE 0 = v then t else { t with pldmEvents := t.pldmEvents ++ [(10, v)] }

/-- A NOTICE to the partner of every cane in UP (R537, R538). -/
def State.sendNotices (s : State) (cause : Nat) : State :=
  let body := leBytes 4 (cause + 256 * s.rd Reg.FLT_WD_STATUS_GRACE_LEFT 0)
  ((List.range 36).filter (fun c => s.caneState c == 3)).foldl (fun t c =>
    (t.submit .mgmt { typ := 0x0B, dst := s.crd Reg.CANE_PARTNER_DEVICE c, len := 4, payload := body } 0).1) s

/-- The function rings of every partition that is not EMPTY, and the physical function's (R538). -/
def State.partRings (s : State) : List Nat :=
  let ps := (List.range 16).filter (fun p => s.rd Reg.PART_STATUS_STATE 0 p != 0)
  (0 :: ps.map (fun p => s.rd Reg.PART_CFG_HOST_FN 0 p)).eraseDups

/-- DRAIN (R538); a batch load not yet in QUIESCE ends (R391). -/
def State.enterDrain (s : State) : State :=
  let s := (({ s.abortLoad with graceAt := 0 } : State).setWd 1).wr Reg.FLT_WD_STATUS_GRACE_LEFT 0 (min 2047 (s.rd Reg.FLT_WD_CFG_GRACE_S 0))
  let s := (s.wr Reg.MOD_STATUS_LAST_FAULT 0 0x1101).record (mkRec 0x1101 0 255 0xFFFF 31 0 0) s.partRings
  s.sendNotices 1

/-- STOP (R538): HALT on every bench of the partitions that are still READY or FAULTED. -/
def State.enterStop (s : State) : State :=
  let s := (s.setWd 2).wr Reg.FLT_WD_STATUS_GRACE_LEFT 0 0
  let ps := (List.range 16).filter (fun p => 2 ≤ s.rd Reg.PART_STATUS_STATE 0 p)
  ((List.range 2560).filter (fun gb => ps.contains (s.partOf gb) && s.seqState gb == .run)).foldl State.haltBench s

/-- A withdraw request before S11: the current step ends, later ones stay NOT_RUN, and LEAVE follows (R539). -/
def State.leaveBoot (s : State) : State := ({ s with s8Wait := false, restart := none } : State).setWd 3

/-- A request (R539): DRAIN from IDLE; in DRAIN it cancels; later it is ignored. -/
def State.askWithdraw (s : State) : State :=
  match s.rd Reg.FLT_WD_STATUS_STATE 0 with
  | 0 => if s.ready then s.enterDrain else s.leaveBoot
  | 1 => ((s.sendNotices 2).setWd 0 |>.wr Reg.FLT_WD_STATUS_GRACE_LEFT 0 0).modReport 0x1102 0
  | _ => s

/-- A forced withdraw (R539): in IDLE or DRAIN. -/
def State.forceWithdraw (s : State) : State :=
  if 2 ≤ s.rd Reg.FLT_WD_STATUS_STATE 0 then s
  else
    let s := ((s.flag Reg.FLT_WD_STATUS_FORCED 0 true).modReport 0x1103 0).abortLoad
    if s.ready then s.enterStop else s.leaveBoot

/-- WITHDRAW_BUTTON (R539, R582): the button, `down` or up again; a press has lasted 0.5 s. -/
def execWithdrawButton (down : Bool) (s : State) : Host.Outcome State Fault Refusal :=
  okIf true
    (let t := s.flag Reg.MOD_STATUS_BUTTON 0 down
    if down then (t.bump Reg.MOD_CNT_PRESS 0).askWithdraw else t)

/-- WITHDRAW_FORCED (R539): a press held 10 s. -/
def execWithdrawForced (s : State) : Host.Outcome State Fault Refusal :=
  okIf true (s.flag Reg.MOD_STATUS_BUTTON 0 true).forceWithdraw

/-- WITHDRAW_REQ (R539, R543): FLT_WD_CFG.REQ, from the physical function or the servitor. -/
def execWithdrawReq (agent : Nat) (s : State) : Host.Outcome State Fault Refusal :=
  okIf true (if agent = 1 ∨ agent = 2 then s.askWithdraw else s)

/-- WITHDRAW (R539, R578): the effecter's state 1. -/
def execWithdraw (state : Nat) (s : State) : Host.Outcome State Fault Refusal :=
  okIf true (if state = 1 then s.askWithdraw else s)

/-- GRACE_EXPIRY (R538). -/
def execGraceExpiry (s : State) : Host.Outcome State Fault Refusal :=
  okIf true (if s.rd Reg.FLT_WD_STATUS_STATE 0 = 1 then s.enterStop else s)

/-- WITHDRAW_STOP_DONE (R538): every partition is EMPTY, in STOP, or in DRAIN, which then passes STOP at once. -/
def execWithdrawStopDone (s : State) : Host.Outcome State Fault Refusal :=
  okIf true
    (let st := s.rd Reg.FLT_WD_STATUS_STATE 0
    if (st = 1 ∨ st = 2) ∧ (List.range 16).all (fun p => s.rd Reg.PART_STATUS_STATE 0 p == 0) = true then
      (s.setWd 3).wr Reg.FLT_WD_STATUS_GRACE_LEFT 0 0
    else s)

/-- Rails off but the control die's (R538): every clock stopped, tier contents lost, canes off. -/
def State.railsOff (s : State) : State :=
  let s := (List.range 32).foldl (fun t d => (t.zeroTier d).setTier d 3) s.stopAll
  let s := (List.range 16).foldl (fun t d => t.wr Reg.VR_RAIL_VSET 0 0 d) s
  (List.range 36).foldl (fun t c => t.setCaneState c 0) s

/-- LEAVE_DONE (R538, R541): no TID is held, or 2 × 2^TMO ns have passed. -/
def execLeaveDone (timeout : Bool) (s : State) : Host.Outcome State Fault Refusal :=
  okIf true
    (if s.rd Reg.FLT_WD_STATUS_STATE 0 ≠ 3 ∨ (timeout = false ∧ s.txns ≠ []) then s
    else
      let s := s.sendNotices 3
      let s := (List.range 36).foldl State.parkCane s
      (({ s.railsOff with wdFlag := true } : State).setWd 4).modReport 0x1104 0)

/-- LATCH_OPEN (R540, R582, R586): the latch sensor; an opening outside SAFE is reported and forces a withdraw. -/
def execLatchOpen (closed : Bool) (s : State) : Host.Outcome State Fault Refusal :=
  okIf true
    (let t := (s.flag Reg.FLT_WD_STATUS_LATCH 0 closed).flag Reg.MOD_STATUS_LATCH 0 closed
    if closed ∨ s.on Reg.FLT_WD_STATUS_LATCH 0 = false ∨ s.rd Reg.FLT_WD_STATUS_STATE 0 = 4 then t
    else (t.modReport 0x1105 0).forceWithdraw)

/-! ### Input and coolant -/

/-- The input voltage lies within 48.0 V to 58.0 V (R569). -/
def vinOk (vin : Nat) : Bool := decide (4800 ≤ vin) && decide (vin ≤ 5800)

/-- MOD_VIN_RANGE, once per episode (R569). -/
def State.vinEpisode (s : State) (vin : Nat) : State :=
  let t := s.flag Reg.MOD_STATUS_VIN_OK 0 false
  if s.vinOut then t else (({ t with vinOut := true } : State).bump Reg.MOD_CNT_VIN 0).modReport 0x1110 vin

/-- VIN_OUT_OF_RANGE (R569): for 1 ms, in units of 10 mV; reported once per episode. -/
def execVinOutOfRange (vin : Nat) (s : State) : Host.Outcome State Fault Refusal :=
  okIf true
    (let s := s.wr Reg.VR_INPUT_VIN 0 vin
    if vinOk vin then s else s.vinEpisode vin)

/-- HOT_SWAP_OPEN (R516, R569, R577): below 44.0 V for 1 ms, which is also 1 ms out of range, or above 59.5 V for 100 µs the switch opens. Power good is lost, and a cold start is due; below
44.0 V the management interface is without power as well. -/
def execHotSwapOpen (vin : Nat) (s : State) : Host.Outcome State Fault Refusal :=
  okIf true
    (let s := (s.wr Reg.VR_INPUT_VIN 0 vin).flag Reg.MOD_STATUS_VIN_OK 0 (vinOk vin)
    if 4400 ≤ vin ∧ vin ≤ 5950 then s
    else
      let s := if vin < 4400 then s.vinEpisode vin else s
      let t : State := { s.stopAll with swOpen := true, restart := some (false, 0), load := none }
      if vin < 4400 then ((t.flag Reg.MOD_STATUS_MGMT_ADDR 0 false).wr Reg.MOD_MGMT_DADDR 0 0).wr Reg.MOD_MGMT_EID 0 0 else t)

/-- VIN_RETURN (R569): 100 ms within range end an episode, and close the switch; the cold start that is due follows. -/
def execVinReturn (vin : Nat) (s : State) : Host.Outcome State Fault Refusal :=
  okIf true
    (let s := s.wr Reg.VR_INPUT_VIN 0 vin
    if vinOk vin then ({ s with vinOut := false, swOpen := false } : State).flag Reg.MOD_STATUS_VIN_OK 0 true else s)

/-- COOLANT_FLOW_LOW (R575): the flow of 5 s, in units of 0.01 L/min. -/
def execCoolantFlowLow (flow : Nat) (s : State) : Host.Outcome State Fault Refusal :=
  okIf true
    (let t := s.wr Reg.MOD_COOLANT_FLOW 0 flow
    if flow < 300 then
      if s.flowLow then t
      else ((({ t with flowLow := true } : State).flag Reg.MOD_STATUS_FLOW_OK 0 false).bump Reg.MOD_CNT_FLOW 0).modReport 0x1111 flow
    else if 350 ≤ flow then ({ t with flowLow := false } : State).flag Reg.MOD_STATUS_FLOW_OK 0 true
    else t)

/-! ### Management bus -/

/-- MGMT_BUS_FAULT (R581, R588): a stuck line, or 16 transactions that failed parity; the target is reset and waits for ENTDAA. -/
def execMgmtBusFault (parity : Bool) (s : State) : Host.Outcome State Fault Refusal :=
  okIf true
    (let s := if parity then s.bump Reg.MOD_MGMT_ERRORS 0 16 else s
    let s := ((s.bump Reg.MOD_CNT_BUS 0).flag Reg.MOD_STATUS_MGMT_ADDR 0 false).wr Reg.MOD_MGMT_DADDR 0 0
    s.modReport 0x1112 (if parity then 1 else 0))

/-- ENTDAA (R577). -/
def execEntdaa (addr : Nat) (s : State) : Host.Outcome State Fault Refusal :=
  okIf (decide (addr < 128))
    (if s.on Reg.MOD_STATUS_MGMT_ADDR 0 then s else (s.flag Reg.MOD_STATUS_MGMT_ADDR 0 true).wr Reg.MOD_MGMT_DADDR 0 addr)

/-- SET_ENDPOINT_ID (R577). -/
def execSetEndpointId (eid : Nat) (s : State) : Host.Outcome State Fault Refusal :=
  okIf (decide (eid < 256)) (s.wr Reg.MOD_MGMT_EID 0 eid)

/-- POLL_FOR_PLATFORM_EVENT_MESSAGE (R577): the oldest pending event is collected. -/
def execPollForPlatformEventMessage (s : State) : Host.Outcome State Fault Refusal :=
  okIf true
    (match s.pldmEvents with
    | [] => s
    | e :: r => ({ s with pldmEvents := r } : State).emit (.pldmEvent e.1 e.2))

/-- IDENTIFY (R578): state 1 on, 2 off. -/
def execIdentify (state : Nat) (s : State) : Host.Outcome State Fault Refusal :=
  okIf true (if state = 1 ∨ state = 2 then s.flag Reg.MOD_LED_IDENTIFY 0 (decide (state = 1)) else s)

/-! ### Recovery over MCTP -/

/-- RECOVERY_LEDGER_READ (R580): entry n back. -/
def execRecoveryLedgerRead (n : Nat) (s : State) : Host.Outcome State Fault Refusal :=
  okIf true (s.emit (.mctp ((s.ledger[n]?.map LedgerEnt.bytes).getD [])))

/-- RECOVERY_FAULT_READ (R531, R580): record n of the device ring, or of the held records. -/
def execRecoveryFaultRead (n : Nat) (s : State) : Host.Outcome State Fault Refusal :=
  okIf true (s.emit (.mctp (s.logBytes n)))

/-- The bytes of the pieces received so far. -/
def State.pieceBytes (s : State) (n : Nat) : List Byte := (List.range n).map (fun k => s.fwPieces.get 0#8 k)

/-- RECOVERY_FW_PIECE (R580): in safe mode alone; the piece that ends the image, as its header gives the length, starts its check. -/
def execRecoveryFwPiece (offset : Nat) (data : List Byte) (s : State) : Host.Outcome State Fault Refusal :=
  okIf true
    (if s.rd Reg.BOOT_STATUS_MODE 0 ≠ 2 ∨ 48 < data.length ∨ 25165824 < offset + data.length then s
    else
      let t : State := { s with fwPieces := (data.zipIdx).foldl (fun m e => m.put 0#8 (offset + e.2) e.1) s.fwPieces }
      let total := 168 + ofBytes ((t.pieceBytes 16).drop 12)
      if 16 ≤ offset + data.length ∧ offset + data.length = total then
        ({ (t.takeImage (t.pieceBytes total)).1 with fwPieces := [] } : State)
      else t)

/-- BOOT_KEYS.VALID: the slots that hold a key (R520). -/
def State.keyMask (s : State) : Nat := maskOf ((List.range 8).map (fun k => (s.keyOf k).isSome))

/-- RECOVERY_KEY_READ (R580): the slots that hold keys, their minima, and a piece of the certificate chain (DESIGN CHOICE, assumption log 64). -/
def execRecoveryKeyRead (piece : Nat) (s : State) : Host.Outcome State Fault Refusal :=
  okIf true (s.emit (.mctp (leBytes 1 s.keyMask ++ (List.range 8).flatMap (fun k => leBytes 4 (s.keyMin.get 0 k)) ++ certPiece piece)))

/-- RECOVERY_RESTART (R516, R580): 0 warm, 1 cold, 2 CLEAR_SAFE and then cold. -/
def execRecoveryRestart (kind : Nat) (s : State) : Host.Outcome State Fault Refusal :=
  okIf true
    (match kind with
    | 0 => s.askRestart true 6
    | 1 => s.askRestart false 5
    | 2 => s.clearSafe.askRestart false 5
    | _ => s)

/-! ### The LED bar -/

/-- Colour and blinking of segment S (R583): 1 red, 2 green, 4 amber, 5 white. -/
def State.ledS (s : State) : Nat × Bool :=
  let mode := s.rd Reg.BOOT_STATUS_MODE 0
  if s.on Reg.MOD_LED_IDENTIFY 0 then (5, true)
  else if (List.range 25).any (fun d => s.on Reg.THERM_STATUS_TRIP_LATCH 0 d) then (1, false)
  else if (List.range 25).any (fun d => s.rd Reg.THERM_STATUS_STATE 0 d == 2) then (1, true)
  else if mode = 2 ∨ mode = 3 then (4, true)
  else if (List.range 16).any s.dieFenced || (mode == 1 && s.on Reg.BOOT_STATUS_DEGRADED 0) then (4, false)
  else if s.swOpen then (0, false)
  else if mode = 0 then (2, true)
  else (2, false)

/-- Colours of F, H and W, with W's blinking (R583). -/
def State.ledF (s : State) : Nat :=
  if (List.range 36).all (fun c => s.caneState c == 3) then 2
  else if (List.range 36).any (fun c => s.caneState c == 3 || s.caneState c == 2) then 4 else 0
def State.ledH (s : State) : Nat :=
  if s.on Reg.HOST_LINK_UP 0 = false then 0
  else if s.rd Reg.HOST_LINK_WIDTH 0 = 16 ∧ s.rd Reg.HOST_LINK_RATE 0 = 5 then 2 else 4
def State.ledW (s : State) : Nat × Bool :=
  match s.rd Reg.FLT_WD_STATUS_STATE 0 with
  | 0 => (0, false)
  | 1 => (5, true)
  | 4 => (3, false)
  | _ => (5, false)

end Sys2Proof.Machine
end

