-- ==== Sys2Proof/Machine/HostQ.lean ====
section
/-! DEFINITION. The host interface: the link, the queues and their commands, and resets of functions (R546 to R564). -/

namespace Sys2Proof.Machine

open Sys2Proof

/-! ### Queues -/

/-- What a queue pair holds, by function and number. -/
def State.queue (s : State) (fn q : Nat) : QueueX := s.queues.get {} (4 * fn + q)
def State.setQueue (s : State) (fn q : Nat) (x : QueueX) : State := { s with queues := s.queues.put {} (4 * fn + q) x }

/-- STATE of a queue: 0 OFF, 1 RUN, 2 ERROR; and its entries (R556, R565). -/
def State.qState (s : State) (fn q : Nat) : Nat := s.rd Reg.HOST_Q_STATUS_STATE fn q
def State.qSize (s : State) (fn q : Nat) : Nat := 2 ^ min 12 (max 4 (s.rd Reg.HOST_Q_CFG_SIZE_LOG fn q))

/-- A HOST report (R566). -/
def State.hostReport (s : State) (code : Nat) : State := s.devReport Config.hostSource code 0

/-- A queue of a function of this device. -/
def queueOk (fn q : Nat) : Bool := decide (fn < 17) && decide (q < 4)

/-- A doorbell that is refused puts the queue in ERROR (R560). -/
def State.badBell (s : State) (fn q : Nat) : State := (s.wr Reg.HOST_Q_STATUS_STATE fn 2 q).hostReport 0x1005

/-- SQ_DOORBELL (R556, R560, R564). -/
def execSqDoorbell (fn q value : Nat) (s : State) : Host.Outcome State Fault Refusal :=
  okIf (queueOk fn q)
    (if s.on Reg.HOST_Q_CFG_ENABLE fn q = false ∨ s.qState fn q = 2 ∨ s.qSize fn q ≤ value then s.badBell fn q
    else s.setQueue fn q { s.queue fn q with tail := value })

/-- CQ_DOORBELL (R560): a head that passes the device's tail is refused. -/
def execCqDoorbell (fn q value : Nat) (s : State) : Host.Outcome State Fault Refusal :=
  okIf (queueOk fn q)
    (let n := s.qSize fn q
    let head := (s.queue fn q).head
    let tail := s.rd Reg.HOST_Q_STATUS_CQ_TAIL fn q
    if s.on Reg.HOST_Q_CFG_ENABLE fn q = false ∨ s.qState fn q = 2 ∨ n ≤ value ∨ (tail + n - head) % n < (value + n - head) % n then
      s.badBell fn q
    else s.setQueue fn q { s.queue fn q with head := value })

/-- QUEUE_ENABLE_WRITE (R560): 0 turns the queue off; 1 after 0 sets its indices to 0 and starts it afresh (DEDUCED, assumption log 65). -/
def execQueueEnableWrite (fn q : Nat) (enable : Bool) (s : State) : Host.Outcome State Fault Refusal :=
  okIf (queueOk fn q)
    (if enable = s.on Reg.HOST_Q_CFG_ENABLE fn q then s
    else
      let t := s.flag Reg.HOST_Q_CFG_ENABLE fn enable q
      if enable then
        (((t.setQueue fn q {}).wr Reg.HOST_Q_STATUS_SQ_HEAD fn 0 q).wr Reg.HOST_Q_STATUS_CQ_TAIL fn 0 q).wr Reg.HOST_Q_STATUS_STATE fn 1 q
      else t.wr Reg.HOST_Q_STATUS_STATE fn 0 q)

/-- A field of a submission entry. -/
def sqField (e : List Byte) (o n : Nat) : Nat := ofBytes ((e.drop o).take n)

/-- The command that an entry spells (R557): a reserved byte that is not zero ends it with FIELD, an unknown opcode with OPCODE; so do a
LEN that no copy may have, with FIELD (DEDUCED, assumption log 65). -/
def readEntry (e : List Byte) : HostCmd :=
  let loc := sqField e 16 8
  let len := sqField e 24 4
  let opcode := sqField e 0 1
  let pc := sqField e 28 2
  let bad := 4 ≤ sqField e 1 1 || sqField e 4 4 != 0 || 2 ^ 43 ≤ loc || 4096 ≤ pc || (e.drop 31).any (fun b => b != 0#8) ||
    ((opcode == 1 || opcode == 2) && (len % 32 != 0 || len == 0 || decide (2 ^ 28 < len)))
  { opcode := opcode, fence := (sqField e 1 1).testBit 0, noint := (sqField e 1 1).testBit 1, cid := sqField e 2 2, host := sqField e 8 8,
    loc := loc, len := len, pc := pc, sel := sqField e 30 1, phase := if bad || 6 < opcode then 2 else 0,
    status := if bad then 2 else if 6 < opcode then 1 else 0 }

/-- SQ_ENTRY_FETCH (R556, R559, R560): the next entry up to the tail, unless 64 completions wait; a fetch that fails lasting puts the
queue in ERROR. -/
def execSqEntryFetch (fn q : Nat) (entry : List Byte) (ok : Bool) (s : State) : Host.Outcome State Fault Refusal :=
  okIf (queueOk fn q && entry.length == 64)
    (let x := s.queue fn q
    let head := s.rd Reg.HOST_Q_STATUS_SQ_HEAD fn q
    if s.qState fn q ≠ 1 ∨ s.on Reg.HOST_LINK_UP 0 = false ∨ head = x.tail ∨ 64 ≤ (x.cmds.filter (fun c => c.phase == 2)).length then s
    else if !ok then (s.wr Reg.HOST_Q_STATUS_STATE fn 2 q).hostReport 0x1004
    else (s.wr Reg.HOST_Q_STATUS_SQ_HEAD fn ((head + 1) % s.qSize fn q) q).setQueue fn q { x with cmds := x.cmds ++ [readEntry entry] })

/-! ### Commands of a queue -/

/-- The command of a queue that is to start next (R557, R558): the first not yet started; with FENCE, once all before it have ended. -/
def QueueX.next (x : QueueX) : Option (Nat × HostCmd) :=
  match x.cmds.findIdx? (fun c => c.phase == 0) with
  | none => none
  | some n =>
    match x.cmds[n]? with
    | none => none
    | some c => if c.fence && (x.cmds.take n).any (fun d => d.phase != 2) then none else some (n, c)

/-- The command at place n of a queue replaced. -/
def State.setCmd (s : State) (fn q n : Nat) (c : HostCmd) : State :=
  s.setQueue fn q { s.queue fn q with cmds := (s.queue fn q).cmds.set n c }

/-- A command ended with a status. -/
def HostCmd.ended (c : HostCmd) (status : Nat) (info : Nat := 0) : HostCmd := { c with phase := 2, status := status, info := info }

/-- The next command of a queue starts where its opcode is `op`; but for a NOP it needs a READY partition (R549, R558). The body gives
the command after its start. -/
def State.startCmd (s : State) (fn q op : Nat) (body : State → Nat → HostCmd → State × HostCmd) : State :=
  match (s.queue fn q).next with
  | none => s
  | some (n, c) =>
    if c.opcode ≠ op then s
    else if op = 0 then s.setCmd fn q n (c.ended 0)
    else match s.fnPart fn with
      | none => s.setCmd fn q n (c.ended 8)
      | some p =>
        if s.rd Reg.PART_STATUS_STATE 0 p ≠ 2 then s.setCmd fn q n (c.ended 8)
        else
          let r := body s p c
          r.1.setCmd fn q n r.2

/-- CMD_NOP (R558). -/
def execCmdNop (fn q : Nat) (s : State) : Host.Outcome State Fault Refusal :=
  okIf (queueOk fn q) (s.startCmd fn q 0 (fun t _ c => (t, c)))

/-- The benches that a command selects; none where SEL is no selection of the partition (R557). -/
def State.selects (s : State) (p : Nat) (c : HostCmd) : Option (List Nat) :=
  if c.sel = 0 then some (s.benchesOf p)
  else
    let g := c.sel - 0x20
    let lo := s.rd Reg.PART_GROUPS_BC_FIRST 0 p
    if 0x20 ≤ c.sel ∧ c.sel < 0x40 ∧ lo ≤ g ∧ g < lo + s.rd Reg.PART_GROUPS_BC_COUNT 0 p then some (s.bcGroups.get [] g) else none

/-- A command over the benches that it selects (R557). -/
def State.overBenches (s : State) (p : Nat) (c : HostCmd) (body : State → List Nat → State × HostCmd) : State × HostCmd :=
  match s.selects p c with
  | none => (s, c.ended 2)
  | some gbs => body s gbs

/-- CMD_START (R558): every bench, or none. -/
def execCmdStart (fn q : Nat) (s : State) : Host.Outcome State Fault Refusal :=
  okIf (queueOk fn q) (s.startCmd fn q 3 (fun t p c => t.overBenches p c (fun t gbs =>
    if gbs.all t.stopped then (gbs.foldl (fun u gb => (u.setPc gb c.pc).startBench gb) t, c.ended 0) else (t, c.ended 4))))

/-- CMD_HALT (R558). -/
def execCmdHalt (fn q : Nat) (s : State) : Host.Outcome State Fault Refusal :=
  okIf (queueOk fn q) (s.startCmd fn q 4 (fun t p c => t.overBenches p c (fun t gbs =>
    (gbs.foldl State.haltBench t, { c with phase := 1 }))))

/-- CMD_WAIT (R558). -/
def execCmdWait (fn q : Nat) (s : State) : Host.Outcome State Fault Refusal :=
  okIf (queueOk fn q) (s.startCmd fn q 5 (fun t p c => t.overBenches p c (fun t _ => (t, { c with phase := 1 }))))

/-- CMD_ABORT (R558). -/
def execCmdAbort (fn q : Nat) (s : State) : Host.Outcome State Fault Refusal :=
  okIf (queueOk fn q) (s.startCmd fn q 6 (fun t p c => t.overBenches p c (fun t gbs =>
    (gbs.foldl State.abortBench t, { c with phase := 1 }))))

/-- A copy's local stretch (R558): in a window of the partition, or in the scratchpad of one of its benches. -/
def State.copyOk (s : State) (p a n : Nat) (write : Bool) : Bool :=
  s.fabOk p a n write && (match placeOf a with
    | .tierA => true
    | .tierB => true
    | .spad _ _ => true
    | _ => false)

/-- A copy's checks (R554, R558): refused addresses end it with ADDR, a host address with a report as well; otherwise `body` runs with the
bus address. -/
def State.copyChecked (s : State) (fn p : Nat) (c : HostCmd) (toHost : Bool) (body : State → Nat → State × HostCmd) : State × HostCmd :=
  match s.hostAddr fn c.host c.len toHost with
  | none => (s.hostReport 0x1008, c.ended 3)
  | some b => if s.copyOk p c.loc c.len (!toHost) then body s b else (s, c.ended 3)

/-- A copy that failed at the host, or for want of a path (R555, R559). -/
def State.copyLost (s : State) (c : HostCmd) : State × HostCmd := (s.hostReport 0x1003, c.ended 6 0x1003)

/-- A copy whose target bench has its clock stopped waits (R34). -/
def State.copyWaits (s : State) (a : Nat) : Bool :=
  match placeOf a with
  | .spad gb _ => s.clockStopped gb
  | _ => false

/-- COPY_IN (R558): `data` is what the host's memory holds, none where its reads failed lasting. -/
def execCopyIn (fn q : Nat) (data : Option (List Byte)) (ecc : List (Nat × Ecc)) (crc : List (Nat × Bool)) (s : State) :
    Host.Outcome State Fault Refusal :=
  okIf (queueOk fn q) (s.startCmd fn q 1 (fun t p c => t.copyChecked fn p c false (fun t _ =>
    if t.copyCut c.loc then t.copyLost c
    else if t.copyWaits c.loc then (t, c)
    else match data with
      | none => t.copyLost c
      | some bs =>
        if bs.length ≠ c.len then (t, c)
        else match placeOf c.loc with
          | .spad gb off => (t.remoteWrite gb ecc off bs 0, c.ended 0)
          | _ =>
            match t.tierStore c.loc bs ecc crc with
            | (u, some e) => (u, c.ended 6 e.1)
            | (u, none) => (u, c.ended 0))))

/-- COPY_OUT (R558): `lost` says that a host write failed lasting. A scratchpad read that its protection refuses fails the transfer; its
code in INFO is not stated. -/
def execCopyOut (fn q : Nat) (lost : Bool) (ecc : List (Nat × Ecc)) (s : State) : Host.Outcome State Fault Refusal :=
  okIf (queueOk fn q) (s.startCmd fn q 2 (fun t p c => t.copyChecked fn p c true (fun t b =>
    if t.copyCut c.loc then t.copyLost c
    else if t.copyWaits c.loc then (t, c)
    else
      let r := match placeOf c.loc with
        | .spad gb off =>
          match t.remoteRead gb ecc off c.len 0 with
          | (u, some bs) => (u, none, bs)
          | (u, none) =>
            let (v, w) := u.free
            (w, some (v.toNat % 65536), [])
        | _ =>
          match t.tierFetch c.loc c.len ecc with
          | (u, some e, _) => (u, some e.1, [])
          | (u, none, bs) => (u, none, bs)
      match r with
      | (u, some code, _) => (u, c.ended 6 code)
      | (u, none, bs) => if lost then u.copyLost c else (u.hostStore b bs, c.ended 0))))

/-- END, HALTED, or FAULT with DRAINED = 1 (R558). -/
def State.cameToRest (s : State) (gb : Nat) : Bool :=
  match s.seqState gb with
  | .ended => true
  | .halted => true
  | .fault => (s.seq gb).drained
  | _ => false

/-- A running command of a queue as it stands now (R558, R559): HALT, WAIT and ABORT end with their benches, the first two with FAULT where
one is in FAULT. -/
def State.judgeCmd (s : State) (fn : Nat) (c : HostCmd) : HostCmd :=
  if c.phase ≠ 1 then c
  else match (s.fnPart fn).bind (fun p => s.selects p c) with
    | none => c
    | some gbs =>
      if c.opcode = 6 then (if gbs.all (fun gb => s.seqState gb == .halted) then c.ended 0 else c)
      else if !gbs.all s.cameToRest then c
      else match gbs.find? (fun gb => s.seqState gb == .fault) with
        | some gb => c.ended 5 (s.rd Reg.SEQ_FAULT_CODE gb + gb * 65536)
        | none => c.ended 0

/-- Where a queue's next completion entry goes in host memory, and the 16 bytes of a command's entry (R559). -/
def State.cqPlace (s : State) (fn q : Nat) : Nat :=
  s.rd Reg.HOST_Q_CQ_HI_ADDR_HI fn q * 2 ^ 32 + s.rd Reg.HOST_Q_CQ_LO_ADDR_LO fn q * 4096 + 16 * s.rd Reg.HOST_Q_STATUS_CQ_TAIL fn q
def State.cqEntry (s : State) (fn q : Nat) (c : HostCmd) : List Byte :=
  leBytes 2 c.cid ++ leBytes 2 (s.rd Reg.HOST_Q_STATUS_SQ_HEAD fn q) ++ leBytes 2 c.status ++
    leBytes 1 (if (s.queue fn q).pass then 1 else 0) ++ leBytes 1 q ++ leBytes 8 c.info

/-- COMMAND_COMPLETION (R558, R559): command n of a queue has ended; its entry enters the completion queue, or waits while that is full. -/
def execCommandCompletion (fn q n : Nat) (s : State) : Host.Outcome State Fault Refusal :=
  okIf (queueOk fn q)
    (let x := s.queue fn q
    match x.cmds[n]? with
    | none => s
    | some c0 =>
      let c := s.judgeCmd fn c0
      let size := s.qSize fn q
      let tail := s.rd Reg.HOST_Q_STATUS_CQ_TAIL fn q
      if c.phase ≠ 2 ∨ (tail + 1) % size = x.head ∨ s.on Reg.HOST_LINK_UP 0 = false then s.setCmd fn q n c
      else
        let t := (s.hostStore (s.cqPlace fn q) (s.cqEntry fn q c)).wr Reg.HOST_Q_STATUS_CQ_TAIL fn ((tail + 1) % size) q
        let t := t.setQueue fn q { x with cmds := x.cmds.eraseIdx n, pass := if tail + 1 = size then !x.pass else x.pass }
        if c.noint then t else t.signal fn (s.rd Reg.HOST_Q_CFG_VECTOR fn q))

/-! ### Link loss and function-level reset -/

/-- What a link loss or a reset does to a function: its queues are OFF, its ring disabled, its mailbox request lost, its windows and MSI-X
table back at reset (R542, R548, R563). -/
def State.dropFn (s : State) (fn : Nat) : State :=
  let s := (List.range 4).foldl (fun t q =>
    ((t.setQueue fn q { t.queue fn q with cmds := [] }).wr Reg.HOST_Q_STATUS_STATE fn 0 q).flag Reg.HOST_Q_CFG_ENABLE fn false q) s
  let s := s.flag Reg.FLT_RING_CFG_ENABLE 0 false fn
  let s := s.resetFields [Reg.HOST_WIN_LO_BASE_LO, Reg.HOST_WIN_HI_BASE_HI, Reg.HOST_WIN_CFG_VALID, Reg.HOST_WIN_CFG_WRITE,
    Reg.HOST_WIN_CFG_SIZE] fn
  let s : State := { s with
    msixTab := s.msixTab.clear (256 * fn) (256 * fn + 256), msixPend := s.msixPend.clear (2048 * fn) (2048 * fn + 2048)
    load := s.load.map (fun x => if x.mbox && x.fn == fn then { x with mbox := false } else x) }
  s.loseMbox fn

/-- Host transfers on their way, of the benches that `p` selects, fail (R548). -/
def State.loseHosts (s : State) (p : Nat → Bool) : State :=
  (s.xfers.filter (fun x => x.tgt == 2 && x.phase == .requested && p x.gb)).foldl (fun t x => t.loseHost x) s

/-- HOST_LINK_DOWN (R548, R570). -/
def execHostLinkDown (s : State) : Host.Outcome State Fault Refusal :=
  okIf true
    (if s.on Reg.HOST_LINK_UP 0 = false then s
    else
      let t := ((s.flag Reg.HOST_LINK_UP 0 false).flag Reg.HOST_LINK_FLIT 0 false).wr Reg.HOST_LINK_RATE 0 0
      let t := (t.wr Reg.HOST_LINK_WIDTH 0 0).bump Reg.HOST_LINK_DOWN_CNT 0
      let t := (List.range 17).foldl State.dropFn t
      (t.loseHosts (fun _ => true)).hostReport 0x1001)

/-- HOST_FLR (R391, R563): function f; the physical function's reset applies to every function. -/
def execHostFlr (fn : Nat) (s : State) : Host.Outcome State Fault Refusal :=
  okIf (decide (fn < 17))
    (let fns := if fn = 0 then List.range 17 else [fn]
    let mine := fun (p : Nat) => decide (p < 16) && s.on Reg.PART_CFG_VALID 0 p && fns.contains (s.rd Reg.PART_CFG_HOST_FN 0 p)
    let s := match s.load with
      | some x => if x.op = 0 ∨ mine x.part = true then s.abortLoad else s
      | none => s
    let t := fns.foldl State.dropFn s
    let gbs := (List.range 2560).filter (fun gb => mine (s.partOf gb))
    let t := gbs.foldl State.abortBench t
    (t.loseHosts (fun gb => mine (s.partOf gb))).hostReport 0x1006)

end Sys2Proof.Machine
end

