-- ==== Sys2Proof/Machine/Flags.lean ====
section
/-! DEFINITION. The flags and status fields of the register file: which entry a selected field shows, and the fields that are
computed from what the state holds elsewhere, such as BUSY, DRAINED, REMOTE_HELD, WINDOW_OK and the LED bar (R18, R125, R149, R260,
R289, R348, R393, R520, R565, R587). -/

namespace Sys2Proof.Machine

open Sys2Proof

/-- A register as an access names it: its block, the block's instance, its offset, the function whose own entry is shown whatever a
selector holds, and the local address. -/
structure RegLoc where
  blk : Blk
  inst : Nat
  off : Nat
  own : Option Nat := none
  addr : Nat := 0
  deriving DecidableEq, Repr

/-! ### Selectors and values shown -/

/-- The selected entry that a field of a register shows; none where the selector names nothing, which shows zero and ignores
writes. -/
def State.shown (s : State) (l : RegLoc) (lo : Nat) : Option Nat :=
  let cut := fun (n v : Nat) => if v < n then some v else none
  let i := l.inst
  match l.blk, l.off with
  | .pot, 0x34 => if lo < 28 then some (s.rd Reg.POT_CULLET_SEL i) else some 0
  | .par, 0x10 => if lo < 23 then cut 266 (s.rd Reg.PAR_TRIM_SEL i) else some 0
  | .par, 0x14 => if lo < 29 then some (s.rd Reg.PAR_REMAP_TBL_SEL i) else some 0
  | .sparse, 0x4 => if lo < 27 then some (s.rd Reg.POT_SP_TILE_SEL i) else some 0
  | .spad, 0x2C => cut 12 (s.rd Reg.SPAD_BANK_SEL_BANK i)
  | .seq, 0x54 => some (s.rd Reg.SEQ_BAR_SEL_CTX i)
  | .seq, 0x58 => some (s.rd Reg.SEQ_BAR_SEL_CTX i)
  | .seq, 0x5C => some (s.rd Reg.SEQ_BAR_SEL_CTX i)
  | .seq, 0x64 => some (s.rd Reg.SEQ_WALK_SEL_TABLE i)
  | .pq, 0x14 => some (s.rd Reg.PQ_IN_SEL_PROD i)
  | .dreg, 0x4 => some (s.rd Reg.DMA_REG_SEL_PART i)
  | .noc, 0x10 => some (s.rd Reg.NOC_BAR_SEL_GROUP i)
  | .noc, 0x14 => some (s.rd Reg.NOC_BAR_SEL_GROUP i)
  | .pkg, o => if o = 0 then some 0 else some (s.rd Reg.PKG_LINK_SEL_EDGE i)
  | .part, o =>
    let p := s.rd Reg.PART_SEL_PART 0
    if o = 0 ∨ o = 0x14 then some 0
    else if o = 0x18 then some (8 * p + s.rd Reg.PART_WIN_SEL_WIN 0)
    else some p
  | .memb, 0x0 => if lo = 30 then cut 6 (s.rd Reg.MEMB_SEL_PKG i) else some 0
  | .memb, 0x18 => cut 6 (s.rd Reg.MEMB_SEL_PKG i)
  | .cane, o =>
    let c := s.rd Reg.CANE_SEL_CANE i
    if o = 0 ∨ o = 0x28 then some 0
    else if o = 0x2C then (cut 9 c).map (fun c => 8 * c + s.rd Reg.CANE_LANE_SEL_LANE i)
    else cut 9 c
  | .fab, o =>
    if 0x54 ≤ o ∧ o ≤ 0x5C then some (s.rd Reg.FAB_RING_SEL_RING 0)
    else if 0x64 ≤ o then some (s.rd Reg.FAB_BAR_SEL_GROUP 0)
    else some 0
  | .pwr, o =>
    if o = 0x14 ∨ o = 0x18 ∨ o = 0x20 ∨ o = 0x28 ∨ o = 0x2C then some (s.rd Reg.PWR_DIE_SEL_DIE 0) else some 0
  | .therm, o => if o = 0x4 ∨ o = 0xC ∨ o = 0x14 then cut 25 (s.rd Reg.THERM_SEL_DIE 0) else some 0
  | .vr, o =>
    let d := s.rd Reg.VR_SEL_DIE 0
    if o = 0 ∨ o = 0x14 then some 0
    else if o = 0x10 then (cut 12 (s.rd Reg.VR_SEL_PHASE 0)).map (fun p => 16 * d + p)
    else some d
  | .boot, 0xC => cut 12 (s.rd Reg.BOOT_STEP_SEL_STEP 0)
  | .flt, o =>
    if 0x8 ≤ o ∧ o ≤ 0x1C then
      match l.own with
      | some fn => some fn
      | none => cut 17 (s.rd Reg.FLT_FN_SEL_FN 0)
    else some 0
  | .host, o =>
    if 0x8 ≤ o ∧ o ≤ 0x1C then some (s.rd Reg.HOST_Q_SEL_Q i)
    else if 0x24 ≤ o ∧ o ≤ 0x2C then some (s.rd Reg.HOST_WIN_SEL_WIN i)
    else some 0
  | _, _ => some 0

/-- The pot that a sparse register block shows. -/
def spPot (i : Nat) : Nat := 16 * (i / 4) + 12 + i % 4

/-- A field that shows what the state holds elsewhere; none for a field that is held in its register. Calibrations are single steps of
the model, so none is ever under way between steps (assumption log 21). -/
def State.derived (s : State) (f : Field) (i j : Nat) : Option Nat :=
  let b : Bool → Option Nat := fun p => some (if p then 1 else 0)
  let doing := fun (gb u : Nat) => (s.seq gb).busy u && !s.held gb u
  match f.blk with
  | .pot =>
    if f = Reg.POT_CFG_SPARSE_CAP then b (decide (12 ≤ i % 16))
    else if f = Reg.POT_STATUS_BUSY then b (doing (i / 16) (i % 16))
    else if f = Reg.POT_ST_INFO_AGE then some (min 65535 (s.potAge i))
    else none
  | .sparse =>
    if f = Reg.POT_SP_TILE_CLASS then some ((s.potx (spPot i)).cls j)
    else if f = Reg.POT_SP_TILE_BLOCK then some ((s.potx (spPot i)).logBlock j)
    else none
  | .upd =>
    if f = Reg.POT_UPD_STATUS_ACTIVE then
      b (doing (i / 16) (i % 16) && (match s.current (i / 16) (i % 16) with
        | some e => opc e.word == 0x11
        | none => false))
    else none
  | .par => if f = Reg.PAR_STATUS_BUSY then b (doing i 16) else none
  | .jack => if f = Reg.JACK_STATUS_BUSY then b (doing i 17) else none
  | .spad =>
    if f = Reg.SPAD_STATUS_BUSY then
      b (doing i 18 && (match s.current i 18 with
        | some e => [0x20, 0x21, 0x22].contains (opc e.word)
        | none => false))
    else if f = Reg.SPAD_STATUS_REMOTE_HELD then some (min 8 (s.remoteWait.get [] i).length)
    else if f = Reg.SPAD_STATUS_POISONED then b (s.poison.any (fun e => e.1 / 131072 == spadBase i / 32 / 131072 && e.2))
    else none
  | .seq =>
    if f = Reg.SEQ_STATUS_DRAINED then b (s.seq i).drained
    else if f = Reg.SEQ_STATUS_INFLIGHT then some (s.seq i).window.length
    else none
  | .dma =>
    if f = Reg.DMA_STATUS_BUSY then b (doing i 19)
    else if f = Reg.DMA_STATUS_FENCE then b (s.fencing i)
    else if f = Reg.DMA_STATUS_INFLIGHT then some (s.entriesOf i)
    else none
  | .bench =>
    if f = Reg.BENCH_PRNG_ID_LOGICAL then some (s.logicalOf i % 65536)
    else if f = Reg.BENCH_ST_STATUS_WINDOW_OK then b (s.windowOk (i / 160))
    else if f = Reg.BENCH_WAIT_STATUS_OUTSIDE then b (s.outside i)
    else if f = Reg.BENCH_WAIT_STATUS_UNIT then some (((s.firstWait i).map (fun w => w.1)).getD 31)
    else if f = Reg.BENCH_WAIT_STATUS_CAUSE then some (((s.firstWait i).map (fun w => w.2.1)).getD 0)
    else if f = Reg.BENCH_WAIT_STATUS_OBJECT then some (((s.firstWait i).map (fun w => w.2.2)).getD 0 % 512)
    else none
  | .dev =>
    if f = Reg.DEV_SERIAL_LO_SERIAL_BCD_LO then some (serialNow % 2 ^ 32)
    else if f = Reg.DEV_SERIAL_HI_SERIAL_BCD_HI then some (serialNow / 2 ^ 32 % 256)
    else none
  | .part => if f = Reg.PART_STATUS_BENCHES then some ((s.owner.filter (fun e => e.2 == j + 1)).length % 4096) else none
  | .boot =>
    if f = Reg.BOOT_LEDGER_DATA_DATA then
      match s.ledger[s.rd Reg.BOOT_LEDGER_SEL_BACK 0]? with
      | some e => some (ofBytes ((e.bytes.drop (4 * s.rd Reg.BOOT_LEDGER_SEL_WORD 0)).take 4))
      | none => some 0
    else if f = Reg.BOOT_KEYS_VALID then some s.keyMask
    else none
  | .host =>
    if f = Reg.HOST_FN_ID_FN then some i
    else if f = Reg.HOST_FN_ID_PART then some ((s.fnPart i).getD 0xFF)
    else if f = Reg.HOST_FN_ID_PART_STATE then some (((s.fnPart i).map (fun p => s.rd Reg.PART_STATUS_STATE 0 p)).getD 0)
    else none
  | .mod =>
    if f = Reg.MOD_LED_S then some s.ledS.1
    else if f = Reg.MOD_LED_F then some s.ledF
    else if f = Reg.MOD_LED_H then some s.ledH
    else if f = Reg.MOD_LED_W then some s.ledW.1
    else if f = Reg.MOD_LED_BLINK then some ((if s.ledS.2 then 4 else 0) + (if s.ledW.2 then 1 else 0))
    else none
  | _ => none

/-- The fields of a register. -/
def RegLoc.fields (l : RegLoc) : List Field := l.blk.fields.filter (fun f => f.off == l.off)

/-- The value that a field of a register reads as (R18). -/
def State.fieldRead (s : State) (l : RegLoc) (f : Field) : Nat :=
  match f.acc, s.shown l f.lo with
  | .wo, _ => 0
  | _, none => 0
  | _, some j => (s.derived f l.inst j).getD (s.rd f l.inst j)

end Sys2Proof.Machine
end

