-- ==== Sys2Proof/Machine/Access.lean ====
section
/-! DEFINITION. Accesses of registers and bench windows from outside: the register file as the address map shows it, its read and
write effects, the broadcast window and the host's BARs (R17 to R19, R76, R126, R263, R350 to R355, R365 to R367, R549 to R553). -/

namespace Sys2Proof.Machine

open Sys2Proof

/-! ### Where a register lies -/

/-- A register of a bench's register block (R353); the offsets that no unit has are the bench's own. -/
def benchLoc (gb o a : Nat) : RegLoc :=
  if 0x300 ≤ o ∧ o < 0x340 then ⟨.par, gb, o - 0x300, none, a⟩
  else if 0x400 ≤ o ∧ o < 0x800 then ⟨.pot, 16 * gb + (o - 0x400) / 0x40, o % 0x40, none, a⟩
  else if 0x800 ≤ o ∧ o < 0x880 then ⟨.sparse, 4 * gb + (o - 0x800) / 0x20, o % 0x20, none, a⟩
  else if 0x900 ≤ o ∧ o < 0xA00 then ⟨.upd, 16 * gb + (o - 0x900) / 0x10, o % 0x10, none, a⟩
  else match o / 0x100 with
    | 0xA => ⟨.jack, gb, o % 0x100, none, a⟩
    | 0xB => ⟨.spad, gb, o % 0x100, none, a⟩
    | 0xC => ⟨.seq, gb, o % 0x100, none, a⟩
    | 0xD => ⟨.dma, gb, o % 0x100, none, a⟩
    | 0xE => ⟨.pq, gb, o % 0x100, none, a⟩
    | _ => ⟨.bench, gb, o, none, a⟩

/-- A die owns a stack (R24, R352). -/
def ownsStack (die : Nat) : Bool := [1, 2, 4, 7, 8, 11, 13, 14].contains die

/-- A register of a die's register block; MEMA reads zero on a die without a stack (R352). -/
def dieLoc (die o a : Nat) : Option RegLoc :=
  match o / 0x1000 with
  | 0 => some ⟨.noc, die, o, none, a⟩
  | 1 => some ⟨.pkg, die, o % 0x1000, none, a⟩
  | 2 => some ⟨.dreg, die, o % 0x1000, none, a⟩
  | 3 => if ownsStack die then some ⟨.mema, die, o % 0x1000, none, a⟩ else none
  | _ => none

/-- A register of the control die (R355); of the HOST block only HOST_LINK stands there. -/
def controlLoc (o a : Nat) : Option RegLoc :=
  let r := o % 0x1000
  match o / 0x1000 with
  | 0 => some ⟨.dev, 0, r, none, a⟩
  | 1 => some ⟨.boot, 0, r, none, a⟩
  | 2 => some ⟨.batch, 0, r, none, a⟩
  | 3 => some ⟨.part, 0, r, none, a⟩
  | 4 => some ⟨.pwr, 0, r, none, a⟩
  | 5 => some ⟨.therm, 0, r, none, a⟩
  | 6 => some ⟨.vr, 0, r, none, a⟩
  | 7 => some ⟨.flt, 0, r, none, a⟩
  | 8 => if r = 0x38 then some ⟨.host, 0, r, none, a⟩ else none
  | 9 => some ⟨.mod, 0, r, none, a⟩
  | _ => none

/-- A register of a function's page, FLT registers of its own ring among them; the DEV and BOOT windows are read only (R553). -/
def pageLoc (fn o : Nat) : Option RegLoc :=
  if o = 0x38 then some ⟨.host, 0, o, none, 0⟩
  else if o < 0x1000 then some ⟨.host, fn, o, none, 0⟩
  else if 0x3000 ≤ o ∧ o < 0x301C then some ⟨.flt, 0, o - 0x3000 + 8, some fn, 0⟩
  else if 0x8000 ≤ o ∧ o < 0x8100 then some ⟨.dev, 0, o - 0x8000, none, 0x7F000000000 + (o - 0x8000)⟩
  else if 0x9000 ≤ o ∧ o < 0x9100 then some ⟨.boot, 0, o - 0x9000, none, 0x7F000001000 + (o - 0x9000)⟩
  else none

/-- The offsets of a bench's register block that no host function reaches (R551). -/
def withheld (o : Nat) : Bool :=
  (decide (0x100 ≤ o) && decide (o < 0x10C)) || (decide (0x400 ≤ o) && decide (o < 0x800) && decide (0x28 ≤ o % 0x40)) ||
  (decide (0xB04 ≤ o) && decide (o < 0xB08))

/-- The agents of the register path: gaffer, servitor and the functions (R497). -/
def isAccessor (agent : Nat) : Bool := decide (agent ≤ 2) || (decide (17 ≤ agent) && decide (agent ≤ 32))

/-- Where an access of a local address ends: at nothing that the agent reaches (R351, R550, R551), at an offset that reads as zero,
at a register, or at a mapped place that holds no register (R350, R353). -/
inductive Reached where
  | unmapped
  | zero
  | reg (l : RegLoc)
  | other (p : Place)
  deriving DecidableEq, Repr

/-- A register that may be absent. -/
def reachedOf : Option RegLoc → Reached
  | none => .zero
  | some l => .reg l

/-- What an agent reaches at a register address (R351 to R355, R433, R462, R543, R550, R551). -/
def State.reached (s : State) (agent : Nat) (r : RegAt) : Reached :=
  match r with
  | .page o => if isService agent then .unmapped else reachedOf (pageLoc (fnOfAgent agent) (o / 4 * 4))
  | .loc a =>
    match placeOf (a / 4 * 4) with
    | .benchReg gb o =>
      if s.reachesBench agent gb && (isService agent || !withheld o) then .reg (benchLoc gb o (a / 4 * 4)) else .unmapped
    | .dieReg d o => if isService agent then reachedOf (dieLoc d o (a / 4 * 4)) else .unmapped
    | .control o => if agent ≤ 2 then reachedOf (controlLoc o (a / 4 * 4)) else .unmapped
    | .port k 0 o => if isService agent then .reg ⟨.cane, k, o, none, a / 4 * 4⟩ else .unmapped
    | .port k _ o =>
      if 2 < agent then .unmapped
      else if o < 0x40 then .reg ⟨.fab, k, o, none, a / 4 * 4⟩
      else if k = 0 then .reg ⟨.fab, 0, o, none, a / 4 * 4⟩
      else .zero
    | .annex k o => if isService agent then .reg ⟨.memb, k, o, none, a / 4 * 4⟩ else .unmapped
    | .spad gb o => if s.reachesBench agent gb then .other (.spad gb o) else .unmapped
    | .imem gb o => if s.reachesBench agent gb then .other (.imem gb o) else .unmapped
    | .tierA => if isService agent then .other .tierA else .unmapped
    | .tierB => if isService agent then .other .tierB else .unmapped
    | _ => .unmapped

/-- The furnace die whose network an access of a local address ends in. -/
def dieOfAddr (a : Nat) : Option Nat :=
  if 0x20000000000 ≤ a ∧ a < 0x21000000000 then some ((a - 0x20000000000) / 0x100000000) else none

/-- An access of an unmapped address: reported, with the die of its window, else die 0, as SOURCE and an INFO0 that the spec leaves
open (R351, R372, R524, DESIGN CHOICE, assumption log 46). -/
def State.unmapped (s : State) (r : RegAt) : State :=
  let a := match r with
    | .loc a => a
    | .page _ => 0
  (s.free).2.devReport (0x1000 + (dieOfAddr a).getD 0) 0x0913 (s.free).1.toNat

/-- An access cannot arrive: its die is fenced, or the package network has no route from the control port on die 0. The management
bus serves while die 0 is fenced and before step S4 has trained the package links (R25, R355, R363, R482). -/
def State.cutOff (s : State) (d : Nat) : Bool :=
  s.dieFenced d || (decide (4 < s.rd Reg.BOOT_STATUS_STEP 0) && !s.dieFenced 0 && !s.reachable 0 d)

/-- An access that cannot arrive ends with an error response; what a read returns then is open (R360, R363). -/
def State.accessLost (s : State) (d : Nat) : State :=
  let s := if s.dieFenced d then s else s.reportUnreachable 0 d
  ({ (s.free).2 with readData := (s.free).1.toNat % 2 ^ 32 } : State).emit (.regError d)

/-! ### Reads -/

/-- The agents whose read clears the RC fields of a block (R19, R126, R348, R371, R408, R433, R462, R492, R543, R565, R587). -/
def State.clears (s : State) (agent : Nat) (l : RegLoc) (f : Field) : Bool :=
  let service := isService agent
  let owner := agent == 1 || (s.shown l f.lo).isSome && (match l.blk with
    | .pot => decide (s.partOf (l.inst / 16) < 16) && agent == agentOf (s.fnOf (l.inst / 16))
    | .upd => decide (s.partOf (l.inst / 16) < 16) && agent == agentOf (s.fnOf (l.inst / 16))
    | .sparse => decide (s.partOf (l.inst / 4) < 16) && agent == agentOf (s.fnOf (l.inst / 4))
    | _ => decide (s.partOf l.inst < 16) && agent == agentOf (s.fnOf l.inst))
  match l.blk with
  | .noc => service
  | .pkg => service
  | .dreg => service
  | .mema => service
  | .memb => service
  | .cane => service
  | .pwr => service
  | .therm => service
  | .vr => service
  | .fab => decide (agent ≤ 2)
  | .mod => decide (agent ≤ 2)
  | .flt => (s.shown l f.lo).any (fun fn => agent == agentOf fn)
  | .host => !service
  | .dev => false
  | .boot => false
  | .batch => false
  | .part => false
  | _ => owner

/-- An RC field that the agent's read clears stands at zero. -/
def State.clearRc (s : State) (agent : Nat) (l : RegLoc) (f : Field) : State :=
  match f.acc, s.shown l f.lo with
  | .rc, some j => if s.clears agent l f then s.wr f l.inst 0 j else s
  | _, _ => s

/-- The 64-bit value whose low half a register shows, with the field under which a read captures it (R76, R289, R348, R408, R462). -/
def State.captureLow (s : State) (l : RegLoc) : Option (Field × DWord) :=
  let i := l.inst
  let two := fun (hi lo : Nat) => BitVec.ofNat 64 (hi * 2 ^ 32 + lo)
  match l.blk, l.off with
  | .bench, 0xC4 =>
    let k := s.rd Reg.BENCH_PRNG_SEL_SUBSTREAM i
    some (Reg.BENCH_PRNG_STATE_LO_STATE_LO, if k < 17 then s.prngOf i k else 0#64)
  | .seq, 0x18 => some (Reg.SEQ_CYCLES_LO_CYC_LO, s.cycleCtr.get 0#64 i)
  | .seq, 0x6C => some (Reg.SEQ_SREG_LO_VAL_LO, s.sreg i (s.rd Reg.SEQ_SREG_SEL_REG i))
  | .dma, 0x8 =>
    some (Reg.DMA_FAULT_ADDR_LO_ADDR_LO, two (s.rd Reg.DMA_FAULT_ADDR_HI_ADDR_HI i) (s.rd Reg.DMA_FAULT_ADDR_LO_ADDR_LO i))
  | .mema, 0xC =>
    some (Reg.MEMA_ERR_ADDR_LO_ADDR_LO, two (s.rd Reg.MEMA_ERR_ADDR_HI_ADDR_HI i) (s.rd Reg.MEMA_ERR_ADDR_LO_ADDR_LO i))
  | .memb, 0xC =>
    some (Reg.MEMB_ERR_ADDR_LO_ADDR_LO, two (s.rd Reg.MEMB_ERR_ADDR_HI_ADDR_HI i) (s.rd Reg.MEMB_ERR_ADDR_LO_ADDR_LO i))
  | .fab, 0x48 => some (Reg.FAB_TIME_LO_TIME_LO, BitVec.ofNat 64 s.fabTime)
  | _, _ => none

/-- The field under which the value was captured whose high half a register shows. -/
def RegLoc.captureHigh (l : RegLoc) : Option Field :=
  match l.blk, l.off with
  | .bench, 0xC8 => some Reg.BENCH_PRNG_STATE_LO_STATE_LO
  | .seq, 0x1C => some Reg.SEQ_CYCLES_LO_CYC_LO
  | .seq, 0x70 => some Reg.SEQ_SREG_LO_VAL_LO
  | .dma, 0xC => some Reg.DMA_FAULT_ADDR_LO_ADDR_LO
  | .mema, 0x10 => some Reg.MEMA_ERR_ADDR_LO_ADDR_LO
  | .memb, 0x10 => some Reg.MEMB_ERR_ADDR_LO_ADDR_LO
  | .fab, 0x4C => some Reg.FAB_TIME_LO_TIME_LO
  | _, _ => none

/-- The tags that SPAD_TAGn shows, bit k for slot 32 n + k (R260). -/
def State.tagWord (s : State) (gb n : Nat) : Nat := maskOf ((List.range 32).map (fun k => s.tag gb (32 * n + k)))

/-- The value of a register without captures and tags. -/
def State.plainRead (s : State) (l : RegLoc) : Nat :=
  (l.fields.map (fun f => s.fieldRead l f % 2 ^ f.w * 2 ^ f.lo)).sum

/-- The temperature of a memory device comes from outside and is a free value (R408, DESIGN CHOICE, assumption log 66). -/
def State.memTemp (s : State) (l : RegLoc) : Nat × State :=
  if (l.blk = .mema ∨ l.blk = .memb) ∧ l.off = 0 then ((s.free).1.toNat % 256 * 2 ^ 16, (s.free).2) else (0, s)

/-- The register shows a substream that a bench does not have: BENCH_PRNG_SEL names one of 17 to 31 (R76). -/
def State.noSubstream (s : State) (l : RegLoc) : Bool :=
  l.blk == .bench && decide (17 ≤ s.rd Reg.BENCH_PRNG_SEL_SUBSTREAM l.inst)

/-- A register read by an agent: its value, and the state in which the RC fields that the agent clears are clear and a 64-bit value
is captured (R18, R76, R126). A high half that no read of its low half has captured yet reads 0 (DESIGN CHOICE, assumption log 89). -/
def State.regRead (s : State) (agent : Nat) (l : RegLoc) : Nat × State :=
  match s.captureLow l, l.captureHigh with
  | some (f, v), _ => (v.toNat % 2 ^ 32, { s with capt := s.capt.put 0#64 (f.key l.inst 0) v })
  | none, some f => (if s.noSubstream l then 0 else (s.capt.get 0#64 (f.key l.inst 0)).toNat / 2 ^ 32, s)
  | none, none =>
    if l.blk = .spad ∧ 0x40 ≤ l.off ∧ l.off < 0x70 then (s.tagWord l.inst (l.off / 4 - 16), s)
    else
      let t := s.memTemp l
      (s.plainRead l + t.1, l.fields.foldl (fun u f => u.clearRc agent l f) t.2)

/-- A 32-bit access of a scratchpad or an instruction memory in its bench window, a bypass access: a write where a value is given.
It waits while the clock of the bench is stopped (R34, R247, R257, R263, R353). `ecc` is what the scratchpad's code finds (R258). A
poisoned read returns an open value. -/
def State.windowAccess (s : State) (p : Place) (data : Option Nat) (ecc : List (Nat × Ecc)) : State :=
  match p with
  | .spad gb o =>
    if s.cutOff (gb / 160) then s.accessLost (gb / 160)
    else if s.clockStopped gb then s
    else match data with
      | some v => s.remoteWrite gb ecc o (leBytes 4 v) 0
      | none =>
        match s.remoteRead gb ecc o 4 0 with
        | (t, some bs) => { t with readData := ofBytes bs }
        | (t, none) => { (t.free).2 with readData := (t.free).1.toNat % 2 ^ 32 }
  | .imem gb o =>
    if s.cutOff (gb / 160) then s.accessLost (gb / 160)
    else if s.clockStopped gb then s
    else match data with
      | some v => s.imemWrite gb o (leBytes 4 v)
      | none => { s with readData := ofBytes (s.bytes (imemBase gb + o) 4) }
  | _ => s

/-- A read over the register path: its value stands in `readData`. -/
def State.readAt (s : State) (agent : Nat) (r : RegAt) (ecc : List (Nat × Ecc) := []) : State :=
  match s.reached agent r with
  | .unmapped => { s.unmapped r with readData := 0 }
  | .zero => { s with readData := 0 }
  | .other p => s.windowAccess p none ecc
  | .reg l =>
    match (dieOfAddr l.addr).filter s.cutOff with
    | some d => s.accessLost d
    | none => let v := s.regRead agent l; { v.2 with readData := v.1 }

/-- CAPTURE_READ (R76): a read of a register that shows half of a 64-bit value. -/
def execCaptureRead (agent : Nat) (r : RegAt) (s : State) : Host.Outcome State Fault Refusal :=
  okIf (isAccessor agent)
    (match s.reached agent r with
    | .reg l => if (s.captureLow l).isSome || l.captureHigh.isSome then s.readAt agent r else s
    | _ => s)

/-- RC_COUNTER_READ (R18, R126): a register read; the RC fields clear for the agent named in the register map. -/
def execRcCounterRead (agent : Nat) (r : RegAt) (s : State) (ecc : List (Nat × Ecc) := []) : Host.Outcome State Fault Refusal :=
  okIf (isAccessor agent) (s.readAt agent r ecc)

/-- UNMAPPED_REGISTER_READ (R351): zero, and a report. -/
def execUnmappedRegisterRead (agent a : Nat) (s : State) : Host.Outcome State Fault Refusal :=
  okIf (isAccessor agent)
    (match s.reached agent (.loc a) with
    | .unmapped => s.readAt agent (.loc a)
    | _ => s)

/-! ### Writes -/

/-- The state after a command's meaning, which a register write runs. -/
def State.after (s : State) (o : Host.Outcome State Fault Refusal) : State :=
  match o with
  | .next t => t
  | _ => s

/-- One field under its access type (R18): a value `v` of its bits, written by an agent. -/
def State.putField (s : State) (agent : Nat) (l : RegLoc) (v : Nat) (f : Field) : State :=
  match f.acc, s.shown l f.lo with
  | .rw, some j => s.wr f l.inst (v / 2 ^ f.lo) j
  | .w1c, some j => if v.testBit f.lo then s.wr f l.inst 0 j else s
  | .rwg, some j => if agent = 0 then s.wr f l.inst (v / 2 ^ f.lo) j else s
  | _, _ => s

/-- A register written under the access types of its fields; a write that RW-G fields refuse is recorded once (R19). -/
def State.plainWrite (s : State) (agent : Nat) (l : RegLoc) (v : Nat) : State :=
  if agent ≠ 0 ∧ l.fields.any (fun f => f.acc = Access.rwg) = true then
    (l.fields.foldl (fun t f => t.putField agent l v f) s).lockedWrite l.addr agent
  else l.fields.foldl (fun t f => t.putField agent l v f) s

/-- The low half of a pair is held for the write of its high half (R76). -/
def State.holdLow (s : State) (f : Field) (i v : Nat) : State := { s with heldLo := s.heldLo.put 0 (f.key i 0) (v % 2 ^ 32) }

/-- A write of a bench register of its own behaviour, in the units of one bench (R76, R77, R125, R149, R176, R260, R280, R283, R289). -/
def State.benchRegWrite (s : State) (agent : Nat) (l : RegLoc) (v : Nat) : State :=
  let i := l.inst
  let plain := s.plainWrite agent l v
  match l.blk, l.off with
  | .bench, 0xC4 =>
    if s.halted i then (if s.noSubstream l then s else s.holdLow Reg.BENCH_PRNG_STATE_LO_STATE_LO i v)
    else s.benchReport i 22 SEQ_PRNG_BUSY 0
  | .bench, 0xC8 => s.after (execBenchPrngStateHiWrite i agent v s)
  | .bench, 0x100 => if v.testBit 4 then plain.after (execStReq i (v % 16) plain) else plain
  | .par, 0x8 => if v.testBit 0 then s.after (execCalReq i s) else s
  | .pot, 0x8 => if v.testBit 0 then s.after (execPoolAbort (i / 16) (i % 16) s) else s
  | .spad, 0x4 =>
    if v.testBit 31 then s.after (execSpadTagCtrlGo i agent (v.testBit 30) (v / 512 % 512) (v % 512) s) else plain
  | .seq, 0x4 =>
    match v % 8 with
    | 1 => s.after (execStart i agent s)
    | 2 => s.after (execHalt i agent s)
    | 3 => s.after (execResumeReissue i agent s)
    | 4 => s.after (execResumeSkip i agent s)
    | 5 => s.after (execAbort i agent s)
    | _ => s
  | .par, 0x0 => plain.rearmNotCal s i
  | .seq, 0x8 => if s.halted i then s.setPc i (v % 4096) else s
  | .seq, 0x54 => s.after (execSeqBarArriveWrite i agent v s)
  | .seq, 0x58 => if s.stopped i then plain else s.reject i
  | .seq, 0x6C => s.holdLow Reg.SEQ_SREG_LO_VAL_LO i v
  | .seq, 0x70 => s.after (execSeqSregHiWrite i agent v s)
  | _, _ => plain

/-- FAB_BAR_CFG: at the home device, F is taken from the home die's E when the entry is written (R454). -/
def State.barCfgWrite (s : State) (agent : Nat) (l : RegLoc) (v : Nat) : State :=
  let t := s.plainWrite agent l v
  let g := s.rd Reg.FAB_BAR_SEL_GROUP 0
  match t.homeDie g with
  | some d =>
    if t.on Reg.FAB_BAR_CFG_VALID 0 g && t.rd Reg.FAB_BAR_CFG_HOME 0 g == t.devId then
      ({ t with barSrc := t.barSrc.put [] g [] } : State).wr Reg.FAB_BAR_EPOCH_F 0 (t.rd Reg.NOC_BAR_EPOCH_EXPECT d g) g
    else t
  | none => t

/-- A write of CANE_CTRL: each bit that is set acts, the lowest first (R433). -/
def State.caneCtrlWrite (s : State) (agent k v : Nat) : State :=
  let s := if v.testBit 0 then s.after (execRetrainFast k agent s) else s
  let s := if v.testBit 1 then s.after (execRetrainFull k agent s) else s
  let s := if v.testBit 2 then s.after (execPark k agent s) else s
  if v.testBit 3 then s.after (execTrain k agent s) else s

/-- A write of a register of the control die or of a port die that has behaviour of its own. -/
def State.deviceRegWrite (s : State) (agent : Nat) (l : RegLoc) (v : Nat) : State :=
  let plain := s.plainWrite agent l v
  match l.blk, l.off with
  | .cane, 0x8 => s.caneCtrlWrite agent l.inst v
  | .fab, 0x44 => if s.on Reg.FAB_TIME_CFG_MASTER 0 && !v.testBit 30 then plain.flag Reg.FAB_TIME_CFG_VALID 0 false else plain
  | .fab, 0x48 => s.holdLow Reg.FAB_TIME_LO_TIME_LO 0 v
  | .fab, 0x4C => s.after (execFabTimeHiWrite agent v s)
  | .fab, 0x64 => s.barCfgWrite agent l v
  | .dev, 0x40 =>
    if agent ≠ 0 ∨ v.testBit 31 = true then s.after (execDevLocationWrite agent (v % 512) s)
    else if s.on Reg.DEV_LOCATION_VALID 0 then s
    else plain
  | .boot, 0x4 =>
    match v / 2 ^ 29 % 8 with
    | 1 => s.after (execWarm agent s)
    | 2 => s.after (execCold agent s)
    | 3 => s.after (execClearSafe agent s)
    | _ => s
  | .boot, 0x2C => s.after (execBootHeartbeat agent v s)
  | .batch, 0x0 =>
    let op := v / 2 ^ 29 % 4
    let put := if agent = 1 ∨ agent = 2 then plain else s
    if v.testBit 31 ∧ op ≠ 3 then s.batchGo agent op (v / 2 ^ 24 % 16) else put
  | .batch, o => if (agent = 1 ∨ agent = 2) ∨ 0x10 ≤ o then plain else s
  | .therm, 0x8 => if agent ≠ 0 ∨ v.testBit 0 = true then s.after (execClearTrip agent s) else s
  | .flt, 0x18 =>
    match s.shown l 0 with
    | some fn => s.after (execFltRingTailWrite agent fn (v % 65536) s)
    | none => s
  | .flt, 0x28 =>
    let t := if agent = 1 ∨ agent = 2 then plain else s
    if v.testBit 0 then t.after (execWithdrawReq agent t) else t
  | _, _ => plain

/-- A write of a function's own registers (R556, R560, R562, R565). -/
def State.hostRegWrite (s : State) (agent : Nat) (l : RegLoc) (v : Nat) : State :=
  let fn := l.inst
  let q := s.rd Reg.HOST_Q_SEL_Q fn
  let plain := s.plainWrite agent l v
  match l.off with
  | 0x08 => if s.on Reg.HOST_Q_CFG_ENABLE fn q then s else plain
  | 0x10 => if s.on Reg.HOST_Q_CFG_ENABLE fn q then s else plain
  | 0x18 =>
    let t := plain.flag Reg.HOST_Q_CFG_ENABLE fn (s.on Reg.HOST_Q_CFG_ENABLE fn q) q
    t.after (execQueueEnableWrite fn q (v.testBit 31) t)
  | 0x30 => if v.testBit 31 then plain.mboxGo fn else plain
  | _ => plain

/-- A register written by an agent that reaches it. -/
def State.regWrite (s : State) (agent : Nat) (l : RegLoc) (v : Nat) : State :=
  match l.blk with
  | .host => s.hostRegWrite agent l v
  | .dev => s.deviceRegWrite agent l v
  | .boot => s.deviceRegWrite agent l v
  | .batch => s.deviceRegWrite agent l v
  | .part => s.plainWrite agent l v
  | .pwr => s.plainWrite agent l v
  | .therm => s.deviceRegWrite agent l v
  | .vr => s.plainWrite agent l v
  | .flt => s.deviceRegWrite agent l v
  | .mod => s.plainWrite agent l v
  | .cane => s.deviceRegWrite agent l v
  | .fab => s.deviceRegWrite agent l v
  | .memb => s.plainWrite agent l v
  | .noc => s.plainWrite agent l v
  | .pkg => s.plainWrite agent l v
  | .dreg => s.plainWrite agent l v
  | .mema => s.plainWrite agent l v
  | _ => s.benchRegWrite agent l v

/-- The DEV and BOOT windows of a function page are read only (R553). -/
def readOnlyPage (r : RegAt) : Bool :=
  match r with
  | .page o => decide (0x8000 ≤ o)
  | .loc _ => false

/-- A 32-bit write over the register path (R351, R553). A function's write to an RW-G field in a read-only window is recorded as any
other (R19). -/
def State.writeAt (s : State) (agent : Nat) (r : RegAt) (v : Nat) (ecc : List (Nat × Ecc) := []) : State :=
  match s.reached agent r with
  | .unmapped => s.unmapped r
  | .zero => s
  | .other p => s.windowAccess p (some v) ecc
  | .reg l =>
    if readOnlyPage r then (if l.fields.any (fun f => f.acc = Access.rwg) then s.lockedWrite l.addr agent else s)
    else match (dieOfAddr l.addr).filter s.cutOff with
      | some d => s.accessLost d
      | none => s.regWrite agent l (v % 2 ^ 32)

/-- REGISTER_WRITE (R18, R19): each field of the register under its access type; a field with behaviour of its own does what its
command does. -/
def execRegisterWrite (agent : Nat) (r : RegAt) (value : Nat) (s : State) (ecc : List (Nat × Ecc) := []) :
    Host.Outcome State Fault Refusal :=
  okIf (isAccessor agent) (s.writeAt agent r value ecc)

/-- IMEM_WRITE (R263, R353): bytes written through the bench window from outside; a bench whose clock is stopped makes it wait (R34). -/
def execImemWrite (agent gb off : Nat) (data : List Byte) (s : State) : Host.Outcome State Fault Refusal :=
  okIf (isAccessor agent && decide (gb < 2560) && decide (off + data.length ≤ 0x8000))
    (if !s.reachesBench agent gb then s.unmapped (.loc (imemBase gb + off))
    else if s.cutOff (gb / 160) then s.accessLost (gb / 160)
    else if s.clockStopped gb then s
    else s.imemWrite gb off data)

/-! ### The broadcast window -/

/-- One target of a transfer's broadcast takes the data, or not yet: its clock is stopped; a tag makes it wait, and it takes an entry
of the target; or it waits at the target's port behind other requests (R34, R257, R367). -/
def State.bcastTarget (s : State) (x : Xfer) (off : Nat) (ecc : List (Nat × List (Nat × Ecc))) (gb : Nat) : State × Bool :=
  let q := s.remoteWait.get [] gb
  let tagged := decide (off < 0x60000) && (s.regionWait gb ⟨off, x.len, true, x.rtag⟩).isSome
  if s.clockStopped gb then (s, false)
  else if tagged || (if q.contains x.id then !(q.take 9).contains x.id else s.portBlocked gb) then
    (if q.contains x.id then s else s.holdRemote gb x.id, false)
  else
    let s := { s with remoteWait := s.remoteWait.put [] gb (q.filter (fun k => k != x.id)) }
    if off < 0x60000 then (s.remoteWrite gb (((ecc.find? (fun e => e.1 == gb)).map Prod.snd).getD []) off x.data x.rtag, true)
    else (s.imemWrite gb (off - 0x100000) x.data, true)

/-- A transfer's broadcast (R366, R367): every selected bench of the sender's partition that has not acknowledged writes the data
where it may; the transfer is answered when the last has. While the partition is loading it is refused (R384). A target on a die
that the sender's does not reach fails it (R363). -/
def State.bcastXfer (s : State) (id : Nat) (ecc : List (Nat × List (Nat × Ecc))) : State :=
  match s.xfer id with
  | none => s
  | some x =>
    match placeOf x.ext with
    | .bcast sel off =>
      if x.tgt ≠ 0 ∨ x.kind = .get ∨ x.phase ≠ .requested ∨ x.resp.isSome = true then s
      else if s.refuses x.gb x.gb then (s.benchReport x.gb 31 0x0510 x.ext).respond id .denied
      else
        let todo := (s.selected sel).filter (fun gb => s.partOf gb == s.partOf x.gb && !x.acks.contains gb)
        match todo.find? (fun gb => !s.reachable (x.gb / 160) (gb / 160)) with
        | some gb => (s.reportUnreachable (x.gb / 160) (gb / 160)).respond id .failed
        | none =>
          let r := todo.foldl (fun (acc : State × List Nat) gb =>
            match acc.1.bcastTarget x off ecc gb with
            | (t, true) => (t, acc.2 ++ [gb])
            | (t, false) => (t, acc.2)) (s, x.acks)
          let t := r.1.modXfer id (fun y => { y with acks := r.2 })
          if r.2.length = x.acks.length + todo.length then t.respond id .ack else t
    | _ => s

/-- A broadcast of the gaffer or the servitor (R365, R366): bytes to a scratchpad or instruction-memory offset of every selected
bench, or 32 bits to a register of each. It waits while a clock it needs is stopped (R34, R354, R367). An address that is not mapped,
one past the end of what it names among them, is reported (R351), and so is a die that is cut off, whose benches take nothing (R363). -/
def State.bcastService (s : State) (agent a : Nat) (data : List Byte) (ecc : List (Nat × List (Nat × Ecc))) : State :=
  match placeOf a with
  | .bcast sel off =>
    let targets := s.selected sel
    match benchPlace 0 off with
    | .benchReg _ o => targets.foldl (fun t gb => t.writeAt agent (.loc (spadBase gb + 0x200000 + o)) (ofBytes data)) s
    | .unmapped => s.unmapped (.loc a)
    | _ =>
      if (if off < 0x60000 then 0x60000 else 0x108000) < off + data.length then s.unmapped (.loc a)
      else
        let near := targets.filter (fun gb => !s.cutOff (gb / 160))
        let far := (targets.filter (fun gb => s.cutOff (gb / 160))).map (· / 160)
        if near.any (fun gb => s.clockStopped gb) then s
        else near.foldl (fun t gb =>
          if off < 0x60000 then t.remoteWrite gb (((ecc.find? (fun e => e.1 == gb)).map Prod.snd).getD []) off data 0
          else t.imemWrite gb (off - 0x100000) data) (far.eraseDups.foldl State.accessLost s)
  | .unmapped => s.unmapped (.loc a)
  | _ => s

/-- BROADCAST_WRITE (R366, R367). -/
def execBroadcastWrite (src : BcSender) (ecc : List (Nat × List (Nat × Ecc))) (s : State) : Host.Outcome State Fault Refusal :=
  match src with
  | .xfer id => okIf true (s.bcastXfer id ecc)
  | .service agent a data => okIf (isService agent) (s.bcastService agent a data ecc)

/-! ### The host's BARs -/

/-- The answer to a host read: what the register path returned. -/
def State.answerHost (s : State) (fn : Nat) : State := s.emit (.hostRead fn s.readData)

/-- A host read whose value the spec leaves open. -/
def State.answerOpen (s : State) (fn : Nat) : State := (s.free).2.emit (.hostRead fn (s.free).1.toNat)

/-- A host access of a bench's scratchpad (R257, R258, R550, R552): a bypass access; refused for a bench that is unassigned or
loading; it waits while the bench's clock is stopped. What a refused or failed read returns is open. -/
def State.hostSpad (s : State) (fn gb off len : Nat) (data : Option (List Byte)) (ecc : List (Nat × Ecc)) : State :=
  if s.clockStopped gb then s
  else if s.partOf gb = 255 ∨ s.rd Reg.PART_STATUS_STATE 0 (s.partOf gb) = 1 then
    (if data.isSome then s else s.answerOpen fn)
  else match data with
    | some bs => if off + bs.length ≤ 0x60000 then s.remoteWrite gb ecc off bs 0 else s
    | none =>
      if 0x60000 < off + len then s
      else match s.remoteRead gb ecc off len 0 with
        | (t, some bs) => t.emit (.hostRead fn (ofBytes bs))
        | (t, none) => t.answerOpen fn

/-- A 32-bit host access over the register path. -/
def State.hostReg (s : State) (fn : Nat) (r : RegAt) (data : Option (List Byte)) : State :=
  match data with
  | some bs => s.writeAt (agentOf fn) r (ofBytes bs)
  | none => (s.readAt (agentOf fn) r).answerHost fn

/-- A host access of BAR2: bench windows and die registers (R550, R551). -/
def State.hostBar2 (s : State) (fn off len : Nat) (data : Option (List Byte)) (ecc : List (Nat × Ecc)) : State :=
  let a := 0x20000000000 + off % 2 ^ 36
  match placeOf a with
  | .spad gb o =>
    if !s.reachesBench (agentOf fn) gb then s.hostReg fn (.loc a) data
    else if s.cutOff (gb / 160) then (if data.isSome then s.accessLost (gb / 160) else (s.accessLost (gb / 160)).answerHost fn)
    else s.hostSpad fn gb o len data ecc
  | .imem gb o =>
    if !s.reachesBench (agentOf fn) gb then s.hostReg fn (.loc a) data
    else if s.cutOff (gb / 160) then (if data.isSome then s.accessLost (gb / 160) else (s.accessLost (gb / 160)).answerHost fn)
    else if s.clockStopped gb then s
    else match data with
      | some bs => if o + bs.length ≤ 0x8000 then s.imemWrite gb o bs else s
      | none => s.emit (.hostRead fn (ofBytes (s.bytes (imemBase gb + o) (min len (0x8000 - o)))))
  | _ => s.hostReg fn (.loc a) data

/-- The doorbell of an offset of a function page, for SQ or CQ (R553). -/
def State.doorbell (s : State) (fn off value : Nat) : State :=
  let q := (off - 0x1000) / 8
  if off % 8 = 0 then s.after (execSqDoorbell fn q value s) else s.after (execCqDoorbell fn q value s)

/-- A word of the pending-bit array (R553, R561). -/
def State.pendWord (s : State) (fn w : Nat) : Nat :=
  maskOf ((List.range 32).map (fun k => s.msixPend.get false (2048 * fn + 32 * w + k)))

/-- A host access of BAR0, the page of the function (R553); what the page does not list reads as zero. -/
def State.hostBar0 (s : State) (fn off len : Nat) (data : Option (List Byte)) : State :=
  let o := off % 65536
  let zero := if data.isSome then s else s.emit (.hostRead fn 0)
  if 0x1000 ≤ o ∧ o < 0x1020 then
    match data with
    | some bs => s.doorbell fn (o / 4 * 4) (ofBytes bs % 2 ^ 32)
    | none => s.emit (.hostRead fn 0)
  else if 0x2000 ≤ o ∧ o < 0x2000 + 16 * msixVectors fn then
    let k := 256 * fn + (o - 0x2000) / 4
    match data with
    | some bs => { s with msixTab := s.msixTab.put 0 k (ofBytes bs % 2 ^ 32) }
    | none => s.emit (.hostRead fn (s.msixTab.get 0 k))
  else if 0x2800 ≤ o ∧ o < 0x2808 then
    if data.isSome then s else s.emit (.hostRead fn (s.pendWord fn ((o - 0x2800) / 4)))
  else if 0x4000 ≤ o ∧ o < 0x5000 then
    match data with
    | some bs => { s with mbox := s.mbox.put [] fn (putBytes (s.mboxOf fn) (o - 0x4000) bs) }
    | none =>
      let n := min len (0x5000 - o)
      s.emit (.hostRead fn (ofBytes (((s.mboxOf fn).drop (o - 0x4000)).take n)))
  else if o < 0x1000 ∨ (0x3000 ≤ o ∧ o < 0x301C) ∨ (0x8000 ≤ o ∧ o < 0x8100) ∨ (0x9000 ≤ o ∧ o < 0x9100) then
    s.hostReg fn (.page o) data
  else zero

/-- What the BARs serve in safe mode: to the physical function alone, the DEV, BOOT and FLT registers and the recovery mailbox (R514). -/
def safeServes (fn bar off : Nat) : Bool :=
  fn == 0 && (match bar with
    | 0 =>
      let o := off % 65536
      (decide (0x28 ≤ o) && decide (o < 0x40)) || (decide (0x3000 ≤ o) && decide (o < 0x5000)) || decide (0x8000 ≤ o)
    | 4 => [0, 1, 7].contains (off % 2 ^ 36 / 0x1000)
    | _ => false)

/-- HOST_BAR_ACCESS (R549 to R553): an access of `len` bytes by a function, a write where data is given. Only the physical function
has a BAR4. What safe mode does not serve has no effect, and its read an open value (R514; DESIGN CHOICE, assumption log 90). -/
def execHostBarAccess (fn bar off len : Nat) (data : Option (List Byte)) (ecc : List (Nat × Ecc)) (s : State) :
    Host.Outcome State Fault Refusal :=
  okIf (decide (fn < 17) && (bar == 0 || bar == 2 || (bar == 4 && fn == 0)))
    (if s.rd Reg.BOOT_STATUS_MODE 0 = 2 ∧ safeServes fn bar off = false then (if data.isSome then s else s.answerOpen fn)
    else match bar with
    | 0 => s.hostBar0 fn off len data
    | 2 => s.hostBar2 fn off len data ecc
    | _ => s.hostReg fn (.loc (0x7F000000000 + off % 2 ^ 36)) data)

/-- HOST_READ_STOPPED_TIMEOUT (R552): the clock of the bench stays stopped for 1 ms: a read ends with Completer Abort, a write is
dropped; no record is made. -/
def execHostReadStoppedTimeout (fn off : Nat) (write : Bool) (s : State) : Host.Outcome State Fault Refusal :=
  okIf (decide (fn < 17))
    (match placeOf (0x20000000000 + off % 2 ^ 36) with
    | .spad gb _ => if s.clockStopped gb && s.reachesBench (agentOf fn) gb && !write then s.emit (.hostAbort fn) else s
    | .imem gb _ => if s.clockStopped gb && s.reachesBench (agentOf fn) gb && !write then s.emit (.hostAbort fn) else s
    | _ => s)

end Sys2Proof.Machine
end

