-- ==== Sys2Proof/Machine/Dispatch.lean ====
section
/-! DEFINITION. The dispatcher: one arm per command, each one call of its meaning. -/

namespace Sys2Proof.Machine

open Sys2Proof

def exec (i : Instr) (s : State) : Host.Outcome State Fault Refusal :=
  match i with
  | .nop gb fetch => Sys2Proof.Machine.execNop gb fetch s
  | .endProg gb fetch => Sys2Proof.Machine.execEndProg gb fetch s
  | .endReached gb => Sys2Proof.Machine.execEndReached gb s
  | .br gb fetch => Sys2Proof.Machine.execBr gb fetch s
  | .brc gb fetch => Sys2Proof.Machine.execBrc gb fetch s
  | .loop gb fetch => Sys2Proof.Machine.execLoop gb fetch s
  | .loopw gb fetch => Sys2Proof.Machine.execLoopw gb fetch s
  | .alu gb fetch => Sys2Proof.Machine.execAlu gb fetch s
  | .alui gb fetch => Sys2Proof.Machine.execAlui gb fetch s
  | .movi gb fetch => Sys2Proof.Machine.execMovi gb fetch s
  | .movl gb fetch => Sys2Proof.Machine.execMovl gb fetch s
  | .ld gb env => Sys2Proof.Machine.execLd gb env s
  | .st gb env => Sys2Proof.Machine.execSt gb env s
  | .instructionIssue gb ev cycles => Sys2Proof.Machine.execInstructionIssue gb ev cycles s
  | .instructionRetire gb u => Sys2Proof.Machine.execInstructionRetire gb u s
  | .potPass gb p env => Sys2Proof.Machine.execPotPass gb p env s
  | .poolAbort gb p => Sys2Proof.Machine.execPoolAbort gb p s
  | .potLoad gb p env => Sys2Proof.Machine.execPotLoad gb p env s
  | .tiledLoad gb p env => Sys2Proof.Machine.execTiledLoad gb p env s
  | .updateSweep gb p env => Sys2Proof.Machine.execUpdateSweep gb p env s
  | .workingLoad gb p env => Sys2Proof.Machine.execWorkingLoad gb p env s
  | .emissionWriteFail id => Sys2Proof.Machine.execEmissionWriteFail id s
  | .potWitStorm gb p => Sys2Proof.Machine.execPotWitStorm gb p s
  | .targetedSlice gb p bad logic waited => Sys2Proof.Machine.execTargetedSlice gb p bad logic waited s
  | .shadowReload gb p env => Sys2Proof.Machine.execShadowReload gb p env s
  | .stReq gb p => Sys2Proof.Machine.execStReq gb p s
  | .inServiceSlice gb p fails logic metaBad waited => Sys2Proof.Machine.execInServiceSlice gb p fails logic metaBad waited s
  | .sliceForceTimeout gb p => Sys2Proof.Machine.execSliceForceTimeout gb p s
  | .potStOverdue gb p => Sys2Proof.Machine.execPotStOverdue gb p s
  | .metaSlice gb p badWord waited => Sys2Proof.Machine.execMetaSlice gb p badWord waited s
  | .compare gb env noise => Sys2Proof.Machine.execCompare gb env noise s
  | .maskRecordDelivery gb => Sys2Proof.Machine.execMaskRecordDelivery gb s
  | .loadSketch gb env mismatch => Sys2Proof.Machine.execLoadSketch gb env mismatch s
  | .calibrateNow gb env cal => Sys2Proof.Machine.execCalibrateNow gb env cal s
  | .calReq gb => Sys2Proof.Machine.execCalReq gb s
  | .calAgeTrigger gb ms => Sys2Proof.Machine.execCalAgeTrigger gb ms s
  | .calTempTrigger gb temp => Sys2Proof.Machine.execCalTempTrigger gb temp s
  | .calibration gb cal => Sys2Proof.Machine.execCalibration gb cal s
  | .mm gb env => Sys2Proof.Machine.execMm gb env s
  | .vecAdd gb env => Sys2Proof.Machine.execVecAdd gb env s
  | .vecMul gb env => Sys2Proof.Machine.execVecMul gb env s
  | .vecMax gb env => Sys2Proof.Machine.execVecMax gb env s
  | .vecScale gb env => Sys2Proof.Machine.execVecScale gb env s
  | .vecAddi gb env => Sys2Proof.Machine.execVecAddi gb env s
  | .vecExp gb env => Sys2Proof.Machine.execVecExp gb env s
  | .vecRecip gb env => Sys2Proof.Machine.execVecRecip gb env s
  | .vecSqrt gb env => Sys2Proof.Machine.execVecSqrt gb env s
  | .vecRsum gb env => Sys2Proof.Machine.execVecRsum gb env s
  | .vecRmax gb env => Sys2Proof.Machine.execVecRmax gb env s
  | .vecSoftmax gb env => Sys2Proof.Machine.execVecSoftmax gb env s
  | .vecQuant gb env => Sys2Proof.Machine.execVecQuant gb env s
  | .vecDequant gb env => Sys2Proof.Machine.execVecDequant gb env s
  | .vecTrans gb env => Sys2Proof.Machine.execVecTrans gb env s
  | .vecMxin gb env => Sys2Proof.Machine.execVecMxin gb env s
  | .vecMxout gb env => Sys2Proof.Machine.execVecMxout gb env s
  | .jackSlice gb fails waited => Sys2Proof.Machine.execJackSlice gb fails waited s
  | .fill gb env => Sys2Proof.Machine.execFill gb env s
  | .copy gb env => Sys2Proof.Machine.execCopy gb env s
  | .tagset gb => Sys2Proof.Machine.execTagset gb s
  | .spadTagCtrlGo gb agent value count firstSlot => Sys2Proof.Machine.execSpadTagCtrlGo gb agent value count firstSlot s
  | .spadCorrectedWriteback gb granule => Sys2Proof.Machine.execSpadCorrectedWriteback gb granule s
  | .tagWaitRelease gb unit => Sys2Proof.Machine.execTagWaitRelease gb unit s
  | .remoteRead gb id ecc => Sys2Proof.Machine.execRemoteRead gb id ecc s
  | .remoteWrite gb id ecc => Sys2Proof.Machine.execRemoteWrite gb id ecc s
  | .remoteWaitProceed gb ecc => Sys2Proof.Machine.execRemoteWaitProceed gb ecc s
  | .dmaGet gb env => Sys2Proof.Machine.execDmaGet gb env s
  | .dmaPut gb env => Sys2Proof.Machine.execDmaPut gb env s
  | .dmaFence gb env => Sys2Proof.Machine.execDmaFence gb env s
  | .trackerGrant die ecc => Sys2Proof.Machine.execTrackerGrant die ecc s
  | .regulatorWindow die ecc => Sys2Proof.Machine.execRegulatorWindow die ecc s
  | .mergeTimeout id => Sys2Proof.Machine.execMergeTimeout id s
  | .inboundTransferArrival id inb => Sys2Proof.Machine.execInboundTransferArrival id inb s
  | .transferComplete id ecc => Sys2Proof.Machine.execTransferComplete id ecc s
  | .transferTimeout id => Sys2Proof.Machine.execTransferTimeout id s
  | .pqPut gb env => Sys2Proof.Machine.execPqPut gb env s
  | .pqGet gb env => Sys2Proof.Machine.execPqGet gb env s
  | .pqRel gb env => Sys2Proof.Machine.execPqRel gb env s
  | .pqHandleSend gb env => Sys2Proof.Machine.execPqHandleSend gb env s
  | .pqHandleArrival gb word payload ecc => Sys2Proof.Machine.execPqHandleArrival gb word payload ecc s
  | .pqDeliveryAck gb sq fails => Sys2Proof.Machine.execPqDeliveryAck gb sq fails s
  | .pqCreditReturn gb => Sys2Proof.Machine.execPqCreditReturn gb s
  | .benchStuck gb cycles => Sys2Proof.Machine.execBenchStuck gb cycles s
  | .deadlockDetect p => Sys2Proof.Machine.execDeadlockDetect p s
  | .pqRemoteLong gb => Sys2Proof.Machine.execPqRemoteLong gb s
  | .streamClockWait gb => Sys2Proof.Machine.execStreamClockWait gb s
  | .arrive gb fetch => Sys2Proof.Machine.execArrive gb fetch s
  | .arrivalSend gb => Sys2Proof.Machine.execArrivalSend gb s
  | .wait gb fetch => Sys2Proof.Machine.execWait gb fetch s
  | .barrierRelease gb ctx epoch => Sys2Proof.Machine.execBarrierRelease gb ctx epoch s
  | .staggerOpen gb => Sys2Proof.Machine.execStaggerOpen gb s
  | .seqBarLong gb cycles => Sys2Proof.Machine.execSeqBarLong gb cycles s
  | .start gb agent => Sys2Proof.Machine.execStart gb agent s
  | .halt gb agent => Sys2Proof.Machine.execHalt gb agent s
  | .drainComplete gb => Sys2Proof.Machine.execDrainComplete gb s
  | .resumeReissue gb agent => Sys2Proof.Machine.execResumeReissue gb agent s
  | .resumeSkip gb agent => Sys2Proof.Machine.execResumeSkip gb agent s
  | .abort gb agent => Sys2Proof.Machine.execAbort gb agent s
  | .seqBarArriveWrite gb agent epoch => Sys2Proof.Machine.execSeqBarArriveWrite gb agent epoch s
  | .seqSregHiWrite gb agent high => Sys2Proof.Machine.execSeqSregHiWrite gb agent high s
  | .benchPrngStateHiWrite gb agent high => Sys2Proof.Machine.execBenchPrngStateHiWrite gb agent high s
  | .captureRead agent r => Sys2Proof.Machine.execCaptureRead agent r s
  | .rcCounterRead agent r ecc => Sys2Proof.Machine.execRcCounterRead agent r s ecc
  | .registerWrite agent r value ecc => Sys2Proof.Machine.execRegisterWrite agent r value s ecc
  | .imemWrite agent gb off data => Sys2Proof.Machine.execImemWrite agent gb off data s
  | .devLocationWrite agent id => Sys2Proof.Machine.execDevLocationWrite agent id s
  | .meshFlitReceive die node dir ecc load => Sys2Proof.Machine.execMeshFlitReceive die node dir ecc load s
  | .pkgFlitReceive die edge f good => Sys2Proof.Machine.execPkgFlitReceive die edge f good s
  | .pkgAckTimeout die edge => Sys2Proof.Machine.execPkgAckTimeout die edge s
  | .pkgRetrainEnd die edge ok => Sys2Proof.Machine.execPkgRetrainEnd die edge ok s
  | .barArrivalHome die group epoch => Sys2Proof.Machine.execBarArrivalHome die group epoch s
  | .broadcastWrite src ecc => Sys2Proof.Machine.execBroadcastWrite src ecc s
  | .wholeLoad agent part => Sys2Proof.Machine.execWholeLoad agent part s
  | .partitionLoad agent part => Sys2Proof.Machine.execPartitionLoad agent part s
  | .unload agent part => Sys2Proof.Machine.execUnload agent part s
  | .batchCopyDone img lasting => Sys2Proof.Machine.execBatchCopyDone img lasting s
  | .batchVerifyDone => Sys2Proof.Machine.execBatchVerifyDone s
  | .batchCheckDone vals => Sys2Proof.Machine.execBatchCheckDone vals s
  | .quiesceDone => Sys2Proof.Machine.execQuiesceDone s
  | .quiesceTimeout => Sys2Proof.Machine.execQuiesceTimeout s
  | .applyDone retired => Sys2Proof.Machine.execApplyDone retired s
  | .tierRead id ecc => Sys2Proof.Machine.execTierRead id ecc s
  | .tierWrite id ecc crc => Sys2Proof.Machine.execTierWrite id ecc crc s
  | .tierWriteback block => Sys2Proof.Machine.execTierWriteback block s
  | .scrubRead ctl ecc covered => Sys2Proof.Machine.execScrubRead ctl ecc covered s
  | .tierTargetLoss dev => Sys2Proof.Machine.execTierTargetLoss dev s
  | .caneFlitReceive cane f good uncorr train => Sys2Proof.Machine.execCaneFlitReceive cane f good uncorr train s
  | .caneReplayTimeout cane => Sys2Proof.Machine.execCaneReplayTimeout cane s
  | .caneTraining cane tries => Sys2Proof.Machine.execCaneTraining cane tries s
  | .retrainEpisode cane fast tries => Sys2Proof.Machine.execRetrainEpisode cane fast tries s
  | .lossOfSignal cane => Sys2Proof.Machine.execLossOfSignal cane s
  | .laneErrorWindow cane symbols full => Sys2Proof.Machine.execLaneErrorWindow cane symbols full s
  | .leaveFlit cane good => Sys2Proof.Machine.execLeaveFlit cane good s
  | .autoRetry cane => Sys2Proof.Machine.execAutoRetry cane s
  | .train k agent => Sys2Proof.Machine.execTrain k agent s
  | .park k agent => Sys2Proof.Machine.execPark k agent s
  | .retrainFull k agent => Sys2Proof.Machine.execRetrainFull k agent s
  | .retrainFast k agent => Sys2Proof.Machine.execRetrainFast k agent s
  | .cablePresenceChange conn high => Sys2Proof.Machine.execCablePresenceChange conn high s
  | .get k m crc ecc => Sys2Proof.Machine.execGet k m crc ecc s
  | .put k m crc ecc burst => Sys2Proof.Machine.execPut k m crc ecc burst s
  | .atomic k m crc ecc => Sys2Proof.Machine.execAtomic k m crc ecc s
  | .hdlData k m crc => Sys2Proof.Machine.execHdlData k m crc s
  | .hdl k m crc ecc => Sys2Proof.Machine.execHdl k m crc ecc s
  | .coll k m crc => Sys2Proof.Machine.execColl k m crc s
  | .barArrive k m crc => Sys2Proof.Machine.execBarArrive k m crc s
  | .barRelease k m crc => Sys2Proof.Machine.execBarRelease k m crc s
  | .stop k m crc => Sys2Proof.Machine.execStop k m crc s
  | .notice k m crc => Sys2Proof.Machine.execNotice k m crc s
  | .cap k m crc => Sys2Proof.Machine.execCap k m crc s
  | .sync k m crc sub => Sys2Proof.Machine.execSync k m crc sub s
  | .followUp k m crc sub => Sys2Proof.Machine.execFollowUp k m crc sub s
  | .delayReq k m crc sub => Sys2Proof.Machine.execDelayReq k m crc sub s
  | .delayResp k m crc disturbed => Sys2Proof.Machine.execDelayResp k m crc disturbed s
  | .rsp k m crc => Sys2Proof.Machine.execRsp k m crc s
  | .rspData k m crc => Sys2Proof.Machine.execRspData k m crc s
  | .mgmtAck k m crc => Sys2Proof.Machine.execMgmtAck k m crc s
  | .messageTransit k dir m => Sys2Proof.Machine.execMessageTransit k dir m s
  | .fabTimeout tid => Sys2Proof.Machine.execFabTimeout tid s
  | .busyResend tid => Sys2Proof.Machine.execBusyResend tid s
  | .cacheEntryExpiry k src tid => Sys2Proof.Machine.execCacheEntryExpiry k src tid s
  | .syncPeriod master sub => Sys2Proof.Machine.execSyncPeriod master sub s
  | .fabTimeLost => Sys2Proof.Machine.execFabTimeLost s
  | .collQueuePoll ring => Sys2Proof.Machine.execCollQueuePoll ring s
  | .collComplete ring => Sys2Proof.Machine.execCollComplete ring s
  | .controllerTick env => Sys2Proof.Machine.execControllerTick env s
  | .pointChangeDone die => Sys2Proof.Machine.execPointChangeDone die s
  | .dutyWindow avg => Sys2Proof.Machine.execDutyWindow avg s
  | .leaseExpiry => Sys2Proof.Machine.execLeaseExpiry s
  | .phaseTest die phase first again => Sys2Proof.Machine.execPhaseTest die phase first again s
  | .softThrottle die temp => Sys2Proof.Machine.execSoftThrottle die temp s
  | .hardThrottle die temp => Sys2Proof.Machine.execHardThrottle die temp s
  | .thermalTrip die temp => Sys2Proof.Machine.execThermalTrip die temp s
  | .lehrExit die temp => Sys2Proof.Machine.execLehrExit die temp s
  | .clearTrip agent => Sys2Proof.Machine.execClearTrip agent s
  | .p0ResidencyLimit die => Sys2Proof.Machine.execP0ResidencyLimit die s
  | .p0MinuteTick => Sys2Proof.Machine.execP0MinuteTick s
  | .coolantInletHigh inlet outlet => Sys2Proof.Machine.execCoolantInletHigh inlet outlet s
  | .telemetryPublish waited running crossed => Sys2Proof.Machine.execTelemetryPublish waited running crossed s
  | .coldStart env => Sys2Proof.Machine.execColdStart env s
  | .warmRestart env => Sys2Proof.Machine.execWarmRestart env s
  | .failureRestart => Sys2Proof.Machine.execFailureRestart s
  | .locWaitTimeout => Sys2Proof.Machine.execLocWaitTimeout s
  | .caneTrainingDone env => Sys2Proof.Machine.execCaneTrainingDone env s
  | .bootHeartbeat agent value => Sys2Proof.Machine.execBootHeartbeat agent value s
  | .heartbeatTimeout => Sys2Proof.Machine.execHeartbeatTimeout s
  | .gafferWdt => Sys2Proof.Machine.execGafferWdt s
  | .warm agent => Sys2Proof.Machine.execWarm agent s
  | .cold agent => Sys2Proof.Machine.execCold agent s
  | .clearSafe agent => Sys2Proof.Machine.execClearSafe agent s
  | .keyInstall => Sys2Proof.Machine.execKeyInstall s
  | .keyRevoke => Sys2Proof.Machine.execKeyRevoke s
  | .keyRaiseMinimum => Sys2Proof.Machine.execKeyRaiseMinimum s
  | .fwUpdate img => Sys2Proof.Machine.execFwUpdate img s
  | .attestation fn => Sys2Proof.Machine.execAttestation fn s
  | .certChain fn => Sys2Proof.Machine.execCertChain fn s
  | .mboxPartitionLoad fn => Sys2Proof.Machine.execMboxPartitionLoad fn s
  | .mboxPartitionUnload fn => Sys2Proof.Machine.execMboxPartitionUnload fn s
  | .ledgerRead => Sys2Proof.Machine.execLedgerRead s
  | .telemetrySnapshot fn bs => Sys2Proof.Machine.execTelemetrySnapshot fn bs s
  | .ringInterrupt fn => Sys2Proof.Machine.execRingInterrupt fn s
  | .fltRingTailWrite agent fn value => Sys2Proof.Machine.execFltRingTailWrite agent fn value s
  | .withdrawButton down => Sys2Proof.Machine.execWithdrawButton down s
  | .withdrawForced => Sys2Proof.Machine.execWithdrawForced s
  | .withdrawReq agent => Sys2Proof.Machine.execWithdrawReq agent s
  | .graceExpiry => Sys2Proof.Machine.execGraceExpiry s
  | .withdrawStopDone => Sys2Proof.Machine.execWithdrawStopDone s
  | .leaveDone timeout => Sys2Proof.Machine.execLeaveDone timeout s
  | .latchOpen closed => Sys2Proof.Machine.execLatchOpen closed s
  | .hostLinkDown => Sys2Proof.Machine.execHostLinkDown s
  | .hostLinkUp width rate => Sys2Proof.Machine.execHostLinkUp width rate s
  | .sqDoorbell fn q value => Sys2Proof.Machine.execSqDoorbell fn q value s
  | .cqDoorbell fn q value => Sys2Proof.Machine.execCqDoorbell fn q value s
  | .sqEntryFetch fn q entry ok => Sys2Proof.Machine.execSqEntryFetch fn q entry ok s
  | .cmdNop fn q => Sys2Proof.Machine.execCmdNop fn q s
  | .copyIn fn q data ecc crc => Sys2Proof.Machine.execCopyIn fn q data ecc crc s
  | .copyOut fn q lost ecc => Sys2Proof.Machine.execCopyOut fn q lost ecc s
  | .cmdStart fn q => Sys2Proof.Machine.execCmdStart fn q s
  | .cmdHalt fn q => Sys2Proof.Machine.execCmdHalt fn q s
  | .cmdWait fn q => Sys2Proof.Machine.execCmdWait fn q s
  | .cmdAbort fn q => Sys2Proof.Machine.execCmdAbort fn q s
  | .commandCompletion fn q n => Sys2Proof.Machine.execCommandCompletion fn q n s
  | .queueEnableWrite fn q enable => Sys2Proof.Machine.execQueueEnableWrite fn q enable s
  | .hostBarAccess fn bar off len data ecc => Sys2Proof.Machine.execHostBarAccess fn bar off len data ecc s
  | .hostReadStoppedTimeout fn off write => Sys2Proof.Machine.execHostReadStoppedTimeout fn off write s
  | .hostFlr fn => Sys2Proof.Machine.execHostFlr fn s
  | .vinOutOfRange vin => Sys2Proof.Machine.execVinOutOfRange vin s
  | .hotSwapOpen vin => Sys2Proof.Machine.execHotSwapOpen vin s
  | .vinReturn vin => Sys2Proof.Machine.execVinReturn vin s
  | .coolantFlowLow flow => Sys2Proof.Machine.execCoolantFlowLow flow s
  | .mgmtBusFault parity => Sys2Proof.Machine.execMgmtBusFault parity s
  | .entdaa addr => Sys2Proof.Machine.execEntdaa addr s
  | .pollForPlatformEventMessage => Sys2Proof.Machine.execPollForPlatformEventMessage s
  | .deviceCap watts => Sys2Proof.Machine.execDeviceCap watts s
  | .capLease seconds => Sys2Proof.Machine.execCapLease seconds s
  | .fallback watts => Sys2Proof.Machine.execFallback watts s
  | .location id => Sys2Proof.Machine.execLocation id s
  | .restartWarm => Sys2Proof.Machine.execRestartWarm s
  | .restartCold => Sys2Proof.Machine.execRestartCold s
  | .withdraw state => Sys2Proof.Machine.execWithdraw state s
  | .identify state => Sys2Proof.Machine.execIdentify state s
  | .fabCap state => Sys2Proof.Machine.execFabCap state s
  | .recoveryLedgerRead n => Sys2Proof.Machine.execRecoveryLedgerRead n s
  | .recoveryFaultRead n => Sys2Proof.Machine.execRecoveryFaultRead n s
  | .recoveryFwPiece offset data => Sys2Proof.Machine.execRecoveryFwPiece offset data s
  | .recoveryKeyRead piece => Sys2Proof.Machine.execRecoveryKeyRead piece s
  | .recoveryRestart kind => Sys2Proof.Machine.execRecoveryRestart kind s
  | .fabTimeHiWrite agent value => Sys2Proof.Machine.execFabTimeHiWrite agent value s
  | .sensorIgnored die readings => Sys2Proof.Machine.execSensorIgnored die readings s
  | .bootStepLimit => Sys2Proof.Machine.execBootStepLimit s
  | .setEndpointId eid => Sys2Proof.Machine.execSetEndpointId eid s
  | .unknownMessageType k m crc => Sys2Proof.Machine.execUnknownMessageType k m crc s
  | .unmappedRegisterRead agent a => Sys2Proof.Machine.execUnmappedRegisterRead agent a s

end Sys2Proof.Machine
end

