-- ==== Sys2Proof/WellFormed.lean ====
section
/-! DEFINITION. Which commands name units and operands that the device has: benches 0 to 2,559, furnace dies 0 to 15, canes 0 to 35,
partitions 0 to 15, functions 0 to 16 and so on (R15, R16). A command that is not well formed stops with `Fault.noSuchUnit`. -/

namespace Sys2Proof

open Sys2Proof.Machine

/-- The command names units and operands that the device has. -/
def Instr.wf : Instr → Bool
  | .nop gb _ => decide (gb < 2560)
  | .endProg gb _ => decide (gb < 2560)
  | .endReached gb => decide (gb < 2560)
  | .br gb _ => decide (gb < 2560)
  | .brc gb _ => decide (gb < 2560)
  | .loop gb _ => decide (gb < 2560)
  | .loopw gb _ => decide (gb < 2560)
  | .alu gb _ => decide (gb < 2560)
  | .alui gb _ => decide (gb < 2560)
  | .movi gb _ => decide (gb < 2560)
  | .movl gb _ => decide (gb < 2560)
  | .ld gb _ => decide (gb < 2560)
  | .st gb _ => decide (gb < 2560)
  | .instructionIssue gb _ _ => decide (gb < 2560)
  | .instructionRetire gb u => decide (gb < 2560) && decide (u < 22)
  | .potPass gb p _ => decide (gb < 2560) && decide (p < 16)
  | .poolAbort gb p => decide (gb < 2560) && decide (p < 16)
  | .potLoad gb p _ => decide (gb < 2560) && decide (p < 16)
  | .tiledLoad gb p _ => decide (gb < 2560) && decide (p < 16)
  | .updateSweep gb p _ => decide (gb < 2560) && decide (p < 16)
  | .workingLoad gb p _ => decide (gb < 2560) && decide (p < 16)
  | .emissionWriteFail _ => true
  | .potWitStorm gb p => decide (gb < 2560) && decide (p < 16)
  | .targetedSlice gb p _ _ _ => decide (gb < 2560) && decide (p < 16)
  | .shadowReload gb p _ => decide (gb < 2560) && decide (p < 16)
  | .stReq gb p => decide (gb < 2560) && decide (p < 16)
  | .inServiceSlice gb p _ _ _ _ => decide (gb < 2560) && decide (p < 16)
  | .sliceForceTimeout gb p => decide (gb < 2560) && decide (p < 16)
  | .potStOverdue gb p => decide (gb < 2560) && decide (p < 16)
  | .metaSlice gb p _ _ => decide (gb < 2560) && decide (p < 16)
  | .compare gb _ _ => decide (gb < 2560)
  | .maskRecordDelivery gb => decide (gb < 2560)
  | .loadSketch gb _ _ => decide (gb < 2560)
  | .calibrateNow gb _ _ => decide (gb < 2560)
  | .calReq gb => decide (gb < 2560)
  | .calAgeTrigger gb _ => decide (gb < 2560)
  | .calTempTrigger gb _ => decide (gb < 2560)
  | .calibration gb _ => decide (gb < 2560)
  | .mm gb _ => decide (gb < 2560)
  | .vecAdd gb _ => decide (gb < 2560)
  | .vecMul gb _ => decide (gb < 2560)
  | .vecMax gb _ => decide (gb < 2560)
  | .vecScale gb _ => decide (gb < 2560)
  | .vecAddi gb _ => decide (gb < 2560)
  | .vecExp gb _ => decide (gb < 2560)
  | .vecRecip gb _ => decide (gb < 2560)
  | .vecSqrt gb _ => decide (gb < 2560)
  | .vecRsum gb _ => decide (gb < 2560)
  | .vecRmax gb _ => decide (gb < 2560)
  | .vecSoftmax gb _ => decide (gb < 2560)
  | .vecQuant gb _ => decide (gb < 2560)
  | .vecDequant gb _ => decide (gb < 2560)
  | .vecTrans gb _ => decide (gb < 2560)
  | .vecMxin gb _ => decide (gb < 2560)
  | .vecMxout gb _ => decide (gb < 2560)
  | .jackSlice gb _ _ => decide (gb < 2560)
  | .fill gb _ => decide (gb < 2560)
  | .copy gb _ => decide (gb < 2560)
  | .tagset gb => decide (gb < 2560)
  | .spadTagCtrlGo gb _ _ _ _ => decide (gb < 2560)
  | .spadCorrectedWriteback gb granule => decide (gb < 2560) && decide (granule < 12288)
  | .tagWaitRelease gb unit => decide (gb < 2560) && decide (unit < 22)
  | .remoteRead gb _ _ => decide (gb < 2560)
  | .remoteWrite gb _ _ => decide (gb < 2560)
  | .remoteWaitProceed gb _ => decide (gb < 2560)
  | .dmaGet gb _ => decide (gb < 2560)
  | .dmaPut gb _ => decide (gb < 2560)
  | .dmaFence gb _ => decide (gb < 2560)
  | .trackerGrant die _ => decide (die < 16)
  | .regulatorWindow die _ => decide (die < 16)
  | .mergeTimeout _ => true
  | .inboundTransferArrival _ _ => true
  | .transferComplete _ _ => true
  | .transferTimeout _ => true
  | .pqPut gb _ => decide (gb < 2560)
  | .pqGet gb _ => decide (gb < 2560)
  | .pqRel gb _ => decide (gb < 2560)
  | .pqHandleSend gb _ => decide (gb < 2560)
  | .pqHandleArrival gb _ _ _ => decide (gb < 2560)
  | .pqDeliveryAck gb _ _ => decide (gb < 2560)
  | .pqCreditReturn gb => decide (gb < 2560)
  | .benchStuck gb _ => decide (gb < 2560)
  | .deadlockDetect p => decide (p < 16)
  | .pqRemoteLong gb => decide (gb < 2560)
  | .streamClockWait gb => decide (gb < 2560)
  | .arrive gb _ => decide (gb < 2560)
  | .arrivalSend gb => decide (gb < 2560)
  | .wait gb _ => decide (gb < 2560)
  | .barrierRelease gb ctx _ => decide (gb < 2560) && decide (ctx < 4)
  | .staggerOpen gb => decide (gb < 2560)
  | .seqBarLong gb _ => decide (gb < 2560)
  | .start gb _ => decide (gb < 2560)
  | .halt gb _ => decide (gb < 2560)
  | .drainComplete gb => decide (gb < 2560)
  | .resumeReissue gb _ => decide (gb < 2560)
  | .resumeSkip gb _ => decide (gb < 2560)
  | .abort gb _ => decide (gb < 2560)
  | .seqBarArriveWrite gb _ _ => decide (gb < 2560)
  | .seqSregHiWrite gb _ _ => decide (gb < 2560)
  | .benchPrngStateHiWrite gb _ _ => decide (gb < 2560)
  | .captureRead agent _ => isAccessor agent
  | .rcCounterRead agent _ _ => isAccessor agent
  | .registerWrite agent _ _ _ => isAccessor agent
  | .imemWrite agent gb off data => isAccessor agent && decide (gb < 2560) && decide (off + data.length ≤ 0x8000)
  | .devLocationWrite _ id => decide (id < 512)
  | .meshFlitReceive die node dir _ _ => decide (die < 16) && decide (node < 160) && decide (dir < 5)
  | .pkgFlitReceive die edge _ _ => hasEdge die edge
  | .pkgAckTimeout die edge => hasEdge die edge
  | .pkgRetrainEnd die edge _ => hasEdge die edge
  | .barArrivalHome die group _ => decide (die < 16) && decide (group < 256)
  | .broadcastWrite src _ => match src with | .xfer _ => true | .service agent _ _ => isService agent
  | .wholeLoad _ part => decide (part < 16)
  | .partitionLoad _ part => decide (part < 16)
  | .unload _ part => decide (part < 16)
  | .batchCopyDone _ _ => true
  | .batchVerifyDone => true
  | .batchCheckDone _ => true
  | .quiesceDone => true
  | .quiesceTimeout => true
  | .applyDone _ => true
  | .tierRead _ _ => true
  | .tierWrite _ _ _ => true
  | .tierWriteback _ => true
  | .scrubRead ctl _ _ => decide (ctl < 12)
  | .tierTargetLoss dev => decide (dev < 32)
  | .caneFlitReceive cane _ _ _ _ => decide (cane < 36)
  | .caneReplayTimeout cane => decide (cane < 36)
  | .caneTraining cane _ => decide (cane < 36)
  | .retrainEpisode cane _ _ => decide (cane < 36)
  | .lossOfSignal cane => decide (cane < 36)
  | .laneErrorWindow cane _ _ => decide (cane < 36)
  | .leaveFlit cane _ => decide (cane < 36)
  | .autoRetry cane => decide (cane < 36)
  | .train k _ => decide (k < 4)
  | .park k _ => decide (k < 4)
  | .retrainFull k _ => decide (k < 4)
  | .retrainFast k _ => decide (k < 4)
  | .cablePresenceChange conn _ => decide (conn < 4)
  | .get k _ _ _ => decide (k < 4)
  | .put k _ _ _ _ => decide (k < 4)
  | .atomic k _ _ _ => decide (k < 4)
  | .hdlData k _ _ => decide (k < 4)
  | .hdl k _ _ _ => decide (k < 4)
  | .coll k _ _ => decide (k < 4)
  | .barArrive k _ _ => decide (k < 4)
  | .barRelease k _ _ => decide (k < 4)
  | .stop k _ _ => decide (k < 4)
  | .notice k _ _ => decide (k < 4)
  | .cap k _ _ => decide (k < 4)
  | .sync k _ _ _ => decide (k < 4)
  | .followUp k _ _ _ => decide (k < 4)
  | .delayReq k _ _ _ => decide (k < 4)
  | .delayResp k _ _ _ => decide (k < 4)
  | .rsp k _ _ => decide (k < 4)
  | .rspData k _ _ => decide (k < 4)
  | .mgmtAck k _ _ => decide (k < 4)
  | .messageTransit k dir _ => decide (k < 4) && decide (dir < 6)
  | .fabTimeout tid => decide (tid < 8192)
  | .busyResend tid => decide (tid < 8192)
  | .cacheEntryExpiry k _ _ => decide (k < 4)
  | .syncPeriod master _ => decide (master < 512)
  | .fabTimeLost => true
  | .collQueuePoll ring => decide (ring < 16)
  | .collComplete ring => decide (ring < 16)
  | .controllerTick _ => true
  | .pointChangeDone die => decide (die < 16)
  | .dutyWindow _ => true
  | .leaseExpiry => true
  | .phaseTest die phase _ _ => decide (die < 16) && decide (phase < 12)
  | .softThrottle die _ => decide (die < 25)
  | .hardThrottle die _ => decide (die < 25)
  | .thermalTrip die _ => decide (die < 25)
  | .lehrExit die _ => decide (die < 16)
  | .clearTrip _ => true
  | .p0ResidencyLimit die => decide (die < 16)
  | .p0MinuteTick => true
  | .coolantInletHigh _ _ => true
  | .telemetryPublish _ _ _ => true
  | .coldStart _ => true
  | .warmRestart _ => true
  | .failureRestart => true
  | .locWaitTimeout => true
  | .caneTrainingDone _ => true
  | .bootHeartbeat _ _ => true
  | .heartbeatTimeout => true
  | .gafferWdt => true
  | .warm _ => true
  | .cold _ => true
  | .clearSafe _ => true
  | .keyInstall => true
  | .keyRevoke => true
  | .keyRaiseMinimum => true
  | .fwUpdate _ => true
  | .attestation fn => decide (fn < 17)
  | .certChain fn => decide (fn < 17)
  | .mboxPartitionLoad fn => decide (fn < 17)
  | .mboxPartitionUnload fn => decide (fn < 17)
  | .ledgerRead => true
  | .telemetrySnapshot fn _ => decide (fn < 17)
  | .ringInterrupt fn => decide (fn < 17)
  | .fltRingTailWrite _ fn _ => decide (fn < 17)
  | .withdrawButton _ => true
  | .withdrawForced => true
  | .withdrawReq _ => true
  | .graceExpiry => true
  | .withdrawStopDone => true
  | .leaveDone _ => true
  | .latchOpen _ => true
  | .hostLinkDown => true
  | .hostLinkUp width rate => decide (1 ≤ width) && decide (width ≤ 16) && decide (rate ≤ 5)
  | .sqDoorbell fn q _ => queueOk fn q
  | .cqDoorbell fn q _ => queueOk fn q
  | .sqEntryFetch fn q entry _ => queueOk fn q && entry.length == 64
  | .cmdNop fn q => queueOk fn q
  | .copyIn fn q _ _ _ => queueOk fn q
  | .copyOut fn q _ _ => queueOk fn q
  | .cmdStart fn q => queueOk fn q
  | .cmdHalt fn q => queueOk fn q
  | .cmdWait fn q => queueOk fn q
  | .cmdAbort fn q => queueOk fn q
  | .commandCompletion fn q _ => queueOk fn q
  | .queueEnableWrite fn q _ => queueOk fn q
  | .hostBarAccess fn bar _ _ _ _ => decide (fn < 17) && (bar == 0 || bar == 2 || (bar == 4 && fn == 0))
  | .hostReadStoppedTimeout fn _ _ => decide (fn < 17)
  | .hostFlr fn => decide (fn < 17)
  | .vinOutOfRange _ => true
  | .hotSwapOpen _ => true
  | .vinReturn _ => true
  | .coolantFlowLow _ => true
  | .mgmtBusFault _ => true
  | .entdaa addr => decide (addr < 128)
  | .pollForPlatformEventMessage => true
  | .deviceCap _ => true
  | .capLease _ => true
  | .fallback _ => true
  | .location id => decide (id < 512)
  | .restartWarm => true
  | .restartCold => true
  | .withdraw _ => true
  | .identify _ => true
  | .fabCap _ => true
  | .recoveryLedgerRead _ => true
  | .recoveryFaultRead _ => true
  | .recoveryFwPiece _ _ => true
  | .recoveryKeyRead _ => true
  | .recoveryRestart _ => true
  | .fabTimeHiWrite _ _ => true
  | .sensorIgnored die readings => decide (die < 25) && readings.length == (if die < 16 then 8 else 2)
  | .bootStepLimit => true
  | .setEndpointId eid => decide (eid < 256)
  | .unknownMessageType k _ _ => decide (k < 4)
  | .unmappedRegisterRead agent _ => isAccessor agent

end Sys2Proof
end

