-- ==== Sys2Proof/Safety.lean ====
section
/-! DEFINITION. What holds in every state that a run reaches, in the terms the claims use. -/

namespace Sys2Proof.Machine

open Sys2Proof

/-- A byte memory is in its one canonical form: addresses strictly rising, and no entry equal to what an unlisted address reads as. -/
abbrev Memory.wf (m : List Host.Cell) : Prop := SMap.wf (fun _ => (0#8 : Byte)) m

/-- The invariant of the block: both memories are in canonical form; s0 of every bench reads 0 because nothing stores it (R262); no
substream that anything has written stands at zero (R77). -/
structure State.Inv (s : State) : Prop where
  memory : Memory.wf s.mem
  host : Memory.wf s.hostMem
  scalars : ∀ e ∈ s.sregs, e.1 % 32 ≠ 0
  streams : ∀ e ∈ s.prng, e.2 ≠ 0#64

/-- The next word that a bench dispatches is `w`: dispatch may take it, and the checks of R291 pass. -/
def State.takes (s : State) (gb : Nat) (w : DWord) : Bool :=
  decide (gb < 2560) && s.instr gb (s.pc gb) == w && s.mayDispatch gb w && !(s.seq gb).past &&
  (decodeFault s gb (s.pc gb) w).isNone

/-- The instruction that a unit is to run is `e`: its oldest issued one, with the unit free of a fault and its clock running. -/
def State.executes (s : State) (gb unit : Nat) (e : Entry) : Bool :=
  decide (gb < 2560) && s.current gb unit == some e && !s.held gb unit && !s.clockStopped gb

/-- A unit's instruction is complete: its entry is done, the unit waits for nothing, and the bench has made progress (R265, R344). -/
def State.finished (s : State) (gb unit : Nat) (e : Entry) : State :=
  ((s.modEntry gb e.id (fun x => { x with phase := .done })).setWait gb unit none).progress gb

/-- An instruction that has not begun and whose front checks pass: its descriptor and bound words lie in the scratchpad and were
read clean, and its tag actions are none reserved (R591, R294, R295, R249). -/
def Entry.clean (e : Entry) : Bool :=
  !e.frontRange && e.bad.isNone && !tagReserved e.word && e.stage == 0 && e.kept.isEmpty && e.outs.isEmpty && e.asked == 0 &&
  e.lost.isEmpty

/-- Every region of an instruction lies in the scratchpad, and its tags let it start (R249, R250). -/
def State.lets (s : State) (gb : Nat) (rs : List Region) : Bool :=
  rs.all (fun r => !r.past && (s.regionWait gb r).isNone)

/-- No granule of a byte range of a bench is poisoned (R258). -/
def State.sound (s : State) (gb lo len : Nat) : Bool := (granules lo len).all (fun g => !s.poisoned gb g)

/-- In `t` the entry `e` of a bench's window is complete (R265). -/
def State.completed (t : State) (gb : Nat) (e : Entry) : Prop := ∀ x ∈ (t.seq gb).window, x.id = e.id → x.phase = .done

/-- Outside `n` bytes from address `a` on, every byte of memory reads in `t` as in `s`. -/
def State.sameOutside (s t : State) (a n : Nat) : Prop := ∀ x, x < a ∨ a + n ≤ x → t.byte x = s.byte x

/-- Every byte of memory reads in `t` as in `s`. -/
def State.sameMemory (s t : State) : Prop := ∀ x, t.byte x = s.byte x

/-- Pot `p` is to run instruction `e`, whose front checks pass: no slice holds it, and the pot is not retired (R140, R146, R591). -/
def State.potRuns (s : State) (gb p : Nat) (e : Entry) : Bool :=
  decide (p < 16) && s.executes gb p e && e.clean && !s.sliceHolds (potIx gb p) && !s.on Reg.POT_INTEG_RETIRED (potIx gb p)

/-- The surroundings bring no error, event or failed read to an instruction. -/
def quietEnv (env : EngEnv) : Bool :=
  env.ecc.isEmpty && env.wit.isEmpty && env.spMeta.isEmpty && env.tile.isEmpty && env.crc.isEmpty && env.res.isEmpty &&
  env.rowFail.isNone

/-- The jack is to run instruction `e` once, unclipped: its front checks pass, and the jack is not retired (R304, R533). -/
def State.jackRuns (s : State) (gb : Nat) (e : Entry) : Bool :=
  s.executes gb 17 e && e.clean && opc e.word == 0x1C && fld e.word 16 16 == 0 && e.iter == 0 && e.remK.isNone && e.remN.isNone &&
  !(s.jackx gb).retired

/-- `d` is the VEC that `e` describes; its issue checks pass, its tags let it start, and its input granules are sound (R591). -/
def State.vecReady (s : State) (gb : Nat) (e : Entry) (d : JackOp) : Prop :=
  d = e.jack 0 ∧ d.op = 1 ∧ (jackChecks gb e d).run s = (.ok (), s) ∧ s.lets gb (d.vecIn e.word ++ d.vecOut e.word) = true ∧
  ∀ r ∈ d.vecIn e.word, s.sound gb r.lo r.len = true

/-- The state after an instruction fault at dispatch with `code` (R282, R291): FAULT, the code, unit 22 and the address. -/
def State.faultedAtDispatch (s t : State) (gb code : Nat) : Prop :=
  t.seqState gb = .fault ∧ t.rd Reg.SEQ_FAULT_CODE gb = code ∧ t.rd Reg.SEQ_FAULT_POS_UNIT gb = 22 ∧
  t.rd Reg.SEQ_FAULT_PC gb = s.pc gb

/-- A fabric request with a clean CRC passes every test of R440 for partition `p`: it is for this device, reports no answered response,
is no request of VC1, VC3 or VC4 before the location and the time are known, its tag is that of the READY partition, its generation
is the one last seen from its source, and its stamp is young. -/
def State.admits (s : State) (m : FabMsg) (p : Nat) : Prop :=
  m.dst = s.devId ∧ m.rtid = none ∧
  (vcOf m.typ ≠ 0 → s.on Reg.DEV_LOCATION_VALID 0 = true ∧ s.on Reg.FAB_TIME_CFG_VALID 0 = true) ∧ s.tagPart m.ftag = some p ∧
  s.genSeen.get 0 (512 * m.ftag + m.src) = m.gen % 2 ^ 32 + 1 ∧ s.tooOld m = false

/-- In `t` the mailbox request of a function has ended well: its buffer holds CMD, LEN and the payload from byte 8 on, BUSY is 0, DONE 1
and RESULT 0, and no byte of memory changed (R562). -/
def State.answered (s t : State) (fn cmd : Nat) (payload : List Byte) : Prop :=
  t.mboxCmd fn = cmd ∧ t.mboxField fn 2 2 = payload.length ∧ ((t.mboxOf fn).drop 8).take payload.length = payload ∧
  t.on Reg.HOST_MBOX_STATUS_BUSY fn = false ∧ t.on Reg.HOST_MBOX_STATUS_DONE fn = true ∧
  t.rd Reg.HOST_MBOX_STATUS_RESULT fn = 0 ∧ t.mem = s.mem

/-- A queue whose every command names units and operands that the device has, so that no step of its run stops. -/
def State.safeQueue (s : State) : Bool := s.pending.all Instr.wf

end Sys2Proof.Machine
end

