-- ==== Sys2Proof/Certificates/Slice0/Obligations.lean ====
section
/-! DEFINITION. The statements for the provers. -/

open Sys2Proof Sys2Proof.Machine

/-- With command c at the front of the queue, step answers what exec answers for c on the state with the rest of the queue; with an
empty queue it answers the same state (the model's choice, assumption log 1). (98_reader.md) -/
def Obligations.StepRunsFront : Prop :=
  (∀ (s : State) (c : Instr) (rest : List Instr), s.pending = c :: rest → step s = exec c (s.withPending rest)) ∧
  (∀ s : State, s.pending = [] → step s = .next s)

/-- For every one of the 252 commands: a well-formed command answers a next state in every state, and a command that is not well
formed stops with noSuchUnit. The model's choices that it rests on: assumption log 2. (R15 (00_scope.md), R16 (00_scope.md)) -/
def Obligations.CommandsStopOnlyForAbsentUnits : Prop :=
  ∀ (i : Instr) (s : State),
    (i.wf = true → ∃ t, exec i s = .next t) ∧ (i.wf = false → exec i s = .fault .noSuchUnit)

/-- Where dispatch takes the word and its fetch is not lasting bad, ALU, ALUI, MOVI and MOVL answer the state in which the
destination register holds the operation's result (s0 stays 0) and dispatch goes on behind the instruction. (R309
(11_instruction_reference.md), R310 (11_instruction_reference.md), R311 (11_instruction_reference.md), R262
(10_sequencer_and_tiling.md)) -/
def Obligations.ScalarInstructionsWriteTheirRegister : Prop :=
  ∀ (s : State) (gb : Nat) (w : DWord) (fetch : Option Ecc), s.takes gb w = true → fetch ≠ some .lasting →
    (opc w = 0x08 → exec (.alu gb fetch) s = .next (((s.fetched gb fetch).setSreg gb (fld w 51 47)
      (aluOp (fld w 55 52) (s.sreg gb (fld w 46 42)) (s.sreg gb (fld w 41 37)))).advance gb (s.pc gb))) ∧
    (opc w = 0x09 → exec (.alui gb fetch) s = .next (((s.fetched gb fetch).setSreg gb (fld w 51 47)
      (aluOp (fld w 55 52) (s.sreg gb (fld w 46 42)) ((w.setWidth 32).signExtend 64))).advance gb (s.pc gb))) ∧
    (opc w = 0x0A → fld w 55 52 = 0 → exec (.movi gb fetch) s = .next (((s.fetched gb fetch).setSreg gb (fld w 51 47)
      ((w.setWidth 32).signExtend 64)).advance gb (s.pc gb))) ∧
    (opc w = 0x0A → fld w 55 52 = 1 → exec (.movi gb fetch) s = .next (((s.fetched gb fetch).setSreg gb (fld w 51 47)
      (BitVec.ofNat 64 (fld w 31 0 * 2 ^ 32 + fld (s.sreg gb (fld w 51 47)) 31 0))).advance gb (s.pc gb))) ∧
    (opc w = 0x0B → exec (.movl gb fetch) s = .next (((s.fetched gb fetch).setSreg gb (fld w 51 47)
      (BitVec.ofNat 64 (if fld w 43 42 = 0 then ((s.seq gb).loops.getD (fld w 46 44) {}).idx
        else ((s.seq gb).loops.getD (fld w 46 44) {}).trip))).advance gb (s.pc gb)))

/-- Scalar register 0 of a bench reads 0 in every state and a write of it changes nothing; a write of another register is read back,
and leaves every other register of every bench. (R262 (10_sequencer_and_tiling.md)) -/
def Obligations.RegisterZeroIsHardWired : Prop :=
  ∀ (s : State) (gb r : Nat) (v : DWord),
    s.sreg gb 0 = 0#64 ∧ s.setSreg gb 0 v = s ∧
    (0 < r → r < 32 → (s.setSreg gb r v).sreg gb r = v) ∧
    (∀ gb' r', r < 32 → r' < 32 → (gb' ≠ gb ∨ r' ≠ r) → (s.setSreg gb r v).sreg gb' r' = s.sreg gb' r')

/-- Behind the instruction at address p: with no active loop, or an innermost loop that ends elsewhere, PC becomes p + 1; where the
innermost loop ends at p with passes left, its index rises by 1 and PC becomes its start; on its last pass, with no loop around
it, it becomes inactive and PC becomes p + 1. Starting loop register l at address p with a count above 0 makes it the innermost
active loop with index 0, its body from p + 1 to p + LENGTH, and PC p + 1; with count 0 the loop stays inactive and, with no
loop around it, PC is behind its end. The model's choices that it rests on: assumption log 15 (a loop of count 0). (R268
(10_sequencer_and_tiling.md), R313 (11_instruction_reference.md), R276 (10_sequencer_and_tiling.md)) -/
def Obligations.SequentialDispatchFollowsTheLoops : Prop :=
  (∀ (s : State) (gb p : Nat),
    ((s.seq gb).stack = [] → (s.advance gb p).pc gb = (p + 1) % 4096 ∧ ((s.advance gb p).seq gb).stack = []) ∧
    (∀ l rest, (s.seq gb).stack = l :: rest → l < (s.seq gb).loops.length →
      (((s.seq gb).loops.getD l {}).fin ≠ p → (s.advance gb p).pc gb = (p + 1) % 4096) ∧
      (((s.seq gb).loops.getD l {}).fin = p →
        ((s.seq gb).loops.getD l {}).idx + 1 < ((s.seq gb).loops.getD l {}).trip →
        (s.advance gb p).pc gb = ((s.seq gb).loops.getD l {}).start % 4096 ∧
        ((((s.advance gb p).seq gb).loops.getD l {}).idx = ((s.seq gb).loops.getD l {}).idx + 1) ∧
        ((s.advance gb p).seq gb).stack = l :: rest) ∧
      (((s.seq gb).loops.getD l {}).fin = p → ((s.seq gb).loops.getD l {}).trip ≤ ((s.seq gb).loops.getD l {}).idx + 1 →
        rest = [] →
        (s.advance gb p).pc gb = (p + 1) % 4096 ∧ ((s.advance gb p).seq gb).stack = [] ∧
        ((((s.advance gb p).seq gb).loops.getD l {}).active = false)))) ∧
  (∀ (s : State) (gb : Nat) (w : DWord) (p count : Nat), (s.seq gb).loops.length = 8 →
    (0 < count → ∀ t, t = s.startLoop gb w p count false →
      t.pc gb = (p + 1) % 4096 ∧ (t.seq gb).stack = fld w 55 53 :: (s.seq gb).stack ∧
      ((t.seq gb).loops.getD (fld w 55 53) {}).active = true ∧ ((t.seq gb).loops.getD (fld w 55 53) {}).trip = count ∧
      ((t.seq gb).loops.getD (fld w 55 53) {}).idx = 0 ∧ ((t.seq gb).loops.getD (fld w 55 53) {}).start = p + 1 ∧
      ((t.seq gb).loops.getD (fld w 55 53) {}).fin = p + fld w 37 26) ∧
    (count = 0 → (s.seq gb).stack = [] → ∀ t, t = s.startLoop gb w p 0 false →
      t.pc gb = (p + fld w 37 26 + 1) % 4096 ∧ ((t.seq gb).loops.getD (fld w 55 53) {}).active = false))

/-- Where dispatch takes the word: NOP only goes on; BR and a taken BRC branch to the target; a BRC not taken goes on; LOOP and
LOOPW start their loop with the count of the immediate, the register or the table's length; END stops dispatch and leaves PC
behind itself; with an empty window END_REACHED then enters END. The model's choices that it rests on: assumption log 15 (PC
behind END, a loop of count 0). (R267 (10_sequencer_and_tiling.md), R312 (11_instruction_reference.md), R313
(11_instruction_reference.md), R314 (11_instruction_reference.md), R276 (10_sequencer_and_tiling.md)) -/
def Obligations.ControlFlowInstructionsSetThePc : Prop :=
  ∀ (s : State) (gb : Nat) (w : DWord), s.takes gb w = true →
    (opc w = 0x00 → exec (.nop gb none) s = .next (s.advance gb (s.pc gb))) ∧
    (opc w = 0x02 → exec (.br gb none) s = .next (s.branch gb (fld w 11 0)) ∧ (s.branch gb (fld w 11 0)).pc gb = fld w 11 0) ∧
    (opc w = 0x03 → condOp (fld w 55 52) (s.sreg gb (fld w 51 47)) (s.sreg gb (fld w 46 42)) = true →
      exec (.brc gb none) s = .next (s.branch gb (fld w 11 0))) ∧
    (opc w = 0x03 → condOp (fld w 55 52) (s.sreg gb (fld w 51 47)) (s.sreg gb (fld w 46 42)) = false →
      exec (.brc gb none) s = .next (s.advance gb (s.pc gb))) ∧
    (opc w = 0x04 → fld w 52 52 = 0 → exec (.loop gb none) s = .next (s.startLoop gb w (s.pc gb) (fld w 25 0) false)) ∧
    (opc w = 0x04 → fld w 52 52 = 1 →
      exec (.loop gb none) s = .next (s.startLoop gb w (s.pc gb) (fld (s.sreg gb (fld w 51 47)) 31 0) false)) ∧
    (opc w = 0x05 →
      exec (.loopw gb none) s = .next (s.startLoop gb w (s.pc gb) (s.rd Reg.SEQ_WALK_DIR_LEN gb (fld w 46 43)) true)) ∧
    (opc w = 0x01 → ∃ t, exec (.endProg gb none) s = .next t ∧ (t.seq gb).ending = true ∧
      t.pc gb = (s.pc gb + 1) % 4096 ∧ t.seqState gb = .run ∧
      ((t.seq gb).window = [] → ∃ u, exec (.endReached gb) t = .next u ∧ u.seqState gb = .ended ∧ u.pc gb = t.pc gb))

/-- Where dispatch may take the word at PC: an address past 4,095 raises SEQ_PC_RANGE, a lasting fetch error SEQ_IMEM_ECC, and a
word that fails the checks of R291 the code of the first check it fails; the bench enters FAULT and records code, unit 22 and
PC; no scalar register and no byte of memory changes. (R291 (11_instruction_reference.md), R263 (10_sequencer_and_tiling.md),
R282 (10_sequencer_and_tiling.md)) -/
def Obligations.DispatchChecksRaiseInOrder : Prop :=
  ∀ (s : State) (gb : Nat) (fetch : Option Ecc), gb < 2560 → s.mayDispatch gb (s.instr gb (s.pc gb)) = true →
    ((s.seq gb).past = true → ∃ t, exec (.nop gb fetch) s = .next t ∧ s.faultedAtDispatch t gb 0x0602 ∧
      t.mem = s.mem ∧ t.sregs = s.sregs) ∧
    ((s.seq gb).past = false → ∃ t, exec (.nop gb (some .lasting)) s = .next t ∧ s.faultedAtDispatch t gb 0x0603 ∧
      t.mem = s.mem ∧ t.sregs = s.sregs) ∧
    (∀ c, (s.seq gb).past = false → decodeFault s gb (s.pc gb) (s.instr gb (s.pc gb)) = some c →
      ∃ t, exec (.nop gb none) s = .next t ∧ s.faultedAtDispatch t gb c ∧ t.mem = s.mem ∧ t.sregs = s.sregs)

/-- When exec answers a next state for NOP, END, BR, BRC, ALU, ALUI, MOVI or MOVL of a bench whose innermost active loops do not
walk: no byte of memory, no tag, no accumulator, no substream and no scalar register of another bench changes, nor any scalar
register of this bench for NOP, END, BR and BRC. (R262 (10_sequencer_and_tiling.md), R309 (11_instruction_reference.md), R312
(11_instruction_reference.md)) -/
def Obligations.ScalarAndBranchFrame : Prop :=
  ∀ (s t : State) (gb : Nat) (fetch : Option Ecc),
    (∀ l ∈ (s.seq gb).loops, l.walk = false) →
    (∀ i, i ∈ [Instr.nop gb fetch, .endProg gb fetch, .br gb fetch, .brc gb fetch, .alu gb fetch, .alui gb fetch,
        .movi gb fetch, .movl gb fetch] → exec i s = .next t →
      (∀ a, t.byte a = s.byte a) ∧ t.tags = s.tags ∧ t.accs = s.accs ∧ t.cells = s.cells ∧ t.prng = s.prng ∧
      (∀ gb' r, gb' ≠ gb → t.sreg gb' r = s.sreg gb' r)) ∧
    (∀ i, i ∈ [Instr.nop gb fetch, .endProg gb fetch, .br gb fetch, .brc gb fetch] → exec i s = .next t →
      ∀ gb' r, t.sreg gb' r = s.sreg gb' r)

/-- From an agent that may command the bench: START in IDLE, HALTED or END enters RUN with no active loop and PC unchanged; HALT in
RUN enters DRAIN; with an empty window DRAIN_COMPLETE enters HALTED; ABORT in DRAIN, or in FAULT with nothing in flight, empties
the window and enters HALTED; in FAULT with nothing in flight RESUME_REISSUE and RESUME_SKIP enter RUN with MULTI clear. START
outside IDLE, HALTED and END, HALT outside RUN, and a resume outside FAULT set SEQ_STATUS.CMD_REJECT and change nothing else; a
command of an agent that may not command the bench changes nothing. The model's choices that it rests on: assumption log 17
(ABORT). (R283 (10_sequencer_and_tiling.md), R284 (10_sequencer_and_tiling.md)) -/
def Obligations.SequencerCommandsChangeTheState : Prop :=
  (∀ (s : State) (gb agent : Nat), gb < 2560 → s.mayCommand agent gb = true →
    (s.stopped gb = true → ∃ t, exec (.start gb agent) s = .next t ∧ t.seqState gb = .run ∧ (t.seq gb).stack = [] ∧
      t.pc gb = s.pc gb ∧ t.mem = s.mem ∧ t.sregs = s.sregs) ∧
    (s.seqState gb = .run → ∃ t, exec (.halt gb agent) s = .next t ∧ t.seqState gb = .drain ∧ t.seqs = s.seqs ∧ t.mem = s.mem) ∧
    (s.seqState gb = .drain → (s.seq gb).window = [] → s.clockStopped gb = false → ∃ t, exec (.drainComplete gb) s = .next t ∧ t.seqState gb = .halted ∧
      t.seqs = s.seqs ∧ t.mem = s.mem) ∧
    (s.seqState gb = .drain ∨ (s.seqState gb = .fault ∧ (s.seq gb).drained = true) →
      ∃ t, exec (.abort gb agent) s = .next t ∧ t.seqState gb = .halted ∧ (t.seq gb).window = [] ∧ t.mem = s.mem) ∧
    (s.seqState gb = .fault → (s.seq gb).drained = true →
      (∃ t, exec (.resumeReissue gb agent) s = .next t ∧ t.seqState gb = .run ∧ t.on Reg.SEQ_STATUS_MULTI gb = false) ∧
      (∃ t, exec (.resumeSkip gb agent) s = .next t ∧ t.seqState gb = .run ∧ t.on Reg.SEQ_STATUS_MULTI gb = false))) ∧
  (∀ (s : State) (gb agent : Nat), gb < 2560 →
    (s.mayCommand agent gb = true →
      (s.stopped gb = false → exec (.start gb agent) s = .next (s.flag Reg.SEQ_STATUS_CMD_REJECT gb true)) ∧
      (s.seqState gb ≠ .run → exec (.halt gb agent) s = .next (s.flag Reg.SEQ_STATUS_CMD_REJECT gb true)) ∧
      (s.seqState gb ≠ .fault → exec (.resumeReissue gb agent) s = .next (s.flag Reg.SEQ_STATUS_CMD_REJECT gb true) ∧
        exec (.resumeSkip gb agent) s = .next (s.flag Reg.SEQ_STATUS_CMD_REJECT gb true))) ∧
    (s.mayCommand agent gb = false → exec (.start gb agent) s = .next s ∧ exec (.halt gb agent) s = .next s ∧
      exec (.abort gb agent) s = .next s ∧ exec (.resumeReissue gb agent) s = .next s ∧ exec (.resumeSkip gb agent) s = .next s) ∧
    (s.flag Reg.SEQ_STATUS_CMD_REJECT gb true).on Reg.SEQ_STATUS_CMD_REJECT gb = true)

/-- The sequencer of a bench is halted exactly in state IDLE, HALTED or END, and in FAULT with DRAINED = 1. (R285) -/
def Obligations.HaltedStates : Prop :=
  ∀ (s : State) (gb : Nat), s.halted gb = true ↔
    (s.seqState gb = .idle ∨ s.seqState gb = .halted ∨ s.seqState gb = .ended ∨
      (s.seqState gb = .fault ∧ (s.seq gb).drained = true))

/-- ARRIVE raises the context's epoch by 1 and sets OUTSTANDING; an ARRIVE at the front of the window is sent with its epoch and
retires; WAIT without an outstanding arrival goes on, and with one it stops dispatch with WAITING; a release of the epoch of an
outstanding arrival clears OUTSTANDING and WAITING and takes the epoch, an older one is counted as stale, and during APPLY of
the bench's partition a release is discarded; STAGGER_OPEN opens the gate; a wait beyond BAR_LIMIT is reported once; a write of
ARRIVE in a stopped state sets the epoch and clears OUTSTANDING. (R278 (10_sequencer_and_tiling.md), R279
(10_sequencer_and_tiling.md), R280 (10_sequencer_and_tiling.md), R281 (10_sequencer_and_tiling.md), R315
(11_instruction_reference.md), R391 (14_batch_image_and_partitions.md), R477 (18_power_and_thermal.md)) -/
def Obligations.BarrierArrivalAndRelease : Prop :=
  ∀ (s : State) (gb : Nat) (w : DWord), gb < 2560 →
    (s.takes gb w = true → opc w = 0x38 → s.on Reg.SEQ_BAR_INFO_OUTSTANDING gb (fld w 1 0) = false →
      ∃ t, exec (.arrive gb none) s = .next t ∧
        t.rd Reg.SEQ_BAR_ARRIVE_EPOCH gb (fld w 1 0) = (s.rd Reg.SEQ_BAR_ARRIVE_EPOCH gb (fld w 1 0) + 1) % 2 ^ 32 ∧
        t.on Reg.SEQ_BAR_INFO_OUTSTANDING gb (fld w 1 0) = true) ∧
    (∀ e rest, (s.seq gb).window = e :: rest → opc e.word = 0x38 → s.clockStopped gb = false →
      ∃ t, exec (.arrivalSend gb) s = .next t ∧ (t.seq gb).window = rest ∧
        t.outbox = .arrival gb (s.rd Reg.SEQ_BAR_INFO_GROUP gb (fld e.word 1 0)) e.va.toNat :: s.outbox) ∧
    (s.takes gb w = true → opc w = 0x39 → s.on Reg.SEQ_BAR_INFO_OUTSTANDING gb (fld w 1 0) = false →
      exec (.wait gb none) s = .next ((s.progress gb).advance gb (s.pc gb))) ∧
    (s.takes gb w = true → opc w = 0x39 → s.on Reg.SEQ_BAR_INFO_OUTSTANDING gb (fld w 1 0) = true →
      ∃ t, exec (.wait gb none) s = .next t ∧ t.on Reg.SEQ_BAR_INFO_WAITING gb (fld w 1 0) = true ∧ t.pc gb = s.pc gb ∧
        t.barrierWait gb = true) ∧
    (∀ ctx, ctx < 4 → s.applying (s.partOf gb) = false → s.on Reg.SEQ_BAR_INFO_OUTSTANDING gb ctx = true →
      ∃ t, exec (.barrierRelease gb ctx (s.rd Reg.SEQ_BAR_ARRIVE_EPOCH gb ctx % 2 ^ 32)) s = .next t ∧
        t.on Reg.SEQ_BAR_INFO_OUTSTANDING gb ctx = false ∧ t.on Reg.SEQ_BAR_INFO_WAITING gb ctx = false ∧
        t.rd Reg.SEQ_BAR_RELEASE_EPOCH gb ctx = s.rd Reg.SEQ_BAR_ARRIVE_EPOCH gb ctx % 2 ^ 32) ∧
    (∀ ctx r, ctx < 4 → s.applying (s.partOf gb) = false → r < 2 ^ 32 → 2 ^ 31 < (r + 2 ^ 32 - s.rd Reg.SEQ_BAR_ARRIVE_EPOCH gb ctx % 2 ^ 32) % 2 ^ 32 →
      exec (.barrierRelease gb ctx r) s = .next (s.bump Reg.SEQ_BAR_INFO_STALE gb 1 ctx)) ∧
    (∀ ctx r, ctx < 4 → s.applying (s.partOf gb) = true → exec (.barrierRelease gb ctx r) s = .next s) ∧
    (∃ t, exec (.staggerOpen gb) s = .next t ∧ (t.seq gb).gate = false ∧ (t.seq gb).window = (s.seq gb).window) ∧
    (∀ cycles, s.rd Reg.SEQ_CFG_BAR_LIMIT gb ≠ 0 → s.rd Reg.SEQ_CFG_BAR_LIMIT gb * 2 ^ 20 < cycles → s.barrierWait gb = true →
      (s.seq gb).barLong = false → ∃ t, exec (.seqBarLong gb cycles) s = .next t ∧ (t.seq gb).barLong = true ∧
        t.rd Reg.SEQ_STATUS_LAST_FAULT gb = 0x060A) ∧
    (∀ agent epoch, s.mayCommand agent gb = true → s.stopped gb = true → s.rd Reg.SEQ_BAR_SEL_CTX gb < 4 →
      ∃ t, exec (.seqBarArriveWrite gb agent epoch) s = .next t ∧
        t.rd Reg.SEQ_BAR_ARRIVE_EPOCH gb (s.rd Reg.SEQ_BAR_SEL_CTX gb) = epoch % 2 ^ 32 ∧
        t.on Reg.SEQ_BAR_INFO_OUTSTANDING gb (s.rd Reg.SEQ_BAR_SEL_CTX gb) = false)

/-- Where dispatch takes a windowed word, the window gains it at its end with its address and its captured operands; a unit that
accepts an instruction, with no bound word to wait for and no scoreboard hold, receives its oldest waiting one; the oldest
complete instruction of a unit leaves the window. The model's choices that it rests on: assumption log 16. (R264
(10_sequencer_and_tiling.md), R265 (10_sequencer_and_tiling.md), R266 (10_sequencer_and_tiling.md)) -/
def Obligations.WindowEntersIssuesAndRetires : Prop :=
  ∀ (s : State) (gb : Nat), gb < 2560 →
    (∀ w cycles, s.takes gb w = true → opc w ∈ windowedOps → (s.seq gb).stack = [] →
      ∃ t e, exec (.instructionIssue gb (.dispatch none) cycles) s = .next t ∧ (t.seq gb).window = (s.seq gb).window ++ [e] ∧
        e.word = w ∧ e.pc = s.pc gb ∧ e.phase = .waiting ∧ e.va = s.sreg gb (regA w) ∧ e.vb = s.sreg gb (regB w) ∧
        t.pc gb = (s.pc gb + 1) % 4096) ∧
    (∀ u e cycles ecc, u < 22 → (s.seq gb).oldest u (fun e => e.phase == .waiting) = some e → s.seqState gb = .run →
      s.clockStopped gb = false → s.accepts gb u = true → isE e.word = false → bkSel e.word = 0 → bnSel e.word = 0 → s.scoreHold gb (s.viewed gb e) = none →
      ∃ t, exec (.instructionIssue gb (.unit u ecc) cycles) s = .next t ∧
        (∀ x ∈ (t.seq gb).window, x.id = e.id → x.phase = .issued) ∧ t.mem = s.mem) ∧
    (∀ u e, u < 22 → s.clockStopped gb = false → (s.seq gb).oldest u (fun e => e.phase == .done) = some e →
      ∃ t, exec (.instructionRetire gb u) s = .next t ∧ ∀ x ∈ (t.seq gb).window, x.id ≠ e.id)

/-- A write of BENCH_PRNG_STATE_LO or STATE_HI by an agent that reaches the bench's registers takes effect only while its sequencer is
halted: on a bench that is not halted the write changes no substream and no held half and raises the report SEQ_PRNG_BUSY; on a
halted bench STATE_HI commits the held low half with the value written, and a committed value of zero is stored as 1; where
SUBSTREAM shows none of the 17 substreams a halted bench ignores the write. (R77) -/
def Obligations.SubstreamWritesNeedAHaltedBench : Prop :=
  ∀ (s : State) (gb agent v : Nat), gb < 2560 → s.reachesBench agent gb = true →
    (s.halted gb = false →
      (∃ t, exec (.benchPrngStateHiWrite gb agent v) s = .next t ∧ t.prng = s.prng ∧ t.heldLo = s.heldLo ∧
        t = s.benchReport gb 22 0x0630 0) ∧
      (∀ a, isAccessor agent = true → s.reached agent (.loc a) = .reg ⟨.bench, gb, 0xC4, none, a⟩ →
        (dieOfAddr a).filter s.cutOff = none →
        exec (.registerWrite agent (.loc a) v) s = .next (s.benchReport gb 22 0x0630 0))) ∧
    (s.halted gb = true → 17 ≤ s.rd Reg.BENCH_PRNG_SEL_SUBSTREAM gb → exec (.benchPrngStateHiWrite gb agent v) s = .next s) ∧
    (s.halted gb = true → s.rd Reg.BENCH_PRNG_SEL_SUBSTREAM gb < 17 →
      ∃ t, exec (.benchPrngStateHiWrite gb agent v) s = .next t ∧
        t.prngOf gb (s.rd Reg.BENCH_PRNG_SEL_SUBSTREAM gb) =
          (if BitVec.ofNat 64 (v % 2 ^ 32 * 2 ^ 32 + s.heldLow Reg.BENCH_PRNG_STATE_LO_STATE_LO gb) = 0#64 then 1#64
           else BitVec.ofNat 64 (v % 2 ^ 32 * 2 ^ 32 + s.heldLow Reg.BENCH_PRNG_STATE_LO_STATE_LO gb)))

/-- On a halted bench a write of SEQ_SREG_HI by an agent that reaches the bench's registers stores the held low half and the value
written into the scalar register shown, and changes no other scalar register of any bench, no register, tag or byte of memory and
nothing of a sequencer; where s0 is shown, and on a bench that is not halted, nothing changes. (R289
(10_sequencer_and_tiling.md), R285 (10_sequencer_and_tiling.md), R262 (10_sequencer_and_tiling.md), R551
(21_host_interface.md)) -/
def Obligations.ScalarRegisterWriteOverThePath : Prop :=
  ∀ (s : State) (gb agent v : Nat), gb < 2560 → s.reachesBench agent gb = true →
    (s.halted gb = true → 0 < s.rd Reg.SEQ_SREG_SEL_REG gb → s.rd Reg.SEQ_SREG_SEL_REG gb < 32 →
      ∃ t, exec (.seqSregHiWrite gb agent v) s = .next t ∧ t.sreg gb (s.rd Reg.SEQ_SREG_SEL_REG gb) =
        BitVec.ofNat 64 (v % 2 ^ 32 * 2 ^ 32 + s.heldLow Reg.SEQ_SREG_LO_VAL_LO gb) ∧
        (∀ gb' r, r < 32 → (gb' ≠ gb ∨ r ≠ s.rd Reg.SEQ_SREG_SEL_REG gb) → t.sreg gb' r = s.sreg gb' r) ∧
        t.mem = s.mem ∧ t.seqs = s.seqs ∧ t.regs = s.regs ∧ t.tags = s.tags) ∧
    (s.halted gb = true → s.rd Reg.SEQ_SREG_SEL_REG gb = 0 → exec (.seqSregHiWrite gb agent v) s = .next s) ∧
    (s.halted gb = false → exec (.seqSregHiWrite gb agent v) s = .next s)

/-- The executing LD whose checks pass, at an aligned address whose tag allows it and whose granule is sound, completes: its
register takes the eight bytes (s0 takes nothing), no byte of memory changes, and consume empties the slot. The executing ST
completes: the eight bytes are the captured value, every other byte and every scalar register is as before, and produce and
overwrite fill the slot. At an address that is no multiple of 8 or lies past byte 393,208 either raises SEQ_SCALAR_ADDR: unit 18
holds, the sequencer enters FAULT, and no byte of memory, no tag and no scalar register changes. (R308
(11_instruction_reference.md), R249 (09_bench_scratchpad.md), R267 (10_sequencer_and_tiling.md), R282
(10_sequencer_and_tiling.md)) -/
def Obligations.ScalarLoadsAndStoresMoveEightBytes : Prop :=
  (∀ (s : State) (gb : Nat) (env : EngEnv) (e : Entry), env.ecc = [] → s.executes gb 18 e = true → e.clean = true →
    e.scalarAddr % 8 = 0 → e.scalarAddr ≤ 393208 → s.sound gb e.scalarAddr 8 = true →
    (opc e.word = 0x0C → s.lets gb [⟨e.scalarAddr, 8, false, tagIn e.word⟩] = true →
      ∃ t, exec (.ld gb env) s = .next t ∧ t.completed gb e ∧ s.sameMemory t ∧
        (fld e.word 55 51 ≠ 0 → t.sreg gb (fld e.word 55 51) = BitVec.ofNat 64 (s.num (spadBase gb + e.scalarAddr) 8)) ∧
        (∀ gb' r, gb' < 2560 → r < 32 → (gb' ≠ gb ∨ r ≠ fld e.word 55 51 ∨ r = 0) → t.sreg gb' r = s.sreg gb' r) ∧
        (∀ k, k < 384 → t.tag gb k = (if tagIn e.word = 2 ∧ k = e.scalarAddr / 1024 then false else s.tag gb k))) ∧
    (opc e.word = 0x0D → s.lets gb [⟨e.scalarAddr, 8, true, tagOut e.word⟩] = true →
      ∃ t, exec (.st gb env) s = .next t ∧ t.completed gb e ∧ s.sameOutside t (spadBase gb + e.scalarAddr) 8 ∧
        t.num (spadBase gb + e.scalarAddr) 8 = e.vb.toNat ∧ t.sregs = s.sregs ∧
        (∀ k, k < 384 → t.tag gb k = (if (tagOut e.word = 1 ∨ tagOut e.word = 2) ∧ k = e.scalarAddr / 1024 then true else s.tag gb k)))) ∧
  (∀ (s : State) (gb : Nat) (env : EngEnv) (e : Entry), s.executes gb 18 e = true → e.clean = true →
    (e.scalarAddr % 8 ≠ 0 ∨ 393208 < e.scalarAddr) →
    (opc e.word = 0x0C → ∃ t, exec (.ld gb env) s = .next t ∧ t.held gb 18 = true ∧ t.seqState gb = .fault ∧
      t.rd Reg.SEQ_STATUS_LAST_FAULT gb = 0x060C ∧ t.mem = s.mem ∧ t.tags = s.tags ∧ t.sregs = s.sregs) ∧
    (opc e.word = 0x0D → ∃ t, exec (.st gb env) s = .next t ∧ t.held gb 18 = true ∧ t.seqState gb = .fault ∧
      t.rd Reg.SEQ_STATUS_LAST_FAULT gb = 0x060C ∧ t.mem = s.mem ∧ t.tags = s.tags ∧ t.sregs = s.sregs))

/-- The executing FILL whose checks pass stores the four bytes of its value over its region, and the executing COPY stores the
source's bytes as they stood before, overlapping regions included; every byte outside the region stored is as before and no
scalar register changes. An empty FILL or COPY is counted and stores nothing. (R256 (09_bench_scratchpad.md), R306
(11_instruction_reference.md), R272 (10_sequencer_and_tiling.md)) -/
def Obligations.FillAndCopyStoreTheirRegions : Prop :=
  ∀ (s : State) (gb : Nat) (env : EngEnv) (e : Entry), env.ecc = [] → s.executes gb 18 e = true → e.clean = true →
    (opc e.word = 0x20 → s.lets gb [e.fillRegion] = true →
      ∃ t, exec (.fill gb env) s = .next t ∧ t.completed gb e ∧ t.sregs = s.sregs ∧
        (e.empty = true → s.sameMemory t) ∧
        (e.empty = false → s.sameOutside t (spadBase gb + e.fillRegion.lo) (32 * e.spadLen) ∧
          ∀ k, k < 32 * e.spadLen → t.byte (spadBase gb + e.fillRegion.lo + k) =
            BitVec.ofNat 8 (fld e.vb 31 0 / 256 ^ (k % 4)))) ∧
    (opc e.word = 0x21 → s.lets gb [e.copySrc, e.copyDst] = true → tagSelf [e.copySrc, e.copyDst] = false →
      s.sound gb e.copySrc.lo e.copySrc.len = true →
      ∃ t, exec (.copy gb env) s = .next t ∧ t.completed gb e ∧ t.sregs = s.sregs ∧
        (e.empty = true → s.sameMemory t) ∧
        (e.empty = false → s.sameOutside t (spadBase gb + e.copyDst.lo) (32 * e.spadLen) ∧
          ∀ k, k < 32 * e.spadLen → t.byte (spadBase gb + e.copyDst.lo + k) = s.byte (spadBase gb + e.copySrc.lo + k)))

/-- The executing TAGSET whose slots exist sets the tags of exactly its slots without waiting. A SPAD_TAG_CTRL write with GO by a
service agent on a halted bench sets the tags of its slots, up to slot 383; on a bench that is not halted no tag changes. A
writeback stores the corrected granule, whose bytes stay. A unit that waits on a slot is released when the tag allows its
access, and only then. (R307 (11_instruction_reference.md), R260 (09_bench_scratchpad.md), R258 (09_bench_scratchpad.md), R251
(09_bench_scratchpad.md)) -/
def Obligations.TagCommandsSetTheirSlots : Prop :=
  ∀ (s : State) (gb : Nat), gb < 2560 →
    (∀ e, s.executes gb 18 e = true → opc e.word = 0x22 → e.tagFirst + fld e.word 41 33 ≤ 383 →
      ∃ t, exec (.tagset gb) s = .next t ∧ t.completed gb e ∧ t.mem = s.mem ∧ t.sregs = s.sregs ∧
        ∀ k, k < 384 → t.tag gb k = (if e.tagFirst ≤ k ∧ k ≤ e.tagFirst + fld e.word 41 33 then decide (fld e.word 32 32 = 1)
          else s.tag gb k)) ∧
    (∀ agent value count first, agent ≤ 1 → count < 512 → first < 384 →
      ∃ t, exec (.spadTagCtrlGo gb agent value count first) s = .next t ∧ t.mem = s.mem ∧ t.rd Reg.SPAD_TAG_CTRL_COUNT gb = count ∧
        t.rd Reg.SPAD_TAG_CTRL_FIRST_SLOT gb = first ∧ t.on Reg.SPAD_TAG_CTRL_VALUE gb = value ∧
        ∀ k, k < 384 → t.tag gb k = (if s.halted gb = true ∧ first ≤ k ∧ k ≤ first + count then value else s.tag gb k)) ∧
    (∀ g, g < 12288 → ∃ t, exec (.spadCorrectedWriteback gb g) s = .next t ∧ t.writeback.get false (spadBase gb / 32 + g) = false ∧
      t.mem = s.mem ∧ t.regs = s.regs) ∧
    (∀ u k, u < 22 →
      (s.waits.get none (32 * gb + u) = some (1, k) → s.tag gb k = true →
        ∃ t, exec (.tagWaitRelease gb u) s = .next t ∧ t.waits.get none (32 * gb + u) = none ∧ t.tags = s.tags) ∧
      (s.waits.get none (32 * gb + u) = some (2, k) → s.tag gb k = false →
        ∃ t, exec (.tagWaitRelease gb u) s = .next t ∧ t.waits.get none (32 * gb + u) = none ∧ t.tags = s.tags) ∧
      (s.waits.get none (32 * gb + u) = some (1, k) → s.tag gb k = false → exec (.tagWaitRelease gb u) s = .next s) ∧
      (s.waits.get none (32 * gb + u) = some (2, k) → s.tag gb k = true → exec (.tagWaitRelease gb u) s = .next s))

/-- A requested transfer of this device that reaches a bench with its clock running and at most eight requests waiting there: where
the bench refuses its source the access is answered denied and changes no memory; where its tag blocks it is held; otherwise a
read of sound granules answers the bytes and changes no memory, and a write stores its bytes and nothing else. A held request
whose tag then allows it is served first. The model's choices that it rests on: assumption log 28. (R257 (09_bench_scratchpad.md), R34 (01_architecture.md)) -/
def Obligations.RemoteAccessesAreServedHeldOrRefused : Prop :=
  ∀ (s : State) (gb id : Nat) (x : Xfer) (off : Nat), gb < 2560 → s.xfer id = some x → x.tgt = 0 → x.phase = .requested →
    placeOf x.ext = .spad gb off → s.clockStopped gb = false →
    ((x.kind = .get ∨ x.kind = .put) → x.resp = none → (s.remoteWait.get [] gb).contains id = false →
      (s.refuses x.gb gb = true → (s.remoteWait.get [] gb).length ≤ 8 →
        (∃ t, exec (if x.kind = .get then .remoteRead gb id [] else .remoteWrite gb id []) s = .next t ∧ t.mem = s.mem ∧
          (t.xfer id).map Xfer.resp = some (some .denied) ∧ t.rd Reg.SPAD_STATUS_LAST_FAULT gb = 0x0510)) ∧
      (s.refuses x.gb gb = false → s.remoteBlocks gb off x = true →
        exec (if x.kind = .get then .remoteRead gb id [] else .remoteWrite gb id []) s =
          .next { s with remoteWait := s.remoteWait.put [] gb (s.remoteWait.get [] gb ++ [id]) }) ∧
      (s.refuses x.gb gb = false → s.remoteBlocks gb off x = false → (s.remoteWait.get [] gb).length ≤ 8 →
        (x.kind = .get → s.sound gb off x.len = true → ∃ t, exec (.remoteRead gb id []) s = .next t ∧ s.sameMemory t ∧
          (t.xfer id).map Xfer.resp = some (some (.data (s.bytes (spadBase gb + off) x.len)))) ∧
        (x.kind = .put → ∃ t, exec (.remoteWrite gb id []) s = .next t ∧ (t.xfer id).map Xfer.resp = some (some .ack) ∧
          s.sameOutside t (spadBase gb + off) x.data.length ∧ t.bytes (spadBase gb + off) x.data.length = x.data))) ∧
    (∀ rest, s.remoteWait.get [] gb = id :: rest → id ∉ rest → s.refuses x.gb gb = false → s.remoteBlocks gb off x = false →
      x.kind = .put → ∃ t, exec (.remoteWaitProceed gb []) s = .next t ∧ t.remoteWait.get [] gb = rest ∧
        (t.xfer id).map Xfer.resp = some (some .ack) ∧ t.bytes (spadBase gb + off) x.data.length = x.data)

/-- A fresh unmasked, unfinished, one-group forward pass over one dense row group whose checks pass, whose scale is in range and
whose shifted sums fit 48 bits completes: the chain takes the pass's base exponent, mode and format, each accumulator holds the
sum of weights times inputs shifted by the block's alignment, 0 where the block is flushed, and no cell and no byte of memory
changes. The model's choices that it rests on: assumption log 73. (R58 (02_narrow_arithmetic.md), R59 (02_narrow_arithmetic.md),
R61 (02_narrow_arithmetic.md), R91 (03_pot_compute.md), R300 (11_instruction_reference.md)) -/
def Obligations.ForwardPassOfOneDenseRowGroup : Prop :=
  ∀ (s : State) (gb p : Nat) (env : EngEnv) (e : Entry) (f : WFmt) (sc : Nat),
    s.potRuns gb p e = true → quietEnv env = true → opc e.word = 0x10 → fld e.word 16 16 = 0 → e.iter = 0 →
    e.remK = none → e.remN = none →
    ∀ d : Pass, d = e.pass 0 → WFmt.ofNum d.wfmt = some f →
    (passChecks gb p e d).run s = (.ok (), s) → d.mode = 0 → d.g = 1 → d.rgCount = 1 → d.mask = 0 → d.cont = false →
    d.finish = false → (s.potx (potIx gb p)).cls d.rgFirst = 0 →
    s.lets gb (d.regions (s.potx (potIx gb p)) f e.word) = true →
    (∀ r ∈ d.regions (s.potx (potIx gb p)) f e.word, s.sound gb r.lo r.len = true) →
    sc = s.num (spadBase gb + 32 * d.iscale.toNat) 1 → d.scaleFault [sc] = none →
    ∀ v : Nat → Int, (∀ i, v i = if d.k sc < 0 then 0 else
      s.psum (potIx gb p) f 0 d.rgFirst 0 32 i (blockElem d.asign d.a
        (s.num (spadBase gb + 32 * d.inAddr.toNat) (4 * d.a)) d.lastLen) * (2 ^ (d.k sc).toNat : Nat)) →
    (∀ i, i < f.outputs → -(2 ^ 47) ≤ v i ∧ v i < 2 ^ 47) →
    ∃ t, exec (.potPass gb p env) s = .next t ∧ t.completed gb e ∧ t.mem = s.mem ∧ t.cells = s.cells ∧
      (t.potx (potIx gb p)).chain = some { eb := d.eb, mode := d.mode, wfmt := d.wfmt } ∧
      ∀ i, i < f.outputs → t.accs.get 0 (1024 * potIx gb p + i) = v i

/-- A fresh unmasked, unfinished forward pass of a pot all of whose row groups in range are void, whose checks pass, completes with
every accumulator of the pot 0, the chain at the pass's base exponent, mode and format, and no cell and no byte of memory
changed. (R61 (02_narrow_arithmetic.md), R183 (06_structured_sparsity.md), R271 (10_sequencer_and_tiling.md)) -/
def Obligations.PassOverVoidRowGroupsStartsAChain : Prop :=
  ∀ (s : State) (gb p : Nat) (env : EngEnv) (e : Entry), s.potRuns gb p e = true → quietEnv env = true → opc e.word = 0x10 →
    fld e.word 16 16 = 0 → e.iter = 0 → e.remK = none → e.remN = none → (passChecks gb p e (e.pass 0)).run s = (.ok (), s) →
    (e.pass 0).mode = 0 → (e.pass 0).mask = 0 → (e.pass 0).cont = false → (e.pass 0).finish = false →
    (∀ g, (e.pass 0).rgFirst ≤ g → g < (e.pass 0).rgFirst + (e.pass 0).rgCount → (s.potx (potIx gb p)).cls g = 3) →
    ∃ t, exec (.potPass gb p env) s = .next t ∧ t.completed gb e ∧ t.mem = s.mem ∧ t.cells = s.cells ∧
      (t.potx (potIx gb p)).chain = some { eb := (e.pass 0).eb, mode := 0, wfmt := (e.pass 0).wfmt } ∧
      ∀ i, i < 1024 → t.accs.get 0 (1024 * potIx gb p + i) = 0

/-- The executing plain POT_LOAD from the scratchpad whose checks pass writes each of its rows with the source row's bytes, unused
columns 0, sets VALID and WFMT, drops the shadow and changes no other row and no byte of memory. A tiled load of 1,024 rows that
one valid void tile header covers makes every row 0 and every row group void and sets VALID and WFMT. (R121 (03_pot_compute.md),
R302 (11_instruction_reference.md), R90 (03_pot_compute.md), R184 (06_structured_sparsity.md), R185 (06_structured_sparsity.md)) -/
def Obligations.PotLoadsWriteTheirRows : Prop :=
  ∀ (s : State) (gb p : Nat) (env : EngEnv) (e : Entry), s.potRuns gb p e = true → quietEnv env = true → opc e.word = 0x12 →
    e.load.tierA = false → ∀ role, role = s.rd Reg.POT_CFG_ROLE (potIx gb p) →
    (tiledPot role p = false → loadChecks s (potIx gb p) e.load false role = none → ∀ f, WFmt.ofNum e.load.wfmt = some f →
      s.lets gb (e.load.region e.word (128 * e.load.rows)) = true → s.sound gb e.load.src (128 * e.load.rows) = true →
      (f = .wt → ∀ i, i < e.load.rows → wtReserved (s.num (spadBase gb + e.load.src + 128 * i) 128) = false) →
      ∃ t, exec (.potLoad gb p env) s = .next t ∧ t.completed gb e ∧ t.mem = s.mem ∧
        t.on Reg.POT_CFG_VALID (potIx gb p) = true ∧ t.rd Reg.POT_CFG_WFMT (potIx gb p) = e.load.wfmt ∧
        t.on Reg.POT_INTEG_SHADOW_OK (potIx gb p) = false ∧
        (∀ i, i < e.load.rows → t.row (potIx gb p) (e.load.rowFirst + i) =
          f.trim (s.num (spadBase gb + e.load.src + 128 * i) 128) % 2 ^ 1024) ∧
        ∀ k, (k < 1024 * potIx gb p + e.load.rowFirst ∨ 1024 * potIx gb p + e.load.rowFirst + e.load.rows ≤ k) →
          t.cells.get 0 k = s.cells.get 0 k) ∧
    (tiledPot role p = true → loadChecks s (potIx gb p) e.load true role = none → e.load.rows = 1024 → e.load.rowFirst = 0 →
      s.lets gb (e.load.region e.word 16) = true → s.sound gb e.load.src 16 = true →
      ∀ h, h = TileHdr.ofBytes (s.bytes (spadBase gb + e.load.src) 16) → h.cls = 3 → h.rgCount = 32 → h.crc = 0 →
      hdrFault s (potIx gb p) role e.load h 0 none 0 = none → (s.potx (potIx gb p)).classes.length = 32 →
      ∃ t, exec (.tiledLoad gb p env) s = .next t ∧ t.completed gb e ∧ t.mem = s.mem ∧
        t.on Reg.POT_CFG_VALID (potIx gb p) = true ∧ t.rd Reg.POT_CFG_WFMT (potIx gb p) = h.wfmt ∧
        (∀ r, r < 1024 → t.row (potIx gb p) r = 0) ∧ ∀ g, g < 32 → (t.potx (potIx gb p)).cls g = 3)

/-- The executing sweep of one row of a plain weight pot, rounding to nearest, without delta or residue, whose checks pass and whose
emission buffer has room, no transfer merging, completes: the row takes the swept weights, NEXT_ROW follows it, the row is
counted, the emission is queued, and no other row and no byte of memory changes. The model's choices that it rests on:
assumption log 24 and 73. (R212 (07_in_place_training.md), R216 (07_in_place_training.md), R225 (07_in_place_training.md), R301
(11_instruction_reference.md)) -/
def Obligations.UpdateSweepRewritesItsRow : Prop :=
  ∀ (s : State) (gb p : Nat) (env : EngEnv) (e : Entry) (f : WFmt), s.potRuns gb p e = true → quietEnv env = true →
    opc e.word = 0x11 → ∀ d, d = e.upd → d.op = 0 → e.remK = none → e.remN = none → updDescBad e = false →
    WFmt.ofNum d.wfmt = some f → d.wfmt ≠ 5 → d.rows = 1 → d.rowFirst < 1024 → d.rnd = false → d.deltaEn = false →
    d.resIn = false → d.resOut = false → s.potOff.get false (potIx gb p) = false → s.rd Reg.POT_CFG_ROLE (potIx gb p) = 0 →
    s.on Reg.POT_CFG_VALID (potIx gb p) = true → s.rd Reg.POT_CFG_WFMT (potIx gb p) = d.wfmt →
    (12 ≤ p → s.on Reg.POT_SP_CFG_TILED (spIx (potIx gb p)) = false) →
    s.tierOk gb (d.wtarget + 128 * d.rowFirst) 128 true = true → s.emitHeld gb + 128 ≤ 65536 → (∀ x ∈ s.xfers, x.phase ≠ .merging) →
    ∃ t, exec (.updateSweep gb p env) s = .next t ∧ t.completed gb e ∧ t.mem = s.mem ∧
      t.rd Reg.POT_UPD_STATUS_NEXT_ROW (potIx gb p) = d.rowFirst + 1 ∧
      t.row (potIx gb p) d.rowFirst =
        (s.sweepRow (potIx gb p) f d d.rowFirst (s.prngOf gb p) (fun _ _ => 0) (fun _ => 0) 0).row % 2 ^ 1024 ∧
      (∀ k, k ≠ 1024 * potIx gb p + d.rowFirst → t.cells.get 0 k = s.cells.get 0 k) ∧ t.prng = s.prng ∧
      t.emitHeld gb = s.emitHeld gb + 128

/-- The executing working load of one row of signed elements no wider than the weights, with scale bytes below 255 and checks that
pass, completes: every weight is its element, the exponent table holds each block's scale and a zero byte per output, NEXT_ROW
follows the row, and no other row and no other byte of memory changes. (R203 (07_in_place_training.md), R204
(07_in_place_training.md), R301 (11_instruction_reference.md)) -/
def Obligations.WorkingLoadStoresItsElements : Prop :=
  ∀ (s : State) (gb p : Nat) (env : EngEnv) (e : Entry) (f : WFmt), s.potRuns gb p e = true → quietEnv env = true →
    opc e.word = 0x11 → ∀ d, d = e.upd → d.op = 1 → e.remK = none → e.remN = none → updDescBad e = false →
    WFmt.ofNum d.wfmt = some f → f ≠ .wt → f ≠ .wb → d.rows = 1 → d.rowFirst < 1024 → d.align = false → d.asign = true →
    d.a ≤ f.cols → s.potOff.get false (potIx gb p) = false → s.rd Reg.POT_CFG_ROLE (potIx gb p) = 1 →
    s.rd Reg.POT_CFG_WFMT (potIx gb p) = d.wfmt → s.lets gb (d.workRegions f e.word) = true →
    tagSelf (d.workRegions f e.word) = false → s.sound gb (32 * d.data) (f.nb * (4 * d.a)) = true →
    s.sound gb (32 * d.dscale) f.nb = true → (∀ b, b < f.nb → s.byte (spadBase gb + 32 * d.dscale + b) ≠ 255#8) →
    ∃ t, exec (.workingLoad gb p env) s = .next t ∧ t.completed gb e ∧
      t.rd Reg.POT_UPD_STATUS_NEXT_ROW (potIx gb p) = d.rowFirst + 1 ∧ t.on Reg.POT_CFG_VALID (potIx gb p) = true ∧
      t.row (potIx gb p) d.rowFirst = ((List.range f.outputs).map (fun i =>
        f.encode (signed d.a (s.num (spadBase gb + 32 * d.data + i / 32 * (4 * d.a)) (4 * d.a) / 2 ^ (d.a * (i % 32)))) *
          2 ^ f.col i)).sum % 2 ^ 1024 ∧
      (∀ k, k ≠ 1024 * potIx gb p + d.rowFirst → t.cells.get 0 k = s.cells.get 0 k) ∧
      s.sameOutside t (spadBase gb + 32 * d.table) (2 * f.outputs) ∧
      ∀ i, i < f.outputs → t.byte (spadBase gb + 32 * d.table + 2 * i) = s.byte (spadBase gb + 32 * d.dscale + i / 32) ∧
        t.byte (spadBase gb + 32 * d.table + 2 * i + 1) = 0#8

/-- Sixteen transients without a lasting fault make the pot suspect with a slice pending; a request makes a slice pending; a slice
pending for 1 s holds the pot; a pot overdue is reported once; in the window, an idle pot's targeted slice without bad elements
counts one no-fault-found and clears VALID, an in-service slice that finds nothing ends the request with result 1, and a
metadata slice that finds nothing clears the metadata; outside it a slice is deferred; POOL_ABORT of an idle pot closes its
window. The model's choices that it rests on: assumption log 19 and 21 (a slice is one step). (R137 (04_pot_integrity.md), R140
(04_pot_integrity.md), R142 (04_pot_integrity.md), R146 (04_pot_integrity.md), R147 (04_pot_integrity.md), R198
(06_structured_sparsity.md), R123 (03_pot_compute.md)) -/
def Obligations.SlicesAndReloadsOfAPot : Prop :=
  ∀ (s : State) (gb p gp : Nat), gb < 2560 → p < 16 → gp = potIx gb p →
    (16 ≤ (s.potx gp).stormCount → ∃ t, exec (.potWitStorm gb p) s = .next t ∧
      t.on Reg.POT_INTEG_SUSPECT gp = true ∧ t.on Reg.POT_INTEG_ST_PENDING gp = true ∧ (t.potx gp).want = some .targeted ∧
      (t.potx gp).stormCount = 0 ∧ t.mem = s.mem) ∧
    (s.on Reg.POT_INTEG_RETIRED gp = false → (s.potx gp).want = none → ∃ t, exec (.stReq gb p) s = .next t ∧
      t.on Reg.POT_INTEG_ST_PENDING gp = true ∧ (t.potx gp).want = some .inService ∧ t.cells = s.cells) ∧
    ((s.potx gp).want.isSome = true → ∃ t, exec (.sliceForceTimeout gb p) s = .next t ∧ (t.potx gp).forced = true ∧ t.regs = s.regs) ∧
    ((s.potx gp).overdue = false → s.rd Reg.POT_ST_INFO_AGE gp ≤ 600 → ∃ t, exec (.potStOverdue gb p) s = .next t ∧
      (t.potx gp).overdue = true ∧ t.rd Reg.POT_ST_INFO_AGE gp = 600 ∧ t.rd Reg.POT_STATUS_LAST_FAULT gp = 0x0146) ∧
    ((s.seq gb).busy p = false → ∃ t, exec (.poolAbort gb p) s = .next t ∧ (t.potx gp).pool = none ∧
      t.rd Reg.POT_STATUS_POOL_CNT gp = 0 ∧ t.accs = s.accs) ∧
    (s.potIdle gb p = true →
      (s.windowOk (gb / 160) = true → s.on Reg.POT_INTEG_RETIRED gp = false →
        ((s.potx gp).want = some .targeted → ∃ t, exec (.targetedSlice gb p [] false 0) s = .next t ∧
          t.on Reg.POT_CFG_VALID gp = false ∧ t.rd Reg.POT_ST_INFO_RESULT gp = 4 ∧ (t.potx gp).want = none ∧
          t.rd Reg.POT_INTEG_NFF gp = min (s.rd Reg.POT_INTEG_NFF gp + 1) 255 ∧
          t.rd Reg.POT_INTEG_CULLET_USED gp = s.rd Reg.POT_INTEG_CULLET_USED gp) ∧
        ((s.potx gp).want = some .inService → s.on Reg.POT_CFG_VALID gp = true →
          ∃ t, exec (.inServiceSlice gb p [] false false 0) s = .next t ∧ t.rd Reg.POT_ST_INFO_RESULT gp = 1 ∧
            (t.potx gp).want = none ∧ t.rd Reg.POT_ST_INFO_AGE gp = 0 ∧ t.cells = s.cells ∧ t.on Reg.POT_CFG_VALID gp = true) ∧
        ((s.potx gp).metaDue = true → (s.potx gp).want = none → ∃ t, exec (.metaSlice gb p false 0) s = .next t ∧ (t.potx gp).metaDue = false ∧
          t.on Reg.POT_CFG_VALID gp = false ∧ ∀ k, k < 1024 → t.metaRam.get 0#64 (1024 * gp + k) = 0#64)) ∧
      (s.windowOk (gb / 160) = false → s.on Reg.POT_INTEG_RETIRED gp = false → (s.potx gp).want = some .inService →
        ∃ t, exec (.inServiceSlice gb p [] false false 0) s = .next t ∧ t.on Reg.POT_INTEG_ST_PENDING gp = true ∧
          t.rd Reg.POT_STATUS_LAST_FAULT gp = 0x0145 ∧ t.cells = s.cells))

/-- A due reload of a plain pot, whose shadow rows lie in readable blocks of serving stacks, writes all 1,024 rows from the shadow
image, unused columns 0, clears SUSPECT and sets VALID. A lasting failure of an emission removes its transfer, is noted by the
front end and the pot, and clears SHADOW_OK where it lies in the image of a plain pot's shadow; no byte of memory changes in
either. The model's choices that it rests on: assumption log 23. (R142 (04_pot_integrity.md), R223 (07_in_place_training.md),
R335 (12_streams_and_punty_queues.md)) -/
def Obligations.ShadowReloadsAndFailedEmissions : Prop :=
  ∀ (s : State) (gb p gp : Nat) (env : EngEnv), gb < 2560 → p < 16 → gp = potIx gb p → quietEnv env = true →
    ((s.potx gp).reload = true → s.clockStopped gb = false → tiledPot (s.rd Reg.POT_CFG_ROLE gp) p = false → s.tierPoison = [] →
      ∀ f, WFmt.ofNum (s.rd Reg.POT_CFG_WFMT gp) = some f → f ≠ .wt → ∀ a, a = 128 * s.rd Reg.POT_SHADOW_ADDR gp →
      (∀ r, r < 1024 → s.tierOk gb (a + 128 * r) 128 false = true ∧ s.tierState (ctlOf (a + 128 * r)) ≠ 3) →
      ∃ t, exec (.shadowReload gb p env) s = .next t ∧ t.mem = s.mem ∧ (t.potx gp).reload = false ∧
        t.on Reg.POT_CFG_VALID gp = true ∧ t.on Reg.POT_INTEG_SUSPECT gp = false ∧
        ∀ r, r < 1024 → t.row gp r = f.trim (s.num (a + 128 * r) 128) % 2 ^ 1024) ∧
    (∀ x r, s.xfers.find? (fun y => y.id == x.id && decide (y.kind = .emit)) = some x → x.gb = gb → r ∈ x.emitted → r.1 = p →
      (∀ q ∈ x.emitted, q.1 < 16) → p < 12 → ∃ t, exec (.emissionWriteFail x.id) s = .next t ∧ t.mem = s.mem ∧ (∀ y ∈ t.xfers, y.id ≠ x.id) ∧
        t.rd Reg.POT_STATUS_LAST_FAULT gp = 0x0163 ∧ t.rd Reg.DMA_STATUS_LAST_FAULT gb = 0x070A ∧
        (128 * s.rd Reg.POT_SHADOW_ADDR gp < r.2.1 + r.2.2 → r.2.1 < 128 * s.rd Reg.POT_SHADOW_ADDR gp + 131072 →
          t.on Reg.POT_INTEG_SHADOW_OK gp = false))

/-- The executing comparison whose checks pass, on an array that is calibrated, settled on the same threshold and window, without
dead pairs, bad reference pairs, noise or an undelivered record, completes: it is counted, and every target pot with an empty mask slot holds a
record whose bit m says whether the sketch sum of pair m reaches the threshold; no byte of memory changes. The model's choices
that it rests on: assumption log 75. (R153 (05_parison_array.md), R154 (05_parison_array.md), R156 (05_parison_array.md), R162
(05_parison_array.md)) -/
def Obligations.CompareGivesTheIdealMask : Prop :=
  ∀ (s : State) (gb : Nat) (env : EngEnv) (e : Entry), s.executes gb 16 e = true → e.clean = true → quietEnv env = true →
    opc e.word = 0x18 → fld e.word 16 16 = 0 → e.iter = 0 → e.empty = false →
    ∀ (d : ParOp) (codes : List Int), d = e.par 0 → d.op = 0 → d.store = false → d.discard = false → (parChecks e d).run s = (.ok (), s) →
    s.lets gb (d.regions e.word) = true → s.sound gb (32 * d.inAddr.toNat) d.inLen = true →
    (∀ i, i < d.rows → (d.code (s.bytes (spadBase gb + 32 * d.inAddr.toNat) d.inLen) i).isSome = true) →
    codes = (List.range d.rows).map (fun i => (d.code (s.bytes (spadBase gb + 32 * d.inAddr.toNat) d.inLen) i).getD 0) →
    (s.parx gb).calDue = false → (s.parx gb).record = none → (s.parx gb).prev = some (d.theta, d.win) → (s.parx gb).dead = [] →
    s.rd Reg.PAR_STATUS_SETTLE_LEFT gb = 0 → s.on Reg.PAR_STATUS_CAL_VALID gb = true → s.on Reg.PAR_STATUS_CAL_STALE gb = false →
    s.on Reg.PAR_TRIM_BAD gb 264 = false → s.on Reg.PAR_TRIM_BAD gb 265 = false → ∃ t r, exec (.compare gb env []) s = .next t ∧ t.completed gb e ∧ s.sameMemory t ∧ r.settle = false ∧ r.suspect = false ∧
      (∀ m, m < 256 → r.live.getLsbD m = decide (d.theta ≤ s.sketchSum gb d.win (s.pairOf gb m) codes)) ∧
      ∀ p, p < 16 → bit d.target p = true → (s.potx (potIx gb p)).mask = none → (t.potx (potIx gb p)).mask = some r

/-- The executing sketch load whose checks pass, whose rows hold no reserved pattern and verify, stores its rows with the remapped
pairs repeated and changes no other row and no memory. An unsuspect attempt without bad pairs, of CALIBRATE_NOW or, with no
comparison's record held back, of a due CALIBRATION, commits every trim, makes them valid and not stale, latches the temperature and makes two settle comparisons due.
The model's choices that it rests on: assumption log 21 and 22. (R170 (05_parison_array.md), R164 (05_parison_array.md), R165
(05_parison_array.md), R173 (05_parison_array.md), R157 (05_parison_array.md), R166 (05_parison_array.md)) -/
def Obligations.SketchLoadsAndCalibrations : Prop :=
  ∀ (s : State) (gb : Nat) (env : EngEnv) (e : Entry), gb < 2560 → quietEnv env = true →
    (s.executes gb 16 e = true → e.clean = true → opc e.word = 0x18 →
      ((e.par 0).op = 1 → (parChecks e (e.par 0)).run s = (.ok (), s) → s.lets gb ((e.par 0).regions e.word) = true →
        s.sound gb (32 * (e.par 0).sketchAddr) (64 * (e.par 0).loadCount) = true →
        (∀ i, i < (e.par 0).loadCount → sketchReserved (s.num (spadBase gb + 32 * (e.par 0).sketchAddr + 64 * i) 64) = false) →
        ∃ t, exec (.loadSketch gb env []) s = .next t ∧ t.completed gb e ∧ t.mem = s.mem ∧
          (∀ i, i < (e.par 0).loadCount → t.sketch.get 0 (512 * gb + (e.par 0).loadFirst + i) =
            BitVec.ofNat 528 (s.sketchRow gb (s.num (spadBase gb + 32 * (e.par 0).sketchAddr + 64 * i) 64))) ∧
          ∀ k, (k < 512 * gb + (e.par 0).loadFirst ∨ 512 * gb + (e.par 0).loadFirst + (e.par 0).loadCount ≤ k) →
            t.sketch.get 0 k = s.sketch.get 0 k) ∧
      (∀ c : CalEnv, (e.par 0).op = 2 → (parChecks e (e.par 0)).run s = (.ok (), s) → s.suspectCal gb c.attempt1 = false →
        (∀ m, m < 266 → badPair c.attempt1 m = false) →
        ∃ t, exec (.calibrateNow gb env c) s = .next t ∧ t.completed gb e ∧ t.on Reg.PAR_STATUS_CAL_VALID gb = true ∧
          t.on Reg.PAR_STATUS_CAL_STALE gb = false ∧ t.rd Reg.PAR_STATUS_SETTLE_LEFT gb = 2 ∧
          ∀ m, m < 266 → t.rd Reg.PAR_TRIM_TRIM gb m = pattern 6 (c.attempt1.trims.getD m 0))) ∧
    (∀ c : CalEnv, (s.parx gb).calDue = true → (s.parx gb).computed = none → s.clockStopped gb = false → s.suspectCal gb c.attempt1 = false →
      (∀ m, m < 266 → badPair c.attempt1 m = false) →
      ∃ t, exec (.calibration gb c) s = .next t ∧ t.on Reg.PAR_STATUS_CAL_VALID gb = true ∧
        t.on Reg.PAR_STATUS_CAL_STALE gb = false ∧ t.rd Reg.PAR_STATUS_SETTLE_LEFT gb = 2 ∧
        t.rd Reg.PAR_CAL_INFO_TEMP gb = c.temp % 2 ^ Reg.PAR_CAL_INFO_TEMP.w ∧ (t.parx gb).calDue = false ∧
        (∀ m, m < 266 → t.rd Reg.PAR_TRIM_TRIM gb m = pattern 6 (c.attempt1.trims.getD m 0)) ∧ t.mem = s.mem)

/-- A delivery copies the undelivered record into every empty slot of its targets and, where all of them are empty, ends it. A
request, an age of at least the period (10 ms units, at least 10), or a temperature at least CAL_DTEMP degrees away from the
last calibration's makes a calibration due; a smaller change does not. (R162 (05_parison_array.md), R169 (05_parison_array.md),
R175 (05_parison_array.md)) -/
def Obligations.ParisonEventsAndDelivery : Prop :=
  ∀ (s : State) (gb : Nat), gb < 2560 →
    (∀ r tgt, (s.parx gb).record = some (r, tgt) → s.clockStopped gb = false → ∃ t, exec (.maskRecordDelivery gb) s = .next t ∧ t.mem = s.mem ∧ t.regs = s.regs ∧
      (∀ p, p < 16 → bit tgt p = true → (s.potx (potIx gb p)).mask = none → (t.potx (potIx gb p)).mask = some r) ∧
      (∀ p, p < 16 → bit tgt p = false → t.potx (potIx gb p) = s.potx (potIx gb p)) ∧
      (tgt < 65536 → (∀ p, p < 16 → bit tgt p = true → (s.potx (potIx gb p)).mask = none) → (t.parx gb).record = none)) ∧
    (∃ t, exec (.calReq gb) s = .next t ∧ (t.parx gb).calDue = true ∧ t.regs = s.regs ∧ t.mem = s.mem) ∧
    (∀ ms, 10 * max 10 (s.rd Reg.PAR_CFG_CAL_PERIOD gb) ≤ (s.parx gb).calAge + ms →
      ∃ t, exec (.calAgeTrigger gb ms) s = .next t ∧ (t.parx gb).calDue = true ∧ (t.parx gb).calAge = (s.parx gb).calAge + ms) ∧
    (∀ temp : Nat, 4 * max 1 (s.rd Reg.PAR_CFG_CAL_DTEMP gb) ≤ ((temp : Int) - s.rd Reg.PAR_CAL_INFO_TEMP gb).natAbs →
      ∃ t, exec (.calTempTrigger gb temp) s = .next t ∧ (t.parx gb).calDue = true ∧ t.regs = s.regs) ∧
    (∀ temp : Nat, ((temp : Int) - s.rd Reg.PAR_CAL_INFO_TEMP gb).natAbs < 4 * max 1 (s.rd Reg.PAR_CFG_CAL_DTEMP gb) →
      exec (.calTempTrigger gb temp) s = .next s)

/-- The executing INT8 MM of one row and one tile, fresh, not reusing a tile, with 32-bit output, whose checks pass, whose scales
give alignments 0 to 8 and whose results fit 32 bits completes: output n is the dot product of the row with column n shifted by
its alignment, as 32 bits; no byte outside the output row changes. A jack that is idle in the window passes its self-test slice
or is retired by it. (R229 (08_jack_engine.md), R230 (08_jack_engine.md), R232 (08_jack_engine.md), R228 (08_jack_engine.md),
R304 (11_instruction_reference.md)) -/
def Obligations.MmOfOneRowMultipliesByItsTile : Prop :=
  ∀ (s : State) (gb : Nat) (env : EngEnv) (e : Entry), gb < 2560 →
    (s.executes gb 17 e = true → e.clean = true → quietEnv env = true → opc e.word = 0x1C → fld e.word 16 16 = 0 → e.iter = 0 →
      e.remK = none → e.remN = none → (s.jackx gb).retired = false → ∀ d : JackOp, d = e.jack 0 → d.op = 0 →
      (jackChecks gb e d).run s = (.ok (), s) → d.bf = false → d.m = 1 → d.kt = 1 → d.reuse = false → d.cont = false → d.outfmt = 0 →
      s.lets gb (d.ins e.word ++ d.outs e.word) = true → (∀ r ∈ d.ins e.word, s.sound gb r.lo r.len = true) →
      ∀ (eA : Nat) (sc : Nat → Nat) (v : Nat → Int), eA = s.num (spadBase gb + 32 * d.iscale.toNat) 1 → eA ≠ 255 →
      (∀ n, sc n = s.num (spadBase gb + 32 * d.sscale + n) 1) → (∀ n, n < 32 → sc n ≠ 255 ∧ 127 + d.eb ≤ eA + sc n ∧
        eA + sc n ≤ 135 + d.eb) →
      (∀ n, v n = ((List.range 32).map (fun r =>
        int8At (s.bytes (spadBase gb + 32 * d.inAddr.toNat) 32) d.asign 32 r r *
        int8At (s.bytes (spadBase gb + 32 * d.stat) 1024) d.ssign 32 (32 * r + n) r)).sum *
          (2 ^ (eA + sc n - 127 - d.eb) : Nat)) →
      (∀ n, n < 32 → -(2 ^ 31) ≤ v n ∧ v n < 2 ^ 31) →
      ∃ t, exec (.mm gb env) s = .next t ∧ t.completed gb e ∧ s.sameOutside t (spadBase gb + 32 * d.outAddr.toNat) 128 ∧
        ∀ n, n < 32 → t.num (spadBase gb + 32 * d.outAddr.toNat + 4 * n) 4 = (BitVec.ofInt 32 (v n)).toNat) ∧
    (s.windowOk (gb / 160) = true → s.current gb 17 = none → s.clockStopped gb = false →
      (∃ t, exec (.jackSlice gb false 0) s = .next t ∧ (t.jackx gb).retired = (s.jackx gb).retired ∧
        (t.jackx gb).kept = none ∧ (t.jackx gb).tile = none ∧ t.mem = s.mem) ∧
      (∃ t, exec (.jackSlice gb true 0) s = .next t ∧ (t.jackx gb).retired = true ∧ t.mem = s.mem ∧
        t.rd Reg.JACK_STATUS_LAST_FAULT gb = 0x0430))

/-- An element-wise VEC of one unbroadcast row of 32-bit elements, whose checks pass, completes: element i of the output is the FP32
operation on element i of the operands (ADD, MUL and MAX take the second row, SCALE and ADDI the immediate), and for INT32 the
saturated sum, the saturated product or the greater; every byte outside the output row is as before. The model's choices that it
rests on: assumption log 30 and 32 (opaque values). (R235 (08_jack_engine.md), R236 (08_jack_engine.md), R304
(11_instruction_reference.md)) -/
def Obligations.ElementwiseVectorOperations : Prop :=
  ∀ (s : State) (gb : Nat) (env : EngEnv) (e : Entry) (d : JackOp) (c : Instr) (f : Word → Word → Word),
    s.jackRuns gb e = true → quietEnv env = true → s.vecReady gb e d → d.vrows = 1 → d.bcast = false →
    (d.vtype, d.vop, c, f) ∈ ([(0, 0, .vecAdd gb env, add32), (0, 1, .vecMul gb env, mul32), (0, 2, .vecMax gb env, max32),
      (0, 3, .vecScale gb env, fun a _ => mul32 a d.imm), (0, 4, .vecAddi gb env, fun a _ => add32 a d.imm),
      (0, 5, .vecExp gb env, fun a _ => exp32 a), (0, 6, .vecRecip gb env, fun a _ => recip32 a),
      (0, 7, .vecSqrt gb env, fun a _ => sqrt32 a),
      (2, 0, .vecAdd gb env, fun a b => BitVec.ofInt 32 (max (-(2 ^ 31)) (min (2 ^ 31 - 1) (a.toInt + b.toInt)))),
      (2, 1, .vecMul gb env, fun a b => BitVec.ofInt 32 (max (-(2 ^ 31)) (min (2 ^ 31 - 1) (a.toInt * b.toInt)))),
      (2, 2, .vecMax gb env, fun a b => if a.toInt < b.toInt then b else a)] :
        List (Nat × Nat × Instr × (Word → Word → Word))) →
    ∃ t, exec c s = .next t ∧ t.completed gb e ∧ s.sameOutside t (spadBase gb + 32 * d.outAddr.toNat) (4 * d.vlen) ∧
      ∀ i, i < d.vlen → t.num (spadBase gb + 32 * d.outAddr.toNat + 4 * i) 4 =
        (f (BitVec.ofNat 32 (s.num (spadBase gb + 32 * d.inAddr.toNat + 4 * i) 4))
          (BitVec.ofNat 32 (s.num (spadBase gb + 32 * d.stat + 4 * i) 4))).toNat

/-- A VEC of FP32 elements whose checks pass completes: RSUM and RMAX of one row store its lane-ordered sum or maximum, subnormals
counting as zero, SOFTMAX its row of quotients; TRANS of a 32 by 32 matrix stores element (j, i) at (i, j); DEQUANT of INT32
elements under a scale immediate below 255 stores each as FP32 times 2^(scale - 127). No byte outside the output changes. The
model's choices that it rests on: assumption log 32 (opaque values). (R237 (08_jack_engine.md), R239 (08_jack_engine.md), R235
(08_jack_engine.md)) -/
def Obligations.RowVectorOperations : Prop :=
  ∀ (s : State) (gb : Nat) (env : EngEnv) (e : Entry) (d : JackOp) (xs : List Word), s.jackRuns gb e = true → quietEnv env = true →
    s.vecReady gb e d → xs = elems 0 (s.bytes (spadBase gb + 32 * d.inAddr.toNat) (4 * d.vlen)) d.vlen →
    (d.vrows = 1 → d.vtype = 0 → d.vop = 8 → ∃ t, exec (.vecRsum gb env) s = .next t ∧ t.completed gb e ∧
      s.sameOutside t (spadBase gb + 32 * d.outAddr.toNat) 4 ∧
      t.num (spadBase gb + 32 * d.outAddr.toNat) 4 = ((laneFold add32 (xs.map (fun v => fround 24 (fval v)))).getD 0).toNat) ∧
    (d.vrows = 1 → d.vtype = 0 → d.vop = 9 → ∃ t, exec (.vecRmax gb env) s = .next t ∧ t.completed gb e ∧
      s.sameOutside t (spadBase gb + 32 * d.outAddr.toNat) 4 ∧
      t.num (spadBase gb + 32 * d.outAddr.toNat) 4 = ((laneFold max32 (xs.map (fun v => fround 24 (fval v)))).getD 0).toNat) ∧
    (d.vrows = 1 → d.vtype = 0 → d.vop = 10 → ∃ t, exec (.vecSoftmax gb env) s = .next t ∧ t.completed gb e ∧
      s.sameOutside t (spadBase gb + 32 * d.outAddr.toNat) (4 * d.vlen) ∧
      ∀ i, i < d.vlen → t.num (spadBase gb + 32 * d.outAddr.toNat + 4 * i) 4 = ((rowReduce d xs).getD i 0).toNat) ∧
    (d.vrows = 32 → d.vlen = 32 → d.vtype = 0 → d.vop = 13 → ∃ t, exec (.vecTrans gb env) s = .next t ∧ t.completed gb e ∧
      s.sameOutside t (spadBase gb + 32 * d.outAddr.toNat) 4096 ∧
      ∀ i j, i < 32 → j < 32 → t.num (spadBase gb + 32 * d.outAddr.toNat + 128 * i + 4 * j) 4 =
        s.num (spadBase gb + 32 * d.inAddr.toNat + 128 * j + 4 * i) 4) ∧
    (d.vrows = 1 → d.vtype = 2 → d.vop = 12 → d.imm.toNat % 256 ≠ 255 → ∃ t, exec (.vecDequant gb env) s = .next t ∧
      t.completed gb e ∧ s.sameOutside t (spadBase gb + 32 * d.outAddr.toNat) (4 * d.vlen) ∧
      ∀ i, i < d.vlen → t.num (spadBase gb + 32 * d.outAddr.toNat + 4 * i) 4 =
        (ofInt32 (BitVec.ofNat 32 (s.num (spadBase gb + 32 * d.inAddr.toNat + 4 * i) 4)).toInt
          ((d.imm.toNat % 256 : Nat) - 127)).toNat)

/-- A VEC of one row of at most 32 elements, whose checks pass and whose scale byte lies outside its payload, completes: QUANT
rounding to nearest stores the block of its FP32 values and its scale; MXIN of an MXINT8 block with scale 6 to 254 keeps the
elements and lowers the scale by 6; MXOUT to MXINT8 of BF16 values without draws stores the exported block and its scale. No
other byte of memory changes. (R238 (08_jack_engine.md), R79 (02_narrow_arithmetic.md), R80 (02_narrow_arithmetic.md)) -/
def Obligations.BlockVectorOperations : Prop :=
  ∀ (s : State) (gb : Nat) (env : EngEnv) (e : Entry) (d : JackOp) (vs : List FVal), s.jackRuns gb e = true →
    quietEnv env = true → s.vecReady gb e d → d.vrows = 1 → d.vlen ≤ 32 → d.rnd = false →
    (32 * d.oscale.toNat + 1 ≤ 32 * d.outAddr.toNat ∨ 32 * d.outAddr.toNat + 32 ≤ 32 * d.oscale.toNat) →
    vs = blockOf ((elems 0 (s.bytes (spadBase gb + 32 * d.inAddr.toNat) (4 * d.vlen)) d.vlen).map fval) 0 →
    (d.vtype = 0 → d.vop = 11 → ∃ t, exec (.vecQuant gb env) s = .next t ∧ t.completed gb e ∧
      (∀ x, (x < spadBase gb + 32 * d.outAddr.toNat ∨ spadBase gb + 32 * d.outAddr.toNat + 4 * d.a ≤ x) →
        x ≠ spadBase gb + 32 * d.oscale.toNat → t.byte x = s.byte x) ∧
      t.bytes (spadBase gb + 32 * d.outAddr.toNat) (4 * d.a) = packBlock d.a (quantVals d (s.prngOf gb 16) vs).1 ∧
      t.byte (spadBase gb + 32 * d.oscale.toNat) = BitVec.ofNat 8 (quantVals d (s.prngOf gb 16) vs).2.1 ∧ t.prng = s.prng) ∧
    (d.vop = 14 → d.mxfmt = 1 → ∀ sc, sc = s.num (spadBase gb + 32 * d.iscale.toNat) 1 → 6 ≤ sc → sc ≠ 255 →
      ∃ t, exec (.vecMxin gb env) s = .next t ∧ t.completed gb e ∧
        (∀ x, (x < spadBase gb + 32 * d.outAddr.toNat ∨ spadBase gb + 32 * d.outAddr.toNat + 32 ≤ x) →
        x ≠ spadBase gb + 32 * d.oscale.toNat → t.byte x = s.byte x) ∧
      t.bytes (spadBase gb + 32 * d.outAddr.toNat) 32 = packBlock 8 ((List.range 32).map (fun i =>
          if d.vlen ≤ i then 0 else signed 8 (s.num (spadBase gb + 32 * d.inAddr.toNat + i) 1))) ∧
        t.byte (spadBase gb + 32 * d.oscale.toNat) = BitVec.ofNat 8 (sc - 6)) ∧
    (d.vtype = 1 → d.vop = 15 → d.mxfmt = 1 → ∀ ws, ws =
        blockOf ((elems 1 (s.bytes (spadBase gb + 32 * d.inAddr.toNat) (2 * d.vlen)) d.vlen).map fval) 0 →
      ∃ t, exec (.vecMxout gb env) s = .next t ∧ t.completed gb e ∧
        (∀ x, (x < spadBase gb + 32 * d.outAddr.toNat ∨ spadBase gb + 32 * d.outAddr.toNat + 32 ≤ x) →
        x ≠ spadBase gb + 32 * d.oscale.toNat → t.byte x = s.byte x) ∧
      t.bytes (spadBase gb + 32 * d.outAddr.toNat) 32 = (mxOutBlock d (s.prngOf gb 16) ws).1 ∧
        t.byte (spadBase gb + 32 * d.oscale.toNat) = BitVec.ofNat 8 (mxOutBlock d (s.prngOf gb 16) ws).2.1)

/-- With the bench's clock running and no transfer merging, the GET or PUT that the front end takes next, of one unclipped row that
lies in one slot and in one block of 1 KiB and whose checks pass, adds one transfer with its kind, target, external address,
length and its one piece, and changes no memory. A FENCE of a bench with no PUT and no emission outstanding completes and lets
no transfer of the bench merge on. The model's choices that it rests on: assumption log 24. (R321
(12_streams_and_punty_queues.md), R326 (12_streams_and_punty_queues.md), R332 (12_streams_and_punty_queues.md), R305
(11_instruction_reference.md)) -/
def Obligations.DmaInstructionsBecomeTransfers : Prop :=
  ∀ (s : State) (gb : Nat) (env : EngEnv) (e : Entry) (d : DmaOp), gb < 2560 → s.dmaFresh gb = some e → s.held gb 19 = false →
    s.clockStopped gb = false → e.clean = true → e.dmaBad = false → e.remK = none → e.remN = none → d = e.dma →
    (d.op ≠ 2 → d.walk = false → d.rows = 1 → (dmaChecks gb e).run s = (.ok (), s) → (∀ x ∈ s.xfers, x.phase ≠ .merging) →
      d.ext % 1024 + 32 * d.rowLen ≤ 1024 → 32 * d.spad % 1024 + 32 * d.rowLen ≤ 1024 →
      (d.op = 0 → ∃ t x, exec (.dmaGet gb env) s = .next t ∧ t.xfers = s.xfers ++ [x] ∧ t.mem = s.mem ∧ x.gb = gb ∧ x.kind = .get ∧
        x.tgt = d.tgt ∧ x.ext = d.ext ∧ x.len = 32 * d.rowLen ∧ x.resp = none ∧
        x.pieces = [{ entry := some e.id, spad := 32 * d.spad, off := 0, len := 32 * d.rowLen, act := tagOut e.word, tile := 0 }]) ∧
      (d.op = 1 → ∃ t x, exec (.dmaPut gb env) s = .next t ∧ t.xfers = s.xfers ++ [x] ∧ t.mem = s.mem ∧ x.gb = gb ∧ x.kind = .put ∧
        x.tgt = d.tgt ∧ x.ext = d.ext ∧ x.len = 32 * d.rowLen ∧ x.resp = none ∧
        x.pieces = [{ entry := some e.id, spad := 32 * d.spad, off := 0, len := 32 * d.rowLen, act := tagIn e.word, tile := 0 }])) ∧
    (d.op = 2 → (∀ x ∈ s.xfers, x.gb = gb → x.kind = .get) → ∃ t, exec (.dmaFence gb env) s = .next t ∧ t.completed gb e ∧
      t.mem = s.mem ∧ ∀ x ∈ t.xfers, x.gb = gb → x.phase ≠ .merging)

/-- A merge timeout queues a merging transfer; a grant gives a lone asking transfer below its quota a tracker entry, held while its
bucket is short; a window sets every bucket to its amount, a small one accumulating to 1,024; good data of a requested GET is
staged; a staged GET of one piece lands in the scratchpad and ends; an acknowledged PUT ends; a first timeout makes the request
again. A timeout of a host transfer that was already made again ends it, and the instruction of its one piece faults: the bench
enters FAULT, unit 19 holds, its last fault is DMA_LASTING and no memory changes. The model's choices that it rests on:
assumption log 24 and 77. (R322 (12_streams_and_punty_queues.md), R329 (12_streams_and_punty_queues.md), R330
(12_streams_and_punty_queues.md), R331 (12_streams_and_punty_queues.md), R333 (12_streams_and_punty_queues.md), R282
(10_sequencer_and_tiling.md)) -/
def Obligations.TransfersPassTheirStages : Prop :=
  (∀ (s : State) (x : Xfer), s.xfer x.id = some x →
    (x.phase = .merging → ∃ t, exec (.mergeTimeout x.id) s = .next t ∧ (t.xfer x.id).map Xfer.phase = some .queued ∧ t.mem = s.mem) ∧
    (∀ die, die < 16 → s.xfers = [x] → x.gb / 160 = die → s.asks x = true → 0 < s.rd Reg.DMA_CFG_QUOTA x.gb →
      0 < s.rd Reg.DMA_CFG_CAP x.gb → s.buckets.get 0 (s.bucketKey x) < x.len →
      ∃ t, exec (.trackerGrant die []) s = .next t ∧ t.xfer x.id = some { x with phase := .held } ∧ t.mem = s.mem) ∧
    (∀ die p c, die < 16 → p < 16 → c < 3 → (∀ y ∈ s.xfers, y.phase ≠ .held) →
      ∃ t, exec (.regulatorWindow die []) s = .next t ∧ t.xfers = s.xfers ∧ t.buckets.get 0 (4096 * die + 4 * p + c) =
        (if s.windowBytes die p c < 1024 then min 1024 (s.buckets.get 0 (4096 * die + 4 * p + c) + s.windowBytes die p c)
         else s.windowBytes die p c)) ∧
    (∀ bs inb, inb.good = true → x.kind = .get → x.tgt = 0 → x.phase = .requested → x.resp = some (.data bs) → x.pieces ≠ [] →
      s.clockStopped x.gb = false →
      ((s.xfers.filter (fun y => y.gb == x.gb && y.phase == .staged)).map Xfer.len).sum + x.len ≤ 8192 →
      ∃ t, exec (.inboundTransferArrival x.id inb) s = .next t ∧
        t.xfer x.id = some { x with phase := .staged, data := bs, resp := none } ∧ t.mem = s.mem) ∧
    (∀ p, x.kind = .get → x.phase = .staged → x.pieces = [p] → p.off = 0 → p.len = x.data.length →
      s.clockStopped x.gb = false → ∃ t, exec (.transferComplete x.id []) s = .next t ∧ t.xfer x.id = none ∧
        t.bytes (spadBase x.gb + p.spad) p.len = x.data ∧ s.sameOutside t (spadBase x.gb + p.spad) p.len) ∧
    (x.kind = .put → x.phase = .requested → x.tgt = 0 → x.resp = some .ack → s.clockStopped x.gb = false →
      ∃ t, exec (.transferComplete x.id []) s = .next t ∧ t.xfer x.id = none ∧ t.mem = s.mem) ∧
    (x.tgt = 2 → x.phase = .requested → x.resp = none → x.pieces ≠ [] → x.retried = false →
      ∃ t, exec (.transferTimeout x.id) s = .next t ∧ t.xfer x.id = some { x with retried := true, phase := .held, resp := none } ∧
        t.mem = s.mem)) ∧
  (∀ (s : State) (x : Xfer) (p : Piece) (w : Entry), x.gb < 2560 → s.xfer x.id = some x → x.tgt = 2 → x.kind = .get →
    x.phase = .requested → x.resp = none → x.retried = true → x.pieces = [p] → p.entry = some w.id →
    (s.seq x.gb).window.find? (fun e => e.id == w.id) = some w →
    ∃ t, exec (.transferTimeout x.id) s = .next t ∧ t.xfer x.id = none ∧ t.seqState x.gb = .fault ∧ t.held x.gb 19 = true ∧
      t.rd Reg.DMA_STATUS_LAST_FAULT x.gb = 0x0708 ∧ t.mem = s.mem)

/-- With no block poisoned and every stack or package that the transfer touches serving, a tier read answers the bytes and a tier
write stores exactly its bytes and is acknowledged; a writeback ends; a clean scrub read moves to the next block, a lasting
error poisons its block; a lost stack or package is down and answers every transfer that waits at it. (R399
(15_memory_tiers.md), R400 (15_memory_tiers.md), R402 (15_memory_tiers.md), R404 (15_memory_tiers.md)) -/
def Obligations.TierCommandsServeTheirBlocks : Prop :=
  ∀ (s : State),
    (∀ x : Xfer, s.xfer x.id = some x → x.atTier = true → s.tierPoison = [] →
      (∀ p ∈ tierPieces x.ext x.len, s.tierState (ctlOf p.1) ≠ 3) →
      (x.kind = .get → ∃ t, exec (.tierRead x.id []) s = .next t ∧ s.sameMemory t ∧
        (t.xfer x.id).map Xfer.resp = some (some (.data (s.bytes x.ext x.len)))) ∧
      (x.kind = .put → x.len = x.data.length → ∃ t, exec (.tierWrite x.id [] []) s = .next t ∧
        (t.xfer x.id).map Xfer.resp = some (some .ack) ∧ t.bytes x.ext x.len = x.data ∧ s.sameOutside t x.ext x.len)) ∧
    (∀ b, ∃ t, exec (.tierWriteback b) s = .next t ∧ t.tierWb.get false b = false ∧ t.mem = s.mem ∧ t.regs = s.regs) ∧
    (∀ ctl n, ctl < 12 → n = s.scrubPos.get 0 ctl → s.tierState (ctlOf (scrubAddr ctl n)) ≠ 3 →
      s.tierPoison.get false (scrubAddr ctl n / 64) = false →
      (∃ t, exec (.scrubRead ctl none false) s = .next t ∧ t.mem = s.mem ∧ t.tierPoison = s.tierPoison ∧
        t.scrubPos.get 0 ctl = (if n + 1 < scrubLen ctl then n + 1 else 0)) ∧
      (∃ t, exec (.scrubRead ctl (some .lasting) false) s = .next t ∧ t.mem = s.mem ∧
        t.tierPoison.get false (scrubAddr ctl n / 64) = true)) ∧
    (∀ dev, dev < 32 → ∃ t, exec (.tierTargetLoss dev) s = .next t ∧ t.mem = s.mem ∧
      (dev < 8 → t.rd Reg.MEMA_STATUS_STATE (stackDie dev) = 3) ∧
      (8 ≤ dev → t.rd Reg.MEMB_STATUS_STATE ((dev - 8) / 6) ((dev - 8) % 6) = 3) ∧
      ∀ y ∈ t.xfers, y.atTier = true → (ctlOf y.ext).dev ≠ dev)

/-- The executing PQ_PUT with a valid route, a handle of the route's size inside the scratchpad and room in the queue appends its
handle; PQ_GET of a nonempty queue puts the oldest handle in its register and leaves the rest; PQ_REL of the oldest owned handle
empties its slots, gives it up and sends its producer one credit. None changes a byte of memory; a PQ_GET of an empty queue
waits. The model's choices that it rests on: assumption log 26. (R316 (11_instruction_reference.md), R338
(12_streams_and_punty_queues.md), R339 (12_streams_and_punty_queues.md), R340 (12_streams_and_punty_queues.md), R341
(12_streams_and_punty_queues.md)) -/
def Obligations.PuntyInstructionsMoveHandles : Prop :=
  ∀ (s : State) (gb : Nat) (env : EngEnv) (e : Entry), e.frontRange = false → e.bad = none → tagOut e.word = 0 →
    (s.executes gb 21 e = true → opc e.word = 0x30 → tagIn e.word ≠ 3 → s.on Reg.PQ_OUT_ROUTE_VALID gb = true → e.empty = false →
      (Handle.ofWord e.vb).count = s.rd Reg.PQ_OUT_CREDIT_HSLOTS gb →
      (Handle.ofWord e.vb).first + (Handle.ofWord e.vb).count ≤ 383 →
      ((s.outPort gb).filter (fun x => decide (x.stage < 2))).length < 16 →
      ∃ t h, exec (.pqPut gb env) s = .next t ∧ t.completed gb e ∧ t.mem = s.mem ∧ t.outPort gb = s.outPort gb ++ [h] ∧
        h.act = tagIn e.word ∧ h.pc = e.pc ∧ h.stage = 0 ∧
        h.word = { Handle.ofWord e.vb with device := s.devId, bench := gb, sq := 0, empty := false }.word) ∧
    (s.executes gb 20 e = true → opc e.word = 0x31 → tagIn e.word = 0 →
      (∀ w rest, (s.inPort gb).queue = w :: rest → ∃ t, exec (.pqGet gb env) s = .next t ∧ t.completed gb e ∧ t.mem = s.mem ∧
        (fld e.word 51 47 ≠ 0 → t.sreg gb (fld e.word 51 47) = w) ∧ (t.inPort gb).queue = rest ∧
        (t.inPort gb).owned = (s.inPort gb).owned) ∧
      ((s.inPort gb).queue = [] → ∃ t, exec (.pqGet gb env) s = .next t ∧ t.waitOf gb 20 = some (5, 0) ∧ t.seqs = s.seqs ∧
        t.sregs = s.sregs)) ∧
    (s.executes gb 20 e = true → opc e.word = 0x32 → tagIn e.word = 0 → ∀ rest, (s.inPort gb).owned = e.vb :: rest →
      ∃ t, exec (.pqRel gb env) s = .next t ∧ t.completed gb e ∧ t.mem = s.mem ∧ (t.inPort gb).owned = rest ∧
        t.outbox = .credit (Handle.ofWord e.vb).device (Handle.ofWord e.vb).bench :: s.outbox ∧
        ∀ i, i ≤ (Handle.ofWord e.vb).count → t.tag gb ((Handle.ofWord e.vb).first + i) = false)

/-- On benches whose clocks run: a handle of the device's own with credit and SEQ whose slots may be read leaves with their bytes;
one without a credit waits; a handle with the expected SEQ whose ring slots are empty, at a port with none held, is stored there, queued, owned and
acknowledged, and the next SEQ expected; a duplicate is only counted; an acknowledgement removes the sent handle; a credit
returns up to the allotment. The model's choices that it rests on: assumption log 26. (R338 (12_streams_and_punty_queues.md),
R339 (12_streams_and_punty_queues.md), R340 (12_streams_and_punty_queues.md), R342 (12_streams_and_punty_queues.md)) -/
def Obligations.HandlesTravelBetweenPorts : Prop :=
  ∀ (s : State) (gb : Nat) (env : EngEnv), gb < 2560 → quietEnv env = true → s.clockStopped gb = false →
    (∀ h k, s.outPort gb = [h] → k = Handle.ofWord h.word → s.held gb 21 = false →
      (h.stage = 1 → s.rd Reg.PQ_OUT_ROUTE_DEVICE gb = s.devId → s.regionWait gb h.region = none → s.sound gb (1024 * k.first) k.len = true →
        ∃ t, exec (.pqHandleSend gb env) s = .next t ∧ t.outPort gb = [{ h with stage := 2 }] ∧ t.mem = s.mem ∧
          t.outbox = .handle s.devId (s.rd Reg.PQ_OUT_ROUTE_BENCH gb) h.word
            (s.bytes (spadBase gb + 1024 * k.first) k.len) :: s.outbox) ∧
      (h.stage = 0 → s.rd Reg.PQ_OUT_CREDIT_CREDIT gb = 0 → ∃ t, exec (.pqHandleSend gb env) s = .next t ∧
        t.waitOf gb 21 = some (4, 0) ∧ t.outPort gb = s.outPort gb ∧ t.outbox = s.outbox)) ∧
    (∀ (w : DWord) (payload : List Byte) (j : Nat), (s.inPort gb).waiting = [] →
      s.producerOf gb (Handle.ofWord w).device (Handle.ofWord w).bench = some j →
      (∀ first, first = s.rd Reg.PQ_IN_PROD_BASE gb j + s.ringPos.get 0 (16 * gb + j) * ((Handle.ofWord w).count + 1) →
        (Handle.ofWord w).sq = s.rd Reg.PQ_IN_PROD_EXPECT gb j → (Handle.ofWord w).empty = false →
        s.regionWait gb ⟨1024 * first, 1024 * ((Handle.ofWord w).count + 1), true, 1⟩ = none →
        ∃ t, exec (.pqHandleArrival gb w payload []) s = .next t ∧ t.bytes (spadBase gb + 1024 * first) payload.length = payload ∧
          s.sameOutside t (spadBase gb + 1024 * first) payload.length ∧
          (t.inPort gb).queue = (s.inPort gb).queue ++ [{ Handle.ofWord w with first := first }.word] ∧
          (t.inPort gb).owned = (s.inPort gb).owned ++ [{ Handle.ofWord w with first := first }.word] ∧
          t.rd Reg.PQ_IN_PROD_EXPECT gb j = ((Handle.ofWord w).sq + 1) % 256 ∧
          t.outbox = .delivered (Handle.ofWord w).device (Handle.ofWord w).bench (Handle.ofWord w).sq :: s.outbox) ∧
      (128 ≤ ((Handle.ofWord w).sq + 256 - s.rd Reg.PQ_IN_PROD_EXPECT gb j) % 256 →
        exec (.pqHandleArrival gb w payload []) s = .next (s.bump Reg.PQ_DUP_CNT_COUNT gb))) ∧
    (∀ h, s.outPort gb = [h] → h.stage = 2 → ∃ t, exec (.pqDeliveryAck gb (Handle.ofWord h.word).sq false) s = .next t ∧
      t.outPort gb = [] ∧ t.mem = s.mem) ∧
    (s.rd Reg.PQ_OUT_CREDIT_ALLOT gb < 128 → ∃ t, exec (.pqCreditReturn gb) s = .next t ∧ t.rd Reg.PQ_OUT_CREDIT_CREDIT gb =
      min (s.rd Reg.PQ_OUT_CREDIT_CREDIT gb + 1) (s.rd Reg.PQ_OUT_CREDIT_ALLOT gb) ∧ t.mem = s.mem)

/-- A bench with a waiting unit is stuck after 32,768 cycles without progress, and not before; a deadlocked partition faults with
every bench of it, and one that is not deadlocked is left alone; a punty wait that lies outside, and a wait on a stopped clock,
is reported once. (R344 (12_streams_and_punty_queues.md), R345 (12_streams_and_punty_queues.md), R346
(12_streams_and_punty_queues.md)) -/
def Obligations.WaitsAreDetected : Prop :=
  ∀ (s : State) (gb : Nat), gb < 2560 →
    (∀ n, 32768 ≤ n → n < 2 ^ 32 → (s.firstWait gb).isSome = true → ∃ t, exec (.benchStuck gb n) s = .next t ∧
      t.on Reg.BENCH_WAIT_STATUS_STUCK gb = true ∧ t.rd Reg.BENCH_WAIT_CYC_CYCLES gb = n ∧ t.mem = s.mem) ∧
    (∀ n, n < 32768 → exec (.benchStuck gb n) s = .next s) ∧
    (∀ p, p < 16 → s.deadlocked p = true → ∃ t, exec (.deadlockDetect p) s = .next t ∧ t.rd Reg.PART_STATUS_STATE 0 p = 3 ∧
      (s.partOf gb = p → t.seqState gb = .fault)) ∧
    (∀ p, p < 16 → s.deadlocked p = false → exec (.deadlockDetect p) s = .next s) ∧
    (∀ u, [20, 21].find? (fun u => s.waitsOutside gb u && !s.saidLong gb u) = some u →
      ∃ t, exec (.pqRemoteLong gb) s = .next t ∧ t.saidLong gb u = true ∧ t.rd Reg.PQ_STATUS_LAST_FAULT gb = 0x0807 ∧ t.mem = s.mem) ∧
    ([20, 21].find? (fun u => s.waitsOutside gb u && !s.saidLong gb u) = none → exec (.pqRemoteLong gb) s = .next s) ∧
    (∀ u, (List.range 22).find? (fun u => (s.unitWait gb u).map Prod.fst == some 11 && !s.saidLong gb u) = some u →
      ∃ t, exec (.streamClockWait gb) s = .next t ∧ t.saidLong gb u = true ∧ t.mem = s.mem ∧
        t.rd (lastFaultField gb u).1 (lastFaultField gb u).2 = 0x0721)

/-- On a bench whose die the servitor reaches: a read of SEQ_EMPTY_CNT returns the count and clears it; a read of the low half of a
substream captures all 64 bits, so that the high half read next belongs to it; a write of PAR_CFG sets its three fields and
changes no memory. A read of an address that names nothing returns 0. The model's choices that it rests on: assumption log 34.
(R18 (00_scope.md), R76 (02_narrow_arithmetic.md), R126 (03_pot_compute.md), R351 (13_on_package_network.md), R175
(05_parison_array.md), R289 (10_sequencer_and_tiling.md)) -/
def Obligations.RegisterPathReadsAndWrites : Prop :=
  ∀ (s : State) (gb v : Nat), gb < 2560 → s.cutOff (gb / 160) = false →
    (∃ t, exec (.rcCounterRead 1 (.loc (spadBase gb + 0x200C40))) s = .next t ∧ t.mem = s.mem ∧
      t.readData = s.rd Reg.SEQ_EMPTY_CNT_COUNT gb % 2 ^ 32 ∧ t.rd Reg.SEQ_EMPTY_CNT_COUNT gb = 0) ∧
    (s.rd Reg.BENCH_PRNG_SEL_SUBSTREAM gb < 17 → ∃ t u,
      exec (.captureRead 1 (.loc (spadBase gb + 0x2000C4))) s = .next t ∧
      t.readData = (s.prngOf gb (s.rd Reg.BENCH_PRNG_SEL_SUBSTREAM gb)).toNat % 2 ^ 32 ∧
      exec (.captureRead 1 (.loc (spadBase gb + 0x2000C8))) t = .next u ∧
      u.readData = (s.prngOf gb (s.rd Reg.BENCH_PRNG_SEL_SUBSTREAM gb)).toNat / 2 ^ 32 ∧ u.prng = s.prng) ∧
    (∃ t, exec (.registerWrite 1 (.loc (spadBase gb + 0x200300)) v) s = .next t ∧ t.mem = s.mem ∧
      t.rd Reg.PAR_CFG_CAL_PERIOD gb = v % 256 ∧ t.rd Reg.PAR_CFG_CAL_DTEMP gb = v / 256 % 16 ∧
      t.rd Reg.PAR_CFG_STALE_POLICY gb = v / 4096 % 2) ∧
    (∀ agent a, isAccessor agent = true → s.reached agent (.loc a) = .unmapped →
      ∃ t, exec (.unmappedRegisterRead agent a) s = .next t ∧ t.readData = 0 ∧ t.mem = s.mem)

/-- A write over the register path, by an agent other than the gaffer, of any register of the block PWR or of VR changes no RW-G
field: each reads after as before. (R19 (00_scope.md), R18 (00_scope.md)) -/
def Obligations.GuardedFieldsStandAgainstOtherAgents : Prop :=
  ∀ (s t : State) (agent a v : Nat) (l : RegLoc) (f : Field) (j : Nat), agent ≠ 0 → isAccessor agent = true →
    s.reached agent (.loc a) = .reg l → (l.blk = .pwr ∨ l.blk = .vr) → f ∈ l.fields → f.acc = .rwg →
    exec (.registerWrite agent (.loc a) v) s = .next t → t.rd f l.inst j = s.rd f l.inst j

/-- An instruction memory write by a service agent lands on a stopped bench and sets CMD_REJECT on another; a service broadcast to a
die's scratchpads lands in all 160; the physical function's BAR2 write of a scratchpad stores its bytes and its read answers
them; a read whose bench's clock stays stopped ends with an abort; the gaffer's first location write sets the identity, a later
one and any other agent's do not. The model's choices that it rests on: assumption log 34 and 37. (R263
(10_sequencer_and_tiling.md), R289 (10_sequencer_and_tiling.md), R366 (13_on_package_network.md), R550 (21_host_interface.md),
R552 (21_host_interface.md), R47 (01_architecture.md)) -/
def Obligations.BenchWindowWritesFromOutside : Prop :=
  ∀ (s : State) (gb : Nat), gb < 2560 →
    (∀ agent off data, agent ≤ 1 → off + data.length ≤ 0x8000 → s.cutOff (gb / 160) = false → s.clockStopped gb = false →
      (s.stopped gb = true → ∃ t, exec (.imemWrite agent gb off data) s = .next t ∧
        t.bytes (imemBase gb + off) data.length = data ∧ s.sameOutside t (imemBase gb + off) data.length ∧ t.regs = s.regs) ∧
      (s.stopped gb = false → exec (.imemWrite agent gb off data) s = .next (s.flag Reg.SEQ_STATUS_CMD_REJECT gb true))) ∧
    (∀ agent die off data, agent ≤ 1 → die < 16 → off + data.length ≤ 0x60000 →
      s.cutOff die = false → (∀ b, b < 160 → s.clockStopped (160 * die + b) = false) → gb / 160 = die → 0 < data.length →
      ∃ t, exec (.broadcastWrite (.service agent (0x30000000000 + die * 0x100000000 + off) data) []) s = .next t ∧
        t.bytes (spadBase gb + off) data.length = data) ∧
    (∀ off, off < 0x60000 → s.cutOff (gb / 160) = false → s.clockStopped gb = false → s.partOf gb ≠ 255 →
      s.rd Reg.PART_STATUS_STATE 0 (s.partOf gb) ≠ 1 → s.rd Reg.BOOT_STATUS_MODE 0 ≠ 2 →
      (∀ data, off + data.length ≤ 0x60000 →
        ∃ t, exec (.hostBarAccess 0 2 (spadBase gb - 0x20000000000 + off) data.length (some data) []) s = .next t ∧
          t.bytes (spadBase gb + off) data.length = data ∧ s.sameOutside t (spadBase gb + off) data.length) ∧
      (∀ n, off + n ≤ 0x60000 → s.sound gb off n = true →
        ∃ t, exec (.hostBarAccess 0 2 (spadBase gb - 0x20000000000 + off) n none []) s = .next t ∧ s.sameMemory t ∧
          t.outbox = .hostRead 0 (ofBytes (s.bytes (spadBase gb + off) n)) :: s.outbox)) ∧
    (∀ off, off < 0x60000 → s.clockStopped gb = true →
      exec (.hostReadStoppedTimeout 0 (spadBase gb - 0x20000000000 + off) false) s = .next (s.emit (.hostAbort 0)) ∧
      exec (.hostReadStoppedTimeout 0 (spadBase gb - 0x20000000000 + off) true) s = .next s) ∧
    (∀ id, id < 512 →
      (s.on Reg.DEV_LOCATION_VALID 0 = false → ∃ t, exec (.devLocationWrite 0 id) s = .next t ∧ t.devId = id ∧
        t.on Reg.DEV_LOCATION_VALID 0 = true ∧ t.mem = s.mem) ∧
      (s.on Reg.DEV_LOCATION_VALID 0 = true → exec (.devLocationWrite 0 id) s = .next s) ∧
      (∀ agent, agent ≠ 0 → ∃ t, exec (.devLocationWrite agent id) s = .next t ∧ t.devId = s.devId))

/-- A read, by the gaffer, the servitor or the physical function, of any offset 0x044 to 0x0FF of the DEV block returns zero; a
write of any offset of the block other than DEV_LOCATION leaves the whole state as it was, so that no fault is recorded; a write
through the DEV window of a function's page, other than of DEV_LOCATION, does so too. (R48 (01_architecture.md)) -/
def Obligations.ReservedAndReadOnlyDeviceOffsets : Prop :=
  ∀ (s : State) (agent o v : Nat), o < 0x100 →
    (agent ≤ 2 → 0x44 ≤ o → ∃ t, exec (.rcCounterRead agent (.loc (0x7F000000000 + o))) s = .next t ∧ t.readData = 0 ∧ t.regs = s.regs) ∧
    (agent ≤ 2 → o / 4 * 4 ≠ 0x40 → exec (.registerWrite agent (.loc (0x7F000000000 + o)) v) s = .next s) ∧
    (isAccessor agent = true → 2 ≤ agent → o / 4 * 4 ≠ 0x40 → exec (.registerWrite agent (.page (0x8000 + o)) v) s = .next s)

/-- A clean mesh flit changes nothing, a corrected one is counted, a lasting one sets LASTING and reports NOC_LINK_LASTING. A good
data flit with the expected number over an up link is taken. A timeout replays the oldest flit, and a second failure of it sets
both ends retraining. A retrain that succeeds makes both ends up, the third failure in a row down. The arrival that completes a
group confined to the device releases it with its epoch; an earlier one is counted. The model's choices that it rests on:
assumption log 38. (R360 (13_on_package_network.md), R361 (13_on_package_network.md), R362 (13_on_package_network.md), R364
(13_on_package_network.md)) -/
def Obligations.NetworkCommandsActOnTheirLinks : Prop :=
  ∀ (s : State) (die : Nat), die < 16 →
    (∀ node dir, node < 160 → dir < 5 →
      exec (.meshFlitReceive die node dir none .other) s = .next s ∧
      exec (.meshFlitReceive die node dir (some .corrected) .other) s = .next (s.bump Reg.NOC_ERR_CNT_CORR die) ∧
      ∃ t, exec (.meshFlitReceive die node dir (some .lasting) .other) s = .next t ∧ t.on Reg.NOC_STATUS_LASTING die = true ∧
        t.rd Reg.NOC_STATUS_LAST_FAULT die = 0x0901 ∧ t.mem = s.mem) ∧
    (∀ edge, hasEdge die edge = true →
      (∀ f : PkgFlit, s.rd Reg.PKG_LINK_STATUS_STATE die edge = 1 → f.typ = 0 → f.nak = false →
        f.sq = (s.pkgEnd die edge).expected → f.sq < 1024 → (s.pkgEnd (beside die edge) (farEdge edge)).buffer.length < 256 →
        ∃ t, exec (.pkgFlitReceive die edge f true) s = .next t ∧ (t.pkgEnd die edge).expected = (f.sq + 1) % 1024 ∧
          t.outbox = .pkgTaken die edge f :: s.outbox ∧ t.mem = s.mem) ∧
      (∀ f rest, s.rd Reg.PKG_LINK_STATUS_STATE die edge = 1 → (s.pkgEnd die edge).buffer = f :: rest →
        ((s.pkgEnd die edge).judged = none → ∃ t, exec (.pkgAckTimeout die edge) s = .next t ∧
          (t.pkgEnd die edge).judged = some f.sq ∧ (t.pkgEnd die edge).buffer = f :: rest ∧ .pkgFlit die edge f ∈ t.outbox) ∧
        ((s.pkgEnd die edge).judged = some f.sq → ∃ t, exec (.pkgAckTimeout die edge) s = .next t ∧
          t.rd Reg.PKG_LINK_STATUS_STATE die edge = 2 ∧ t.rd Reg.PKG_LINK_STATUS_STATE (beside die edge) (farEdge edge) = 2)) ∧
      (s.rd Reg.PKG_LINK_STATUS_STATE die edge = 2 →
        (∃ t, exec (.pkgRetrainEnd die edge true) s = .next t ∧ t.rd Reg.PKG_LINK_STATUS_STATE die edge = 1 ∧
          t.rd Reg.PKG_LINK_STATUS_STATE (beside die edge) (farEdge edge) = 1 ∧ t.rd Reg.PKG_LINK_STATUS_FAILS die edge = 0) ∧
        (s.rd Reg.PKG_LINK_STATUS_FAILS die edge = 2 → ∃ t, exec (.pkgRetrainEnd die edge false) s = .next t ∧
          t.rd Reg.PKG_LINK_STATUS_STATE die edge = 3 ∧ t.rd Reg.PKG_LINK_STATUS_STATE (beside die edge) (farEdge edge) = 3 ∧
          t.rd Reg.PKG_LINK_STATUS_LAST_FAULT die edge = 0x0911))) ∧
    (∀ g, g < 256 → s.on Reg.NOC_BAR_CFG_HOME die g = true → (s.groupPart g).any s.applying = false → ∀ e, e = s.rd Reg.NOC_BAR_EPOCH_EXPECT die g →
      (s.rd Reg.NOC_BAR_CFG_ARRIVED die g + 1 < s.rd Reg.NOC_BAR_CFG_MEMBERS die g →
        exec (.barArrivalHome die g e) s =
          .next (s.wr Reg.NOC_BAR_CFG_ARRIVED die (s.rd Reg.NOC_BAR_CFG_ARRIVED die g + 1) g)) ∧
      (s.rd Reg.NOC_BAR_CFG_ARRIVED die g + 1 = s.rd Reg.NOC_BAR_CFG_MEMBERS die g → s.on Reg.NOC_BAR_CFG_SPANS die g = false →
        ∃ t, exec (.barArrivalHome die g e) s = .next t ∧ t.outbox = .release g e :: s.outbox ∧
          t.rd Reg.NOC_BAR_CFG_ARRIVED die g = 0 ∧ t.rd Reg.NOC_BAR_EPOCH_EXPECT die g = (e + 1) % 2 ^ 32))

/-- An UP cane takes a good data flit with the expected number, without credits gained, and hands its payload on; a replay timeout
replays from the oldest flit; loss of signal starts a retrain episode; a good leave flit parks it; a lane above the threshold in
two windows running is dropped and an episode starts while enough lanes remain; windows within the threshold leave its state.
The model's choices that it rests on: assumption log 39 and 48. (R418 (16_cane_links.md), R419 (16_cane_links.md), R425
(16_cane_links.md), R429 (16_cane_links.md), R430 (16_cane_links.md), R431 (16_cane_links.md)) -/
def Obligations.CaneFlitsReplaysAndLanes : Prop :=
  ∀ (s : State) (c : Nat), c < 36 → s.caneState c = 3 →
    (∀ (f : CaneFlit) (p : Partner), flitOk f true 0 = true → f.typ = 0 → f.nak = false → 0 < f.ch → f.sq = (s.cane c).expected →
      f.sq < 4096 → (∀ q ∈ [(f.chA, f.cntA), (f.chB, f.cntB)], (s.cane c).seen.getD q.1 0 = q.2 ∧ q.2 < 4096 ∧
        (s.cane c).credit.getD q.1 0 ≤ fullCredit.getD q.1 0) →
      ∃ t, exec (.caneFlitReceive c f true 0 p) s = .next t ∧ (t.cane c).expected = (f.sq + 1) % 4096 ∧
        .taken c f.ch f.payload ∈ t.outbox ∧ t.mem = s.mem) ∧
    ((s.cane c).buffer ≠ [] → (s.cane c).judged = none → ∃ t, exec (.caneReplayTimeout c) s = .next t ∧
      (t.cane c).judged = some (s.cane c).ack ∧ (t.cane c).buffer = (s.cane c).buffer ∧ t.caneState c = 3) ∧
    (∃ t, exec (.lossOfSignal c) s = .next t ∧ t.caneState c = 4 ∧ (t.cane c).former = 3 ∧ t.mem = s.mem) ∧
    (∃ t, exec (.leaveFlit c true) s = .next t ∧ t.caneState c = 7 ∧ (t.cane c).buffer = [] ∧
      t.rd Reg.CANE_STATUS_LAST_FAULT (c / 9) (c % 9) = 0x0B06) ∧
    (∀ symbols, (∀ k, k < 8 → symbols.getD k 0 ≤ 2 ^ s.crd Reg.CANE_CFG_LANE_TH c) → ∃ t,
      exec (.laneErrorWindow c symbols 0) s = .next t ∧ t.caneState c = 3 ∧ (t.cane c).hot = []) ∧
    (∀ symbols k, k < 8 → 2 ^ s.crd Reg.CANE_CFG_LANE_TH c < symbols.getD k 0 → k ∈ (s.cane c).hot →
      (∀ j, j < 8 → j ≠ k → symbols.getD j 0 ≤ 2 ^ s.crd Reg.CANE_CFG_LANE_TH c) → s.crd Reg.CANE_LANES_GOOD c < 256 →
      (s.crd Reg.CANE_LANES_GOOD c).testBit k = true →
      s.minLanes c ≤ laneCount (s.crd Reg.CANE_LANES_GOOD c - 2 ^ k) → ∃ t, exec (.laneErrorWindow c symbols 0) s = .next t ∧
        t.caneState c = 4 ∧ t.crd Reg.CANE_LANES_GOOD c = s.crd Reg.CANE_LANES_GOOD c - 2 ^ k)

/-- A good attempt with enough lanes to a located partner on a located device brings a training cane UP; three failed ones bring it
DOWN; a good fast retrain returns a cane to its former service; a DOWN cabled cane with AUTO_RETRY trains again; TRAIN, PARK,
RETRAIN_FULL and RETRAIN_FAST by a service agent act on the cane that CANE_SEL shows; a cable taken away brings its canes down,
one plugged in trains them. The model's choices that it rests on: assumption log 36 and 39. (R427 (16_cane_links.md), R428
(16_cane_links.md), R430 (16_cane_links.md), R431 (16_cane_links.md), R433 (16_cane_links.md), R573 (22_module_hardware.md)) -/
def Obligations.CaneTrainingAndControl : Prop :=
  ∀ (s : State) (c : Nat), c < 36 →
    (∀ tr : TrainTry, s.caneState c = 1 → s.crd Reg.CANE_STATUS_FAILS c = 0 →
      (tr.ok = true → tr.good < 256 → s.minLanes c ≤ laneCount tr.good → s.crd Reg.CANE_EXPECT_VALID c = 0 → tr.partner.located = true →
        s.on Reg.DEV_LOCATION_VALID 0 = true → ∃ t, exec (.caneTraining c [tr]) s = .next t ∧ t.caneState c = 3 ∧
          t.crd Reg.CANE_STATUS_WIDTH c = laneCount tr.good ∧ t.crd Reg.CANE_PARTNER_DEVICE c = tr.partner.device % 512) ∧
      (tr.ok = false → ∃ t, exec (.caneTraining c [tr, tr, tr]) s = .next t ∧ t.caneState c = 5 ∧
        t.crd Reg.CANE_STATUS_FAILS c = 3)) ∧
    (∀ tr : TrainTry, s.caneState c = 4 → tr.ok = true → (s.cane c).fullFirst = false → (s.cane c).afresh = false →
      (s.cane c).former = 3 → s.minLanes c ≤ laneCount (tr.good &&& s.crd Reg.CANE_LANES_GOOD c) →
      ∃ t, exec (.retrainEpisode c tr []) s = .next t ∧ t.caneState c = 3 ∧ t.mem = s.mem) ∧
    (s.caneState c = 5 → s.crd Reg.CANE_CFG_AUTO_RETRY c = 1 → s.cabled c = true →
      ∃ t, exec (.autoRetry c) s = .next t ∧ t.caneState c = 1 ∧ (t.cane c).quiet = true) ∧
    (∀ agent, agent ≤ 1 → s.rd Reg.CANE_SEL_CANE (c / 9) = c % 9 →
      (s.caneState c ≠ 1 → s.cabled c = true → ∃ t, exec (.train (c / 9) agent) s = .next t ∧ t.caneState c = 1 ∧ t.mem = s.mem) ∧
      (∃ t, exec (.park (c / 9) agent) s = .next t ∧ t.caneState c = 7 ∧ (t.cane c).buffer = []) ∧
      (s.caneState c = 3 → (∃ t, exec (.retrainFull (c / 9) agent) s = .next t ∧ t.caneState c = 4 ∧ (t.cane c).fullFirst = true) ∧
        (∃ t, exec (.retrainFast (c / 9) agent) s = .next t ∧ t.caneState c = 4 ∧ (t.cane c).fullFirst = false))) ∧
    (s.caneState c ≠ 0 → (∃ t, exec (.cablePresenceChange (c / 9) true) s = .next t ∧ t.caneState c = 5) ∧
      (∃ t, exec (.cablePresenceChange (c / 9) false) s = .next t ∧ t.caneState c = 1 ∧ t.cabled c = true))

/-- A GET that passes the tests of R440 is answered with the bytes of the tier, the scratchpad or the instruction memory, or with
ADDR outside the partition, and changes no memory. A new PUT stores exactly its payload, in a tier or a scratchpad, and leaves a
cache entry; a new ATOMIC stores its result and answers the old value. A duplicate is answered from its entry. A request for
another device or with a bad CRC changes nothing; one whose tag names no READY partition is answered REFUSED. The model's
choices that it rests on: assumption log 50 (the operands of compare-and-swap) and 56. (R440 (17_fabric_transport.md), R442
(17_fabric_transport.md), R459 (17_fabric_transport.md), R441 (17_fabric_transport.md), R437 (17_fabric_transport.md)) -/
def Obligations.FabricReadsWritesAndAtomics : Prop :=
  ∀ (s : State) (k p : Nat) (m : FabMsg), k < 4 →
    (∀ st aux bs, m.src = s.devId → s.answer k m 0x19 st aux bs = s.emit (.fabHere (s.response m 0x19 st aux bs))) ∧
    (s.devId ≠ m.dst → exec (.get k m true []) s = .next s ∧ exec (.put k m true [] []) s = .next s) ∧
    (exec (.atomic k m false []) s = .next s) ∧
    (m.typ = 1 → m.dst = s.devId → m.rtid = none → s.on Reg.DEV_LOCATION_VALID 0 = true → s.on Reg.FAB_TIME_CFG_VALID 0 = true →
      s.tagPart m.ftag = none → exec (.get k m true []) s = .next ((s.bump Reg.FAB_REJECT_CNT_TAG k).answer k m 0x19 2)) ∧
    (s.admits m p →
      (m.typ = 1 → (s.fabOk p m.addr m.len false = false ∨ m.len = 0) → exec (.get k m true []) s = .next (s.answer k m 0x19 4)) ∧
      (m.typ = 1 → m.len ≠ 0 → s.fabOk p m.addr m.len false = true → s.fabReach k m.addr = true →
        ((placeOf m.addr = .tierA ∨ placeOf m.addr = .tierB) → s.tierPoison = [] →
          (∀ q ∈ tierPieces m.addr m.len, s.tierState (ctlOf q.1) ≠ 3) → ∃ u : State, u.mem = s.mem ∧
          exec (.get k m true []) s = .next (u.answer k m 0x19 0 0 (s.bytes m.addr m.len))) ∧
        (∀ gb off, placeOf m.addr = .spad gb off → s.clockStopped gb = false →
          s.regionWait gb ⟨off, m.len, false, m.rtag⟩ = none → s.sound gb off m.len = true → ∃ u : State, u.mem = s.mem ∧
          exec (.get k m true []) s = .next (u.answer k m 0x19 0 0 (s.bytes (spadBase gb + off) m.len))) ∧
        (∀ gb off, placeOf m.addr = .imem gb off →
          exec (.get k m true []) s = .next (s.answer k m 0x19 0 0 (s.bytes (imemBase gb + off) m.len)))) ∧
      (∀ r, m.typ = 2 → s.cacheHit m = some r →
        exec (.put k m true [] []) s = .next ((s.bump Reg.FAB_DUP_CNT_DUP (m.tid / 2048)).sendMsg r (cornerDie k)).1) ∧
      ((∀ e ∈ s.cache.get [] (m.tid / 2048), e.src ≠ m.src ∨ e.tid ≠ m.tid) → s.cacheFull m = false →
        (m.typ = 2 → m.payload ≠ [] → s.fabOk p m.addr m.payload.length true = true → s.fabReach k m.addr = true →
          ((placeOf m.addr = .tierA ∨ placeOf m.addr = .tierB) → s.tierPoison = [] →
            (∀ q ∈ tierPieces m.addr m.payload.length, s.tierState (ctlOf q.1) ≠ 3) →
            ∃ t, exec (.put k m true [] []) s = .next t ∧ t.bytes m.addr m.payload.length = m.payload ∧
              s.sameOutside t m.addr m.payload.length ∧ (t.cacheHit m).isSome = true) ∧
          (∀ gb off, placeOf m.addr = .spad gb off → s.benchBlocks gb off m.payload.length m.rtag = false →
            s.sound gb off m.payload.length = true → ∃ t, exec (.put k m true [] []) s = .next t ∧
            t.bytes (spadBase gb + off) m.payload.length = m.payload ∧
            s.sameOutside t (spadBase gb + off) m.payload.length ∧ (t.cacheHit m).isSome = true)) ∧
        (m.typ = 3 → m.aop ≤ 3 → m.addr % 8 = 0 → (placeOf m.addr = .tierA ∨ placeOf m.addr = .tierB) →
          s.inWindow p m.addr true = true → s.fabReach k m.addr = true → s.tierPoison = [] → s.tierState (ctlOf m.addr) ≠ 3 →
          ∃ (u : State) (r : FabMsg), exec (.atomic k m true []) s = .next (u.sendMsg r (cornerDie k)).1 ∧
            u.num m.addr 8 = atomicOp m.aop (s.num m.addr 8) (ofBytes (m.payload.take 8)) (ofBytes ((m.payload.drop 8).take 8)) ∧
            s.sameOutside u m.addr 8 ∧ r.payload = s.bytes m.addr 8 ∧ r.status = 0 ∧ r.dst = m.src)))

/-- The expected HDL_DATA keeps its payload for its handle and the expected FSEQ advances; one ahead is answered AHEAD and keeps
nothing; the expected HDL delivers its handle at the in-port. A device arrival of the expected epoch is counted, and a release
of the outstanding epoch releases its group. STOP halts the partition's running benches; CAP becomes the fabric cap. A NOTICE is
handed to the servitor. The model's choices that it rests on: assumption log 44 and 51 (what ADDR names). (R442
(17_fabric_transport.md), R338 (12_streams_and_punty_queues.md), R454 (17_fabric_transport.md), R450 (17_fabric_transport.md),
R467 (18_power_and_thermal.md)) -/
def Obligations.FabricStreamsBarriersAndManagement : Prop :=
  ∀ (s : State) (k p : Nat) (m : FabMsg), k < 4 →
    (s.admits m p →
      (m.typ = 4 → ∀ gb, s.hdlBench p m = some gb →
        (s.fseqIn.get 0 (flowKey m) = fseqOf m → ∃ t, exec (.hdlData k m true) s = .next t ∧
          t.hdlData.get [] (flowKey m) = s.hdlData.get [] (flowKey m) ++ m.payload ∧
          t.fseqIn.get 0 (flowKey m) = (fseqOf m + 1) % 65536 ∧ t.mem = s.mem) ∧
        (∀ d, d ≠ 0 → d < 32768 → (fseqOf m + 65536 - s.fseqIn.get 0 (flowKey m)) % 65536 = d →
          exec (.hdlData k m true) s = .next (s.answer k m 0x18 8 (s.fseqIn.get 0 (flowKey m))))) ∧
      (m.typ = 5 → ∀ gb j h, s.hdlBench p m = some gb → s.fseqIn.get 0 (flowKey m) = fseqOf m →
        h = Handle.ofWord (BitVec.ofNat 64 (ofBytes (m.payload.take 8))) → s.portReach k (gb / 160) = true →
        s.producerOf gb h.device h.bench = some j → s.rd Reg.PQ_IN_PROD_EXPECT gb j = h.sq → s.clockStopped gb = false →
        (s.inPort gb).waiting = [] →
        s.regionWait gb ⟨1024 * (s.rd Reg.PQ_IN_PROD_BASE gb j + s.ringPos.get 0 (16 * gb + j) * (h.count + 1)),
          1024 * (h.count + 1), true, 1⟩ = none →
        ∃ t, exec (.hdl k m true []) s = .next t ∧ (t.inPort gb).queue = (s.inPort gb).queue ++
            [{ h with first := s.rd Reg.PQ_IN_PROD_BASE gb j + s.ringPos.get 0 (16 * gb + j) * (h.count + 1) }.word] ∧
          t.fseqIn.get 0 (flowKey m) = (fseqOf m + 1) % 65536 ∧ t.hdlData.get [] (flowKey m) = []) ∧
      (m.typ = 0x0A → ∃ t, exec (.stop k m true) s = .next t ∧ t.mem = s.mem ∧
        ∀ gb, gb < 2560 → s.partOf gb = p → s.seqState gb = .run → t.seqState gb ≠ .run)) ∧
    (s.admits m p → m.addr < 256 → (s.groupPart m.addr).any s.applying = false →
      (m.typ = 8 → ∀ g, g = m.addr → s.on Reg.FAB_BAR_CFG_VALID 0 g = true → s.rd Reg.FAB_BAR_CFG_HOME 0 g = s.devId →
        s.rd Reg.FAB_BAR_EPOCH_F 0 g = m.aux → m.aux < 2 ^ 32 → m.src ∉ s.barSrc.get [] g →
        (s.barSrc.get [] g).length < s.rd Reg.FAB_BAR_CFG_D 0 g → ∃ t, exec (.barArrive k m true) s = .next t ∧
          t.barSrc.get [] g = s.barSrc.get [] g ++ [m.src] ∧ t.mem = s.mem) ∧
      (m.typ = 9 → ∀ g die, g = m.addr → s.homeDie g = some die → s.on Reg.NOC_BAR_CFG_SPANS die g = true →
        s.rd Reg.NOC_BAR_CFG_ARRIVED die g = s.rd Reg.NOC_BAR_CFG_MEMBERS die g → s.rd Reg.NOC_BAR_EPOCH_EXPECT die g = m.aux →
        m.aux < 2 ^ 32 → ∃ t, exec (.barRelease k m true) s = .next t ∧ t.rd Reg.NOC_BAR_CFG_ARRIVED die g = 0 ∧
          t.rd Reg.NOC_BAR_EPOCH_EXPECT die g = (m.aux + 1) % 2 ^ 32 ∧ .release g m.aux ∈ t.outbox)) ∧
    (m.dst = s.devId → m.rtid = none → s.tooOld m = false →
      (m.typ = 0x0C → ∃ t, exec (.cap k m true) s = .next t ∧ t.fabCap = some (min (ofBytes (m.payload.take 4)) 4200) ∧
        t.rd Reg.PWR_FALLBACK_FABRIC_W 0 = min (ofBytes (m.payload.take 4)) 4200 ∧ t.mem = s.mem) ∧
      (m.typ = 0x0B → ∃ t, exec (.notice k m true) s = .next t ∧
        .servitor 0x0B m.src (ofBytes (m.payload.take 4)) ∈ t.outbox ∧ t.mem = s.mem))

/-- An OK response ends the transaction of its TID; one that answers no transaction changes nothing; BUSY keeps it and marks it for
BUSY_RESEND, which sends the request again. The first timeout sends the request again with RETX, the second frees the TID and
reports FAB_LASTING. An expired cache entry goes. A transit message leaves over a cane; a message of a type outside the table is
counted. The model's choices that it rests on: assumption log 41 and 56. (R437 (17_fabric_transport.md), R438
(17_fabric_transport.md), R441 (17_fabric_transport.md), R442 (17_fabric_transport.md), R445 (17_fabric_transport.md), R436
(17_fabric_transport.md)) -/
def Obligations.ResponsesTimeoutsAndTransit : Prop :=
  ∀ (s : State) (k : Nat) (m : FabMsg), k < 4 →
    (m.dst = s.devId → s.txn m.tid = none → exec (.rsp k m true) s = .next s ∧ exec (.rspData k m true) s = .next s ∧
      exec (.mgmtAck k m true) s = .next s.takeInbox) ∧
    (∀ x, m.dst = s.devId → s.txn m.tid = some x → x.msg.dst = m.src → s.fabWait = [] →
      (x.owner = .mgmt → m.status = 0 →
        (x.msg.typ = 2 → ∃ t, exec (.rsp k m true) s = .next t ∧ t.txn m.tid = none ∧ .servitor 2 m.src 0 ∈ t.outbox ∧ t.mem = s.mem) ∧
        (x.msg.typ = 3 → ∃ t, exec (.rspData k m true) s = .next t ∧ t.txn m.tid = none ∧ t.mem = s.mem) ∧
        (x.msg.typ = 0x0A → ∃ t, exec (.mgmtAck k m true) s = .next t ∧ t.txn m.tid = none ∧
          .servitor 0x0A m.src 0 ∈ t.outbox ∧ t.mem = s.mem)) ∧
      (∀ id y, x.owner = .xfer id → s.xfer id = some y → x.msg.typ = 1 → m.status = 0 → ∃ t, exec (.rspData k m true) s = .next t ∧
        t.txn m.tid = none ∧ t.xfer id = some { y with resp := some (.data m.payload) }) ∧
      (x.msg.typ = 2 → m.status = 1 → ∃ t, exec (.rsp k m true) s = .next t ∧ t.txn m.tid = some { x with busy := true } ∧
        t.mem = s.mem)) ∧
    (∀ x tid, s.txn tid = some x → tid < 8192 →
      (x.busy = true → s.hop x.msg (cornerDie (tid / 2048)) none ≠ .unreach → ∃ t, exec (.busyResend tid) s = .next t ∧
        t.txn tid = some { x with busy := false } ∧ t.mem = s.mem) ∧
      (x.retried = false → s.hop x.msg (cornerDie (tid / 2048)) none ≠ .unreach → ∃ t, exec (.fabTimeout tid) s = .next t ∧
        t.txn tid = some { x with retried := true, busy := false, msg := { x.msg with retx := true } } ∧ t.mem = s.mem) ∧
      (x.retried = true → x.owner = .mgmt → s.fabWait = [] → ∃ t, exec (.fabTimeout tid) s = .next t ∧ t.txn tid = none ∧
        t.on Reg.FAB_STATUS_LASTING (tid / 2048) = true ∧ t.rd Reg.FAB_STATUS_LAST_FAULT (tid / 2048) = 0x0C01 ∧ t.mem = s.mem)) ∧
    (∀ src tid, ∃ t, exec (.cacheEntryExpiry k src tid) s = .next t ∧ t.mem = s.mem ∧
      ∀ e, e ∈ t.cache.get [] k ↔ e ∈ s.cache.get [] k ∧
        (e.src ≠ src ∨ e.tid ≠ tid ∨ s.lifeNs < e.time + 2 ^ 30 + 2 ^ 20)) ∧
    (∀ dir c dlc dtrs, dir < 6 → m.dst % 512 ≠ s.devId → s.hop m (cornerDie k) (some dir) = .out c dlc dtrs →
      exec (.messageTransit k dir m) s = .next (s.caneSend c (chOf (vcOf m.typ) dlc) { m with dlc := dlc, dtrs := dtrs })) ∧
    (m.dst = s.devId → m.typ ∉ fabTypes → exec (.unknownMessageType k m true) s = .next (s.bump Reg.FAB_REJECT_CNT_TYPE k))

/-- A new period opens the child's exchange. SYNC keeps t2; FOLLOW_UP keeps t1 and t3; a parent answers DELAY_REQ; DELAY_RESP
completes the exchange: an offset of at most 1 µs is slewed and makes the time VALID, a larger one steps the clock with
FAB_TIME_STEP. 16 missed periods clear VALID. On the master a write of the high half commits the held low half. The model's
choices that it rests on: assumption log 57 and 58. (R452 (17_fabric_transport.md), R453 (17_fabric_transport.md), R462
(17_fabric_transport.md)) -/
def Obligations.GlobalTimeFollowsTheParent : Prop :=
  ∀ (s : State) (k sub : Nat) (m : FabMsg), k < 4 →
    (∀ master n, master < 512 → s.on Reg.FAB_TIME_CFG_MASTER 0 = false → parentOf s.devId master = some n →
      ∃ t, exec (.syncPeriod master sub) s = .next t ∧ t.timeX.parent = n ∧ t.timeX.complete = false ∧ t.timeX.t1 = none ∧
        t.timeX.t2 = none ∧ t.timeX.t3 = none ∧ t.timeX.missed = s.timeX.missed + (if s.timeX.complete then 0 else 1) ∧
        t.mem = s.mem) ∧
    (s.fromParent m true = true →
      exec (.sync k m true sub) s =
        .next { s.takeInbox with timeX := { s.timeX with t2 := some (s.clock sub), t1 := none, t3 := none } } ∧
      (s.timeX.t2.isSome = true → ∃ t, exec (.followUp k m true sub) s = .next t ∧ t.timeX.t2 = s.timeX.t2 ∧
        t.timeX.t1 = some (ofBytes (m.payload.take 8)) ∧ t.timeX.t3 = some (s.clock sub) ∧ t.mem = s.mem) ∧
      (∀ t1 t2 t3 (o : Int), s.timeX.t1 = some t1 → s.timeX.t2 = some t2 → s.timeX.t3 = some t3 →
        o = timeOffset t1 t2 t3 (ofBytes (m.payload.take 8)) →
        (exec (.delayResp k m true true) s = .next { s.takeInbox with timeX := { s.timeX with t1 := none, t2 := none, t3 := none } }) ∧
        (-1000 ≤ o → o ≤ 1000 → ∃ t, exec (.delayResp k m true false) s = .next t ∧ t.on Reg.FAB_TIME_CFG_VALID 0 = true ∧
          t.timeX.slew = o ∧ t.timeX.complete = true ∧ t.timeX.missed = 0 ∧ t.fabTime = s.fabTime) ∧
        ((o < -1000 ∨ 1000 < o) → ∃ t, exec (.delayResp k m true false) s = .next t ∧ t.timeX.slew = 0 ∧
          (t.fabTime : Int) = ((s.fabTime : Int) - o) % 2 ^ 64 ∧ t.rd Reg.FAB_STATUS_LAST_FAULT 0 = 0x0C05))) ∧
    (m.dst = s.devId → m.src = s.devId → ∃ r, exec (.delayReq k m true sub) s = .next (s.takeInbox.emit (.fabHere r)) ∧
      r.typ = 0x13 ∧ r.payload = leBytes 8 (s.clock sub)) ∧
    (m.dst = s.devId → ∃ t, exec (.delayReq k m true sub) s = .next t ∧ t.timeX = s.timeX ∧ t.mem = s.mem) ∧
    (s.on Reg.FAB_TIME_CFG_MASTER 0 = false → s.on Reg.FAB_TIME_CFG_VALID 0 = true →
      (16 ≤ s.timeX.missed → ∃ t, exec .fabTimeLost s = .next t ∧ t.on Reg.FAB_TIME_CFG_VALID 0 = false ∧
        t.rd Reg.FAB_STATUS_LAST_FAULT 0 = 0x0C06 ∧ t.fabTime = s.fabTime) ∧
      (s.timeX.missed < 16 → exec .fabTimeLost s = .next s)) ∧
    (∀ agent value, agent ≤ 2 → s.on Reg.FAB_TIME_CFG_MASTER 0 = true → value < 2 ^ 32 →
      s.heldLo.get 0 (Reg.FAB_TIME_LO_TIME_LO.key 0 0) < 2 ^ 32 → ∃ t, exec (.fabTimeHiWrite agent value) s = .next t ∧
        t.fabTime = value * 2 ^ 32 + s.heldLo.get 0 (Reg.FAB_TIME_LO_TIME_LO.key 0 0) ∧ t.on Reg.FAB_TIME_CFG_VALID 0 = true)

/-- A poll of an idle ring whose slot HEAD holds no valid command leaves ring and memory as they were; a valid atomic command starts
its transaction. A block for a command not yet started is answered BUSY, one that is not due MISMATCH; the BF16 block that is
due at the last step of an all-gather is stored at its place in DST. COLL_COMPLETE writes the 32-byte record at NOTIFY, clears
the slot and advances HEAD. The model's choices that it rests on: assumption log 49. (R456 (17_fabric_transport.md), R457
(17_fabric_transport.md), R459 (17_fabric_transport.md), R460 (17_fabric_transport.md)) -/
def Obligations.CollectiveCommandsRunOnTheirRing : Prop :=
  ∀ (s : State) (ring p : Nat), ring < 16 → s.tagPart (s.rd Reg.FAB_RING_PEER_FTAG 0 ring) = some p →
    (∀ bs, (s.ringX ring).cmd = none → s.on Reg.FAB_RING_CFG_VALID 0 ring = true → s.inWindow p (s.slotAddr ring) true = true →
      placeOf (s.slotAddr ring) = .tierA → s.ringReach ring (s.slotAddr ring) = true → s.tierPoison = [] → s.tierState (ctlOf (s.slotAddr ring)) ≠ 3 →
      bs = s.bytes (s.slotAddr ring) 64 →
      (ofBytes (bs.take 1) ≠ 0xC1 → ∃ t, exec (.collQueuePoll ring) s = .next t ∧ t.rings = s.rings ∧ t.mem = s.mem) ∧
      (ofBytes (bs.take 1) = 0xC1 → (CollCmd.ofBytes bs).op = 3 → (CollCmd.ofBytes bs).bad (s.ringN ring) = false →
        (CollCmd.ofBytes bs).target / 2 ^ 43 % 512 = s.devId → s.txns = [] → ∃ (t : State) (r : FabMsg) (x : Txn), exec (.collQueuePoll ring) s = .next t ∧
        t.mem = s.mem ∧ (t.ringX ring).cmd = some (CollCmd.ofBytes bs) ∧ .fabHere r ∈ t.outbox ∧ r.typ = 3 ∧
        r.addr = (CollCmd.ofBytes bs).target % 2 ^ 43 ∧ t.txns = [x] ∧ x.owner = .atomic ring)) ∧
    (∀ k (m : FabMsg), k < 4 → m.typ = 6 → s.admits m p → m.ftag = s.rd Reg.FAB_RING_PEER_FTAG 0 ring →
      s.cacheHit m = none → s.cacheFull m = false →
      (List.range 16).find? (fun r => s.on Reg.FAB_RING_CFG_VALID 0 r && s.rd Reg.FAB_RING_PEER_FTAG 0 r == m.ftag &&
        s.rd Reg.FAB_RING_PEER_PREV 0 r == m.src) = some ring →
      ((s.ringX ring).cur = none → exec (.coll k m true) s =
        .next (s.sendMsg (s.response m 0x18 1 0 []) (cornerDie k)).1) ∧
      (∀ c cur, (s.ringX ring).cur = some cur → serialDist m.aux cur = 0 → (s.ringX ring).cmd = some c → (s.ringX ring).status = none →
        c.op ≠ 3 → (s.ringX ring).step < c.steps (s.ringN ring) →
        m.addr ∉ chunkBlocks c.count (s.ringN ring) (c.due (s.ringN ring) (s.ringPos' ring) (s.ringX ring).step) →
        exec (.coll k m true) s =
          .next ((s.cachePut m (s.response m 0x18 9 0 [])).sendMsg (s.response m 0x18 9 0 []) (cornerDie k)).1) ∧
      (∀ c a, (s.ringX ring).cur = some m.aux → m.aux < 2 ^ 32 → (s.ringX ring).cmd = some c → (s.ringX ring).status = none →
        c.op = 2 → fmtBf c.outF = true → m.payload.length = 64 → (s.ringX ring).step + 1 = c.steps (s.ringN ring) →
        m.addr ∈ chunkBlocks c.count (s.ringN ring) (c.due (s.ringN ring) (s.ringPos' ring) (s.ringX ring).step) →
        m.addr ∉ (s.ringX ring).got → a = c.dst + m.addr * 64 → s.inWindow p a true = true → s.inWindow p (a + 63) true = true → s.ringReach ring a = true →
        s.tierPoison = [] → (∀ q ∈ tierPieces a 64, s.tierState (ctlOf q.1) ≠ 3) →
        ∃ t, exec (.coll k m true) s = .next t ∧ t.bytes a 64 = m.payload ∧ s.sameOutside t a 64)) ∧
    (∀ c st gb off, (s.ringX ring).cmd = some c → (s.ringX ring).status = some st → st < 256 → placeOf c.notify = .spad gb off →
      s.partOf gb = p → off % 32 = 0 → off + 32 ≤ 0x60000 → s.benchBlocks gb off 32 1 = false → s.ringReach ring c.notify = true →
      s.ringReach ring (s.slotAddr ring) = true → placeOf (s.slotAddr ring) = .tierA →
      s.slotAddr ring % 64 = 0 → s.tierState (ctlOf (s.slotAddr ring)) ≠ 3 → ∃ t, exec (.collComplete ring) s = .next t ∧
        (t.ringX ring).cmd = none ∧ t.rd Reg.FAB_RING_CFG_HEAD 0 ring = (s.rd Reg.FAB_RING_CFG_HEAD 0 ring + 1) % 64 ∧
        t.num (spadBase gb + off) 4 = c.cseq % 2 ^ 32 ∧ t.num (spadBase gb + off + 4) 1 = st ∧
        t.num (s.slotAddr ring) 1 = 0 ∧
        ∀ a, (a < spadBase gb + off ∨ spadBase gb + off + 32 ≤ a) → (a < s.slotAddr ring ∨ s.slotAddr ring + 64 ≤ a) →
          t.byte a = s.byte a)

/-- GO by the servitor or the physical function starts a whole or a partition load in COPY, and an unload of a valid partition in
QUIESCE; while a load runs another changes nothing of it. A good copy stands in the staging area; a CRC mismatch repeats once.
VERIFY and CHECK go on, or end the load with code and offset. QUIESCE ends once no tracker entry is held; its timeout frees
them. APPLY leaves the partition READY, or EMPTY after an unload, with its scratchpads and tags clear. The model's choices that
it rests on: assumption log 52, 53 and 54. (R382 (14_batch_image_and_partitions.md), R383 (14_batch_image_and_partitions.md),
R384 (14_batch_image_and_partitions.md), R385 (14_batch_image_and_partitions.md), R388 (14_batch_image_and_partitions.md), R391
(14_batch_image_and_partitions.md)) -/
def Obligations.BatchLoadsPassTheirStates : Prop :=
  (∀ (s : State) (agent part : Nat), part < 16 → (agent = 1 ∨ agent = 2) → s.rd Reg.BOOT_STATUS_MODE 0 ≠ 2 →
    (s.rd Reg.BATCH_STATUS_STATE 0 = 0 →
      (∃ (t : State) (x : LoadX), exec (.wholeLoad agent part) s = .next t ∧ t.load = some x ∧ x.op = 0 ∧ x.fn = 0 ∧
        t.rd Reg.BATCH_STATUS_STATE 0 = 1 ∧ t.mem = s.mem) ∧
      (∃ (t : State) (x : LoadX), exec (.partitionLoad agent part) s = .next t ∧ t.load = some x ∧ x.op = 1 ∧ x.part = part ∧
        t.rd Reg.BATCH_STATUS_STATE 0 = 1 ∧ t.mem = s.mem) ∧
      (s.on Reg.PART_CFG_VALID 0 part = true → ∃ (t : State) (x : LoadX), exec (.unload agent part) s = .next t ∧ t.load = some x ∧
        x.op = 2 ∧ x.part = part ∧ t.rd Reg.BATCH_STATUS_STATE 0 = 4 ∧ t.rd Reg.PART_STATUS_STATE 0 part = 1)) ∧
    (s.rd Reg.BATCH_STATUS_STATE 0 ≠ 0 → ∃ t, exec (.wholeLoad agent part) s = .next t ∧ t.load = s.load ∧ t.mem = s.mem)) ∧
  (∀ (s : State) (x : LoadX), s.load = some x →
    (s.rd Reg.BATCH_STATUS_STATE 0 = 1 →
      (∀ img, s.stageCut img.length = false → img.length = min (s.rd Reg.BATCH_LEN_LEN 0) (2 ^ 27) →
        (imgCrcOk img = true → ∃ t, exec (.batchCopyDone img false) s = .next t ∧ t.load = some { x with bytes := img } ∧
          t.rd Reg.BATCH_STATUS_STATE 0 = 2 ∧ t.bytes stagingBase img.length = img ∧ s.sameOutside t stagingBase img.length) ∧
        (imgCrcOk img = false → x.again = false → ∃ t, exec (.batchCopyDone img false) s = .next t ∧
          t.load = some { x with again := true } ∧ t.rd Reg.BATCH_STATUS_STATE 0 = 1)) ∧
      (∀ img, ∃ t, exec (.batchCopyDone img true) s = .next t ∧ t.load = none ∧ t.rd Reg.BATCH_STATUS_STATE 0 = 0 ∧
        t.rd Reg.BATCH_STATUS_RESULT 0 = 0x0D0D ∧ t.mem = s.mem)) ∧
    (s.rd Reg.BATCH_STATUS_STATE 0 = 2 →
      (s.verifyImage x.op x.part x.bytes = none → exec .batchVerifyDone s = .next (s.wr Reg.BATCH_STATUS_STATE 0 3)) ∧
      (∀ c o, s.verifyImage x.op x.part x.bytes = some (c, o) → ∃ t, exec .batchVerifyDone s = .next t ∧ t.load = none ∧
        t.rd Reg.BATCH_STATUS_STATE 0 = 0 ∧ t.rd Reg.BATCH_STATUS_RESULT 0 = c % 65536 ∧ t.mem = s.mem)) ∧
    (s.rd Reg.BATCH_STATUS_STATE 0 = 3 → ∀ vals i, i = imageOf x.bytes vals →
      (s.checkImage x.op x.part x.bytes i = none → ∃ t, exec (.batchCheckDone vals) s = .next t ∧
        t.rd Reg.BATCH_STATUS_STATE 0 = 4 ∧ t.load = some { x with img := some i, bytes := [] } ∧
        ∀ p ∈ s.loadParts x, p < 16 → t.rd Reg.PART_STATUS_STATE 0 p = 1) ∧
      (∀ c o, s.checkImage x.op x.part x.bytes i = some (c, o) → ∃ t, exec (.batchCheckDone vals) s = .next t ∧ t.load = none ∧
        t.rd Reg.BATCH_STATUS_STATE 0 = 0 ∧ t.rd Reg.BATCH_STATUS_RESULT 0 = c % 65536 ∧ t.mem = s.mem)) ∧
    (s.rd Reg.BATCH_STATUS_STATE 0 = 4 →
      (s.loadTracked x = false → exec .quiesceDone s = .next (s.wr Reg.BATCH_STATUS_STATE 0 5)) ∧
      (s.loadTracked x = true → exec .quiesceDone s = .next s) ∧
      (∃ t, exec .quiesceTimeout s = .next t ∧ t.rd Reg.BATCH_STATUS_STATE 0 = 4 ∧ t.mem = s.mem ∧
        ∀ y ∈ t.xfers, s.partOf y.gb ∉ s.loadParts x)) ∧
    (s.rd Reg.BATCH_STATUS_STATE 0 = 5 → s.rd Reg.PWR_STATUS_MODE 0 ≠ 2 → x.part < 16 → (x.op = 1 ∨ x.op = 2) →
      (x.img = none ↔ x.op = 2) → ∃ t, exec (.applyDone []) s = .next t ∧ t.load = none ∧ t.rd Reg.BATCH_STATUS_STATE 0 = 0 ∧
        t.rd Reg.BATCH_STATUS_RESULT 0 = 0 ∧ t.rd Reg.PART_STATUS_STATE 0 x.part = (if x.op = 2 then 0 else 2) ∧
        t.partGen.get 0 x.part = (s.partGen.get 0 x.part + 1) % 2 ^ 32 ∧
        ∀ gb, gb < 2560 → s.partOf gb = x.part → (∀ a, spadBase gb ≤ a → a < spadBase gb + 0x60000 → t.byte a = 0#8) ∧
          (∀ slot, slot < 384 → t.tag gb slot = false)))

/-- A rack cap is in force unless an accepted fabric cap is lower; a lease's expiry sets the fallback and MGR_LOST. A point change
ends at its point and voltage, and each comparison unit settles. A tick passes 100 us and lets no live die faster than its
limits. A duty window gives every live die one duty. The first lost phase slows its die to P3, the third fences it. P0 held too
long is barred; a minute's P0 time enters the store. The model's choices that it rests on: assumption log 62 (D of a duty
window), 67 and 68. (R467 (18_power_and_thermal.md), R468 (18_power_and_thermal.md), R466 (18_power_and_thermal.md), R471
(18_power_and_thermal.md), R475 (18_power_and_thermal.md), R481 (18_power_and_thermal.md), R488 (18_power_and_thermal.md), R489
(18_power_and_thermal.md), R578 (22_module_hardware.md)) -/
def Obligations.CapsAndOperatingPoints : Prop :=
  ∀ (s : State),
    (∀ w, ∃ t, exec (.deviceCap w) s = .next t ∧ t.rackCap = some (min w 4200) ∧ t.on Reg.PWR_STATUS_MGR_LOST 0 = false ∧
      t.mem = s.mem ∧
      ((s.on Reg.PWR_CAP_FAB_CAP 0 = false ∨ s.fabCap = none) →
        t.rd Reg.PWR_CAP_CAP_W 0 = min w 4200 ∧ t.rd Reg.PWR_CAP_SOURCE 0 = 1) ∧
      (∀ f, s.on Reg.PWR_CAP_FAB_CAP 0 = true → s.fabCap = some f → f < min w 4200 →
        t.rd Reg.PWR_CAP_CAP_W 0 = f ∧ t.rd Reg.PWR_CAP_SOURCE 0 = 2)) ∧
    (∀ n, n < 256 → exec (.capLease n) s = .next (s.wr Reg.PWR_CAP_LEASE_S 0 n)) ∧
    (∀ w, ∃ t, exec (.fallback w) s = .next t ∧ t.rd Reg.PWR_FALLBACK_FALLBACK_W 0 = min w 4200 ∧
      (s.rackCap = none → t.rd Reg.PWR_CAP_CAP_W 0 = min w 4200 ∧ t.rd Reg.PWR_CAP_SOURCE 0 = 0)) ∧
    (∀ v, (v = 1 ∨ v = 2) → ∃ t, exec (.fabCap v) s = .next t ∧ t.on Reg.PWR_CAP_FAB_CAP 0 = decide (v = 1) ∧ t.mem = s.mem) ∧
    (s.rd Reg.PWR_CAP_LEASE_S 0 ≠ 0 → s.on Reg.PWR_STATUS_MGR_LOST 0 = false → ∃ t, exec .leaseExpiry s = .next t ∧
      t.on Reg.PWR_STATUS_MGR_LOST 0 = true ∧ t.rackCap = none ∧ t.rd Reg.PWR_CAP_SOURCE 0 = 0 ∧
      t.rd Reg.PWR_CAP_CAP_W 0 = min (s.rd Reg.PWR_FALLBACK_FALLBACK_W 0) 4200 ∧ t.rd Reg.PWR_STATUS_LAST_FAULT 0 = 0x0E03) ∧
    (∀ die p, die < 16 → p < 8 → (s.die die).change = some p → s.dieFenced die = false → ∃ t, exec (.pointChangeDone die) s = .next t ∧
      t.point die = p ∧ t.rd Reg.VR_RAIL_VSET 0 die = pointMv p ∧ (t.die die).change = none ∧ t.mem = s.mem ∧
      ∀ gb, gb / 160 = die → t.rd Reg.PAR_STATUS_SETTLE_LEFT gb = 2) ∧
    (∀ env, ∃ t, exec (.controllerTick env) s = .next t ∧ t.timeNs = s.timeNs + 100000 ∧ t.mem = s.mem ∧
      t.rd Reg.PWR_INPUT_INPUT_W 0 = env.input % 65536 ∧
      ∀ d ∈ s.liveDies, (s.die d).ramp ≤ 7 → (s.die d).softCap ≤ 7 → s.rd Reg.PWR_DIE_CFG_MAX_POINT 0 d ≤ 7 →
        s.rd Reg.PWR_DIE_CFG_MAX_POINT 0 d ≤ t.rd Reg.PWR_DIE_STATUS_MAX_EFF 0 d ∧
        (s.die d).softCap ≤ t.rd Reg.PWR_DIE_STATUS_MAX_EFF 0 d ∧
        (s.rd Reg.THERM_STATUS_STATE 0 d = 2 → t.rd Reg.PWR_DIE_STATUS_MAX_EFF 0 d = 7)) ∧
    (∀ avg, s.rd Reg.PWR_STATUS_MODE 0 = 1 → ∃ (t : State) (n : Nat), exec (.dutyWindow avg) s = .next t ∧ t.mem = s.mem ∧ 1 ≤ n ∧ n ≤ 64 ∧
      ∀ d ∈ s.liveDies, t.rd Reg.PWR_DIE_STATUS_DUTY 0 d = n) ∧
    (∀ die phase r r', die < 16 → phase < 12 → (s.rd Reg.VR_PHASES_LOST 0 die).testBit phase = false → s.dieFenced die = false →
      (phaseFails (s.rd Reg.VR_PHASES_OK 0 die) r = false → ∃ t, exec (.phaseTest die phase r r') s = .next t ∧
        t.rd Reg.VR_PHASES_LOST 0 die = s.rd Reg.VR_PHASES_LOST 0 die ∧ t.mem = s.mem) ∧
      (phaseFails (s.rd Reg.VR_PHASES_OK 0 die) r = true → phaseFails (s.rd Reg.VR_PHASES_OK 0 die) r' = true →
        (s.rd Reg.VR_PHASES_LOSSES 0 die = 0 → ∃ t, exec (.phaseTest die phase r r') s = .next t ∧
          t.point die = max (s.point die) 3 ∧ t.rd Reg.VR_PHASES_LOSSES 0 die = 1 ∧ t.rd Reg.PWR_STATUS_LAST_FAULT 0 = 0x0E04 ∧
          (t.rd Reg.VR_PHASES_LOST 0 die).testBit phase = true) ∧
        (s.rd Reg.VR_PHASES_LOSSES 0 die = 2 → ∃ t, exec (.phaseTest die phase r r') s = .next t ∧ t.dieFenced die = true ∧
          t.rd Reg.VR_RAIL_VSET 0 die = 0 ∧ t.rd Reg.PWR_STATUS_LAST_FAULT 0 = 0x0E06 ∧
          ∀ gb, gb / 160 = die → t.clockOff.get false gb = true))) ∧
    (∀ die, die < 16 → s.point die = 0 → 200 ≤ (s.die die).p0Ticks → ∃ t, exec (.p0ResidencyLimit die) s = .next t ∧
      (t.die die).change = some 1 ∧ t.on Reg.PWR_DIE_STATUS_P0_BARRED 0 die = true ∧ t.mem = s.mem) ∧
    (∃ t, exec .p0MinuteTick s = .next t ∧ t.mem = s.mem ∧ ∀ d, d < 16 → (t.die d).minute = 0 ∧
      (t.die d).bins = ((s.die d).minute :: (s.die d).bins).take 1440)

/-- At 95 degrees the soft limit rises one point; at 105 a furnace die enters lehr at P7; at 115 a die trips, is latched, and a
furnace die is fenced with its clocks stopped while a port die takes its canes down. Lehr ends at 90. Only the gaffer clears a
latch, on a cool die. A die whose sensors are all ignored is blind. An inlet above 40 is reported once. Telemetry publishes the
barrier wait fraction and the sensors. The model's choices that it rests on: assumption log 60 and 68. (R483
(18_power_and_thermal.md), R484 (18_power_and_thermal.md), R485 (18_power_and_thermal.md), R486 (18_power_and_thermal.md), R487
(18_power_and_thermal.md), R490 (18_power_and_thermal.md)) -/
def Obligations.TemperatureLimitsAndFences : Prop :=
  ∀ (s : State) (die temp : Nat), die < 25 → temp < 4096 →
    (380 ≤ temp → ∃ t, exec (.softThrottle die temp) s = .next t ∧ (t.die die).soft = true ∧ t.mem = s.mem ∧
      t.rd Reg.THERM_STATUS_TEMP 0 die = temp ∧
      (die < 16 → (t.die die).softCap = min 7 (max (s.die die).softCap (s.point die) + 1) ∧
        (s.rd Reg.THERM_STATUS_STATE 0 die ≤ 1 → t.rd Reg.THERM_STATUS_STATE 0 die = 1))) ∧
    (temp < 420 → exec (.hardThrottle die temp) s = .next (s.wr Reg.THERM_STATUS_TEMP 0 temp die)) ∧
    (420 ≤ temp → s.rd Reg.THERM_STATUS_STATE 0 die ≠ 2 → s.rd Reg.THERM_STATUS_STATE 0 die ≠ 3 →
      ∃ t, exec (.hardThrottle die temp) s = .next t ∧ t.rd Reg.THERM_STATUS_LAST_FAULT 0 die = 0x0E21 ∧ t.mem = s.mem ∧
        (die < 16 → t.rd Reg.THERM_STATUS_STATE 0 die = 2 ∧ t.point die = max (s.point die) 7)) ∧
    (460 ≤ temp → s.on Reg.THERM_STATUS_TRIP_LATCH 0 die = false → ∃ t, exec (.thermalTrip die temp) s = .next t ∧
      t.on Reg.THERM_STATUS_TRIP_LATCH 0 die = true ∧ t.rd Reg.THERM_STATUS_STATE 0 die = 3 ∧ t.mem = s.mem ∧
      (die < 16 → t.dieFenced die = true ∧ ∀ gb, gb / 160 = die → t.clockOff.get false gb = true) ∧
      (∀ c, 16 ≤ die → die < 20 → c / 9 = die - 16 → s.caneState c = 3 → t.caneState c = 5)) ∧
    (die < 16 → temp ≤ 360 → s.rd Reg.THERM_STATUS_STATE 0 die = 2 → ∃ t, exec (.lehrExit die temp) s = .next t ∧
      t.rd Reg.THERM_STATUS_STATE 0 die = (if (s.die die).soft || (s.die die).softCap != 0 then 1 else 0) ∧
      (t.die die).ramp = 7 ∧ t.rd Reg.THERM_STATUS_LAST_FAULT 0 die = 0x0E23 ∧ t.mem = s.mem) ∧
    (s.rd Reg.THERM_SEL_DIE 0 = die →
      (s.rd Reg.THERM_STATUS_TEMP 0 die ≤ 360 → exec (.clearTrip 0) s = .next (s.flag Reg.THERM_STATUS_TRIP_LATCH 0 false die)) ∧
      (360 < s.rd Reg.THERM_STATUS_TEMP 0 die → exec (.clearTrip 0) s = .next s) ∧
      (∀ agent, agent ≠ 0 → ∃ t, exec (.clearTrip agent) s = .next t ∧
        t.on Reg.THERM_STATUS_TRIP_LATCH 0 die = s.on Reg.THERM_STATUS_TRIP_LATCH 0 die)) ∧
    (∀ rs : List Int, rs.length = (if die < 16 then 8 else 2) → s.rd Reg.THERM_STATUS_STATE 0 die < 3 →
      ((∀ k, k < rs.length → sensorBad rs k = false) → ∃ t, exec (.sensorIgnored die rs) s = .next t ∧ t.mem = s.mem ∧
        t.rd Reg.THERM_SENSOR_BAD 0 die = 0 ∧ ∀ k, k < rs.length → (rs.getD k 0).toNat ≤ t.rd Reg.THERM_STATUS_TEMP 0 die) ∧
      ((∀ k, k < rs.length → sensorBad rs k = true) → ∃ t, exec (.sensorIgnored die rs) s = .next t ∧ t.mem = s.mem ∧
        t.rd Reg.THERM_SENSOR_BAD 0 die = 2 ^ rs.length - 1 ∧
        t.rd Reg.THERM_STATUS_STATE 0 die = (if die < 16 then 4 else 3))) ∧
    (∀ outlet, outlet < 4096 → ∃ t, exec (.coolantInletHigh temp outlet) s = .next t ∧ t.rd Reg.THERM_COOLANT_INLET 0 = temp ∧
      t.rd Reg.THERM_COOLANT_OUTLET 0 = outlet ∧ t.inletHigh = decide (160 < temp) ∧ t.mem = s.mem ∧
      (160 < temp → s.inletHigh = false → t.rd Reg.THERM_STATUS_LAST_FAULT 0 24 = 0x0E25)) ∧
    (∀ waited running crossed, 0 < running → ∃ t vs, exec (.telemetryPublish waited running crossed) s = .next t ∧
      t.rd Reg.PWR_BAR_WAIT_FRACTION 0 = min 1023 (waited * 1024 / running) ∧ t.outbox = .sensors vs :: s.outbox ∧
      (9, min 1023 (waited * 1024 / running)) ∈ vs ∧ t.mem = s.mem)

/-- A request on a READY device in IDLE starts DRAIN, and in DRAIN cancels; a forced one, the end of the grace and an opened latch
stop the partitions' benches; empty partitions end STOP; LEAVE ends in SAFE with rails and canes off. An input out of range, an
open switch, its return, low flow and a bus fault set their flags. ENTDAA, SET_ENDPOINT_ID, IDENTIFY and the event poll do their
work. The model's choices that it rests on: assumption log 59 and 70. (R538 (20_faults_and_service.md), R539
(20_faults_and_service.md), R540 (20_faults_and_service.md), R569 (22_module_hardware.md), R575 (22_module_hardware.md), R577
(22_module_hardware.md), R578 (22_module_hardware.md), R581 (22_module_hardware.md)) -/
def Obligations.ModuleEventsAndWithdraw : Prop :=
  ∀ (s : State),
    (∀ c, (c = .withdrawButton true ∨ c = .withdrawReq 1 ∨ c = .withdrawReq 2 ∨ c = .withdraw 1) →
      (s.rd Reg.FLT_WD_STATUS_STATE 0 = 0 → s.ready = true → ∃ t, exec c s = .next t ∧ t.rd Reg.FLT_WD_STATUS_STATE 0 = 1 ∧
        t.rd Reg.MOD_STATUS_LAST_FAULT 0 = 0x1101 ∧ t.rd Reg.FLT_WD_STATUS_GRACE_LEFT 0 = min 2047 (s.rd Reg.FLT_WD_CFG_GRACE_S 0) ∧
        t.mem = s.mem) ∧
      (s.rd Reg.FLT_WD_STATUS_STATE 0 = 1 → ∃ t, exec c s = .next t ∧ t.rd Reg.FLT_WD_STATUS_STATE 0 = 0 ∧
        t.rd Reg.MOD_STATUS_LAST_FAULT 0 = 0x1102 ∧ t.mem = s.mem)) ∧
    (exec (.withdrawButton false) s = .next (s.flag Reg.MOD_STATUS_BUTTON 0 false)) ∧
    (∀ c, (c = .withdrawForced ∨ c = .graceExpiry ∨ c = .latchOpen false) → (c = .graceExpiry ∨ s.ready = true) →
      (if c = .graceExpiry then s.rd Reg.FLT_WD_STATUS_STATE 0 = 1 else s.rd Reg.FLT_WD_STATUS_STATE 0 < 2) →
      (c = .latchOpen false → s.on Reg.FLT_WD_STATUS_LATCH 0 = true) → ∃ t, exec c s = .next t ∧ t.rd Reg.FLT_WD_STATUS_STATE 0 = 2 ∧
        t.rd Reg.FLT_WD_STATUS_GRACE_LEFT 0 = 0 ∧ t.mem = s.mem ∧ (c = .latchOpen false → t.on Reg.FLT_WD_STATUS_LATCH 0 = false) ∧
        ∀ gb, gb < 2560 → s.partOf gb < 16 → 2 ≤ s.rd Reg.PART_STATUS_STATE 0 (s.partOf gb) → t.seqState gb ≠ .run) ∧
    (exec (.latchOpen true) s = .next ((s.flag Reg.FLT_WD_STATUS_LATCH 0 true).flag Reg.MOD_STATUS_LATCH 0 true)) ∧
    ((s.rd Reg.FLT_WD_STATUS_STATE 0 = 1 ∨ s.rd Reg.FLT_WD_STATUS_STATE 0 = 2) → (∀ p, p < 16 → s.rd Reg.PART_STATUS_STATE 0 p = 0) →
      ∃ t, exec .withdrawStopDone s = .next t ∧ t.rd Reg.FLT_WD_STATUS_STATE 0 = 3 ∧ t.mem = s.mem) ∧
    (∀ b, s.rd Reg.FLT_WD_STATUS_STATE 0 = 3 → (b = true ∨ s.txns = []) → ∃ t, exec (.leaveDone b) s = .next t ∧
      t.rd Reg.FLT_WD_STATUS_STATE 0 = 4 ∧ t.wdFlag = true ∧ t.rd Reg.MOD_STATUS_LAST_FAULT 0 = 0x1104 ∧
      (∀ c, c < 36 → t.caneState c = 0) ∧ (∀ gb, gb < 2560 → t.clockOff.get false gb = true) ∧
      ∀ d, d < 16 → t.rd Reg.VR_RAIL_VSET 0 d = 0) ∧
    (∀ v,
      (vinOk v = false → s.vinOut = false → ∃ t, exec (.vinOutOfRange v) s = .next t ∧ t.vinOut = true ∧
        t.on Reg.MOD_STATUS_VIN_OK 0 = false ∧ t.rd Reg.MOD_STATUS_LAST_FAULT 0 = 0x1110 ∧ t.mem = s.mem) ∧
      (vinOk v = true → ∃ t, exec (.vinReturn v) s = .next t ∧ t.swOpen = false ∧ t.vinOut = false ∧
        t.on Reg.MOD_STATUS_VIN_OK 0 = true ∧ t.mem = s.mem) ∧
      (v < 4400 → ∃ t, exec (.hotSwapOpen v) s = .next t ∧ t.swOpen = true ∧ t.restart = some (false, 0) ∧
        t.on Reg.MOD_STATUS_MGMT_ADDR 0 = false ∧ t.mem = s.mem ∧ ∀ gb, gb < 2560 → t.clockOff.get false gb = true)) ∧
    (∀ f, f < 65536 →
      (f < 300 → s.flowLow = false → ∃ t, exec (.coolantFlowLow f) s = .next t ∧ t.flowLow = true ∧
        t.on Reg.MOD_STATUS_FLOW_OK 0 = false ∧ t.rd Reg.MOD_STATUS_LAST_FAULT 0 = 0x1111 ∧ t.rd Reg.MOD_COOLANT_FLOW 0 = f) ∧
      (350 ≤ f → ∃ t, exec (.coolantFlowLow f) s = .next t ∧ t.flowLow = false ∧ t.on Reg.MOD_STATUS_FLOW_OK 0 = true)) ∧
    (∀ b, ∃ t, exec (.mgmtBusFault b) s = .next t ∧ t.on Reg.MOD_STATUS_MGMT_ADDR 0 = false ∧ t.rd Reg.MOD_MGMT_DADDR 0 = 0 ∧
      t.rd Reg.MOD_STATUS_LAST_FAULT 0 = 0x1112 ∧ t.mem = s.mem) ∧
    (∀ a, a < 128 → s.on Reg.MOD_STATUS_MGMT_ADDR 0 = false → ∃ t, exec (.entdaa a) s = .next t ∧
      t.on Reg.MOD_STATUS_MGMT_ADDR 0 = true ∧ t.rd Reg.MOD_MGMT_DADDR 0 = a) ∧
    (∀ e, e < 256 → exec (.setEndpointId e) s = .next (s.wr Reg.MOD_MGMT_EID 0 e)) ∧
    (∀ v, (v = 1 ∨ v = 2) → exec (.identify v) s = .next (s.flag Reg.MOD_LED_IDENTIFY 0 (decide (v = 1)))) ∧
    (∀ e r, s.pldmEvents = e :: r →
      exec .pollForPlatformEventMessage s = .next (({ s with pldmEvents := r } : State).emit (.pldmEvent e.1 e.2)))

/-- WARM, COLD and the other requests make a restart due with their cause and end a load; CLEAR_SAFE clears the counts. A cold start
leaves memory empty and every bench unassigned and IDLE; a warm one clears every partition. S8 waits for a location or its
timeout, and ends when every cane has come to rest. A step at its limit fails, and the start ends. The heartbeat's end restarts
the servitor, at the third time holds it. The model's choices that it rests on: assumption log 4 (memory after a cold start) and
69. (R512 (19_gaffer_servitor_boot.md), R513 (19_gaffer_servitor_boot.md), R516 (19_gaffer_servitor_boot.md), R499
(19_gaffer_servitor_boot.md), R500 (19_gaffer_servitor_boot.md), R515 (19_gaffer_servitor_boot.md), R510
(19_gaffer_servitor_boot.md), R580 (22_module_hardware.md)) -/
def Obligations.StartsAndRestarts : Prop :=
  ∀ (s : State),
    (∀ agent, (agent = 0 ∨ agent = 2) → exec (.warm agent) s = .next { s with restart := some (true, 2), load := none } ∧
      exec (.cold agent) s = .next { s with restart := some (false, 1), load := none } ∧
      ∃ t, exec (.clearSafe agent) s = .next t ∧ t.restart = s.restart ∧ t.mem = s.mem ∧
        ∀ j, j < 12 → t.rd Reg.BOOT_STEP_FAILS 0 j = 0) ∧
    (∀ agent, agent ≠ 0 → agent ≠ 2 → exec (.warm agent) s = .next s ∧ exec (.cold agent) s = .next s) ∧
    exec .restartWarm s = .next { s with restart := some (true, 6), load := none } ∧
    exec .restartCold s = .next { s with restart := some (false, 5), load := none } ∧
    exec (.recoveryRestart 0) s = .next { s with restart := some (true, 6), load := none } ∧
    (s.rd Reg.BOOT_STATUS_MODE 0 = 3 → s.on Reg.BOOT_POLICY_AUTO_RESTART 0 = true →
      exec .failureRestart s = .next { s with restart := some (true, 3), load := none }) ∧
    (s.rd Reg.BOOT_STATUS_MODE 0 ≠ 0 → exec .gafferWdt s = .next { s with restart := some (true, 4), load := none }) ∧
    (∀ env cause, s.swOpen = false → (s.restart = some (false, cause) ∨ (s.restart = none ∧ cause = 0)) →
      ∃ t, exec (.coldStart env) s = .next t ∧ t.restart = none ∧ t.mem = [] ∧ t.owner = [] ∧
        t.rd Reg.BOOT_STATUS_CAUSE 0 = cause % 16 ∧ t.on Reg.BOOT_STATUS_WARM 0 = false ∧ t.tags = [] ∧
        ∀ gb, gb < 2560 → t.seqState gb = .idle) ∧
    (∀ env cause, s.swOpen = false → s.restart = some (true, cause) → s.rd Reg.FLT_WD_STATUS_STATE 0 ≠ 4 → env.ledgerBad < 2 →
      ∃ t, exec (.warmRestart env) s = .next t ∧ t.restart = none ∧ t.load = none ∧ t.owner = [] ∧
        t.rd Reg.BOOT_STATUS_CAUSE 0 = cause % 16 ∧ t.on Reg.BOOT_STATUS_WARM 0 = true ∧
        (∀ p, p < 16 → t.rd Reg.PART_STATUS_STATE 0 p = 0) ∧ ∀ gb, gb < 2560 → t.seqState gb = .idle) ∧
    (s.inS8 = true →
      (s.s8Wait = true → ∃ t, exec .locWaitTimeout s = .next t ∧ t.s8Wait = false ∧ t.rd Reg.BOOT_STATUS_LAST_FAULT 0 = 0x0F06 ∧
        t.mem = s.mem ∧ ∀ c, c < 36 → s.caneState c ≠ 3 → s.caneState c ≠ 2 → t.caneState c = 1 ∨ t.caneState c = 5) ∧
      (∀ id, id < 512 → s.s8Wait = true → s.on Reg.DEV_LOCATION_VALID 0 = false → ∃ t, exec (.location id) s = .next t ∧
        t.on Reg.DEV_LOCATION_VALID 0 = true ∧ t.devId = id ∧ t.s8Wait = false ∧ t.outbox.head? = some (.pldm 0)) ∧
      (∀ env, s.s8Wait = false → (∀ c, c < 36 → s.caneState c ≠ 0 ∧ s.caneState c ≠ 1 ∧ s.caneState c ≠ 4) →
        ∃ t, exec (.caneTrainingDone env) s = .next t ∧ 9 ≤ t.rd Reg.BOOT_STATUS_STEP 0 ∧ t.rd Reg.BOOT_STEP_OUTCOME 0 8 =
          (if ((List.range 36).all (fun c => s.caneState c == 3) && s.on Reg.DEV_LOCATION_VALID 0) = true then 1 else 2))) ∧
    (∀ id, id < 512 → s.on Reg.DEV_LOCATION_VALID 0 = true →
      exec (.location id) s = .next (s.emit (.pldm (if id = s.devId then 0 else 2)))) ∧
    (∀ j, j < 11 → j ≠ 8 → s.atStep j = true → ∃ t, exec .bootStepLimit s = .next t ∧ t.rd Reg.BOOT_STEP_OUTCOME 0 j = 3 ∧
      t.rd Reg.BOOT_STATUS_MODE 0 ≠ 0 ∧ t.mem = s.mem) ∧
    (∀ v, exec (.bootHeartbeat 1 v) s = .next (s.wr Reg.BOOT_HEARTBEAT_COUNT 0 v)) ∧
    (s.rd Reg.BOOT_STATUS_MODE 0 = 1 → s.on Reg.BOOT_FW_S_HELD 0 = false → ∀ n,
      n = (s.svRestarts.filter (fun t => s.timeNs < t + 3600000000000)).length → ∃ t, exec .heartbeatTimeout s = .next t ∧
        t.rd Reg.BOOT_STATUS_LAST_FAULT 0 = (if 2 ≤ n then 0x0F13 else 0x0F12) ∧ t.on Reg.BOOT_FW_S_HELD 0 = decide (2 ≤ n))

/-- A mailbox load or unload starts for its function. A key command, allowed, stores COUNTER and its key, revocation or minimum and
no other, and refused changes no key, minimum or counter; both end with their RESULT. An image of the length asked for passes through
the staging area: a good one enters the inactive bank, pending, a bad one none. Reports, certificates, ledger and telemetry answer
in the buffer with CMD, LEN and payload. Recovery reads send what they name; a firmware piece is kept in safe mode alone. A ring
interrupt signals while HEAD differs from TAIL; TAIL takes a value that leaves no more than the ring unread. The model's choices
that it rests on: assumption log 64 (payload layouts). (R562 (21_host_interface.md), R503 (19_gaffer_servitor_boot.md), R504
(19_gaffer_servitor_boot.md), R507 (19_gaffer_servitor_boot.md), R505 (19_gaffer_servitor_boot.md), R509
(19_gaffer_servitor_boot.md), R529 (20_faults_and_service.md), R530 (20_faults_and_service.md), R580 (22_module_hardware.md)) -/
def Obligations.MailboxKeysImagesAndRings : Prop :=
  ∀ (s : State) (fn : Nat), fn < 17 →
    (s.load = none → s.rd Reg.BOOT_STATUS_MODE 0 ≠ 2 → s.rd Reg.BATCH_STATUS_STATE 0 = 0 →
      (s.asked fn 1 = true → ∃ (t : State) (x : LoadX), exec (.mboxPartitionLoad fn) s = .next t ∧ t.load = some x ∧ x.op = 1 ∧ x.fn = fn ∧
        x.part = s.askedPart fn 20 ∧ x.mbox = true ∧ t.rd Reg.BATCH_STATUS_STATE 0 = 1 ∧ t.mem = s.mem) ∧
      (∀ p, s.asked fn 2 = true → s.askedPart fn 8 = p → p < 16 → s.on Reg.PART_CFG_VALID 0 p = true → ∃ (t : State) (x : LoadX),
        exec (.mboxPartitionUnload fn) s = .next t ∧ t.load = some x ∧ x.op = 2 ∧ x.part = p ∧ x.mbox = true ∧
        t.rd Reg.BATCH_STATUS_STATE 0 = 4 ∧ t.rd Reg.PART_STATUS_STATE 0 p = 1)) ∧
    (s.asked 0 3 = true → s.rd Reg.BATCH_STATUS_STATE 0 = 0 →
      (∀ c, ((c = .keyInstall ∧ s.keyOp = 0) ∨ (c = .keyRevoke ∧ s.keyOp = 1) ∨ (c = .keyRaiseMinimum ∧ s.keyOp = 2)) →
        ∃ t, exec c s = .next t ∧ t.mem = s.mem ∧ t.on Reg.HOST_MBOX_STATUS_BUSY 0 = false ∧ t.on Reg.HOST_MBOX_STATUS_DONE 0 = true ∧
          (∀ k, k ≠ s.keySlot → t.keys.get 0 k = s.keys.get 0 k ∧ t.keyMin.get 0 k = s.keyMin.get 0 k) ∧
          ((s.keyCommon && s.keyAllowed) = true → t.keyCounter = s.keyField 20 4 ∧ t.rd Reg.HOST_MBOX_STATUS_RESULT 0 = 0 ∧
            t.keys.get 0 s.keySlot = (if s.keyOp = 0 then s.newKey + 1 else if s.keyOp = 1 then 0 else s.keys.get 0 s.keySlot) ∧
            t.keyMin.get 0 s.keySlot = (if s.keyOp = 2 then s.keyField 24 4 else s.keyMin.get 0 s.keySlot)) ∧
          ((s.keyCommon && s.keyAllowed) = false → t.keys = s.keys ∧ t.keyMin = s.keyMin ∧ t.keyCounter = s.keyCounter ∧
            t.rd Reg.HOST_MBOX_STATUS_RESULT 0 = 0x0F21))) ∧
    (∀ img kind, s.asked 0 6 = true → s.rd Reg.BATCH_STATUS_STATE 0 = 0 → img.length = s.mboxField 0 16 4 → s.stageCut img.length = false →
      kind = imgField img 4 1 → ∃ t, exec (.fwUpdate img) s = .next t ∧ t.bytes stagingBase img.length = img ∧
        s.sameOutside t stagingBase img.length ∧ t.activeBank = s.activeBank ∧ t.on Reg.HOST_MBOX_STATUS_DONE 0 = true ∧
        (s.fwImageOk img = true → t.on (fwPend kind) 0 = true ∧ t.rd Reg.HOST_MBOX_STATUS_RESULT 0 = 0 ∧
          (t.bank kind (1 - s.activeBank.get 0 kind)).full = true ∧
          (t.bank kind (1 - s.activeBank.get 0 kind)).svn = imgField img 6 2 ∧
          (t.bank kind (1 - s.activeBank.get 0 kind)).version = imgField img 8 4 ∧
          ∀ k, k ≠ 2 * kind + (1 - s.activeBank.get 0 kind) → t.banks.get {} k = s.banks.get {} k) ∧
        (s.fwImageOk img = false → t.banks = s.banks ∧ t.rd Reg.HOST_MBOX_STATUS_RESULT 0 = 0x0F10)) ∧
    (s.asked fn 4 = true → ∀ b, b = s.attestation fn ((((s.mboxOf fn).drop 8).take 32) ++
        List.replicate (32 - ((s.mboxOf fn).drop 8).length) 0#8) → ∃ t, exec (.attestation fn) s = .next t ∧
      s.answered t fn 4 (b ++ digestBytes (Config.attestSign (Config.sha384 b)) 96)) ∧
    (s.asked fn 5 = true → ∃ t, exec (.certChain fn) s = .next t ∧ s.answered t fn 5 (certPiece (s.mboxField fn 8 4))) ∧
    (s.asked 0 7 = true → ∀ p, p = ((s.ledger[s.mboxField 0 8 4]?).map LedgerEnt.bytes).getD (List.replicate 64 0#8) ++
        (upFrom (s.mboxField 0 12 4) 125).flatMap s.logBytes → p.length ≤ 4088 → ∃ t, exec .ledgerRead s = .next t ∧ s.answered t 0 7 p) ∧
    (∀ bs, s.asked fn 8 = true → bs.length ≤ 4088 → ∃ t, exec (.telemetrySnapshot fn bs) s = .next t ∧ s.answered t fn 8 bs) ∧
    (∀ n, exec (.recoveryLedgerRead n) s = .next (s.emit (.mctp ((s.ledger[n]?.map LedgerEnt.bytes).getD []))) ∧
      exec (.recoveryFaultRead n) s = .next (s.emit (.mctp (s.logBytes n))) ∧
      exec (.recoveryKeyRead n) s = .next (s.emit (.mctp (leBytes 1 s.keyMask ++
        (List.range 8).flatMap (fun k => leBytes 4 (s.keyMin.get 0 k)) ++ certPiece n)))) ∧
    (∀ offset data, data.length ≤ 48 → offset + data.length < 168 →
      (s.rd Reg.BOOT_STATUS_MODE 0 ≠ 2 → exec (.recoveryFwPiece offset data) s = .next s) ∧
      (s.rd Reg.BOOT_STATUS_MODE 0 = 2 → ∃ t, exec (.recoveryFwPiece offset data) s = .next t ∧ t.banks = s.banks ∧ t.mem = s.mem ∧
        t.regs = s.regs ∧ (∀ k, k < data.length → t.fwPieces.get 0#8 (offset + k) = data.getD k 0#8) ∧
        ∀ k, (k < offset ∨ offset + data.length ≤ k) → t.fwPieces.get 0#8 k = s.fwPieces.get 0#8 k)) ∧
    (s.on Reg.FLT_RING_CFG_ENABLE 0 fn = true → s.rd Reg.FLT_RING_HEAD_HEAD 0 fn ≠ s.rd Reg.FLT_RING_TAIL_TAIL 0 fn →
      exec (.ringInterrupt fn) s = .next (s.signal fn (s.rd Reg.FLT_RING_CFG_VECTOR 0 fn))) ∧
    ((s.on Reg.FLT_RING_CFG_ENABLE 0 fn = false ∨ s.rd Reg.FLT_RING_HEAD_HEAD 0 fn = s.rd Reg.FLT_RING_TAIL_TAIL 0 fn) →
      exec (.ringInterrupt fn) s = .next s) ∧
    (∀ agent value, reachesRing agent fn = true → value < 65536 →
      ((s.rd Reg.FLT_RING_HEAD_HEAD 0 fn + 65536 - value) % 65536 ≤ s.ringSize fn →
        exec (.fltRingTailWrite agent fn value) s = .next (s.wr Reg.FLT_RING_TAIL_TAIL 0 value fn)) ∧
      (s.ringSize fn < (s.rd Reg.FLT_RING_HEAD_HEAD 0 fn + 65536 - value) % 65536 →
        exec (.fltRingTailWrite agent fn value) s = .next s))

/-- A doorbell within a running queue moves its index; one out of range puts it in ERROR. Enabling starts a queue afresh. An entry
is fetched in order. A copy moves its bytes, COPY_IN into a tier or a scratchpad and nowhere else, COPY_OUT to the host. START runs
every selected bench or none; HALT drains the running ones, WAIT waits, ABORT halts those in DRAIN or at rest in FAULT. A command
that has ended leaves its entry at the tail of the completion queue. A link loss or a reset turns queues OFF and drops their
commands; a link that trains is UP. The model's choices that it rests on: assumption log 65 and 72. (R556
(21_host_interface.md), R557 (21_host_interface.md), R558 (21_host_interface.md), R559 (21_host_interface.md), R560
(21_host_interface.md), R548 (21_host_interface.md), R563 (21_host_interface.md), R546 (21_host_interface.md)) -/
def Obligations.HostQueuesAndTheirCommands : Prop :=
  ∀ (s : State) (fn q : Nat), fn < 17 → q < 4 →
    (∀ v, s.on Reg.HOST_Q_CFG_ENABLE fn q = true → s.qState fn q ≠ 2 →
      (v < s.qSize fn q → exec (.sqDoorbell fn q v) s = .next (s.setQueue fn q { s.queue fn q with tail := v })) ∧
      (s.qSize fn q ≤ v → ∃ t, exec (.sqDoorbell fn q v) s = .next t ∧ t.qState fn q = 2 ∧ t.queue fn q = s.queue fn q) ∧
      (v < s.qSize fn q → (v + s.qSize fn q - (s.queue fn q).head) % s.qSize fn q ≤
          (s.rd Reg.HOST_Q_STATUS_CQ_TAIL fn q + s.qSize fn q - (s.queue fn q).head) % s.qSize fn q →
        exec (.cqDoorbell fn q v) s = .next (s.setQueue fn q { s.queue fn q with head := v })) ∧
      ((s.qSize fn q ≤ v ∨ (s.rd Reg.HOST_Q_STATUS_CQ_TAIL fn q + s.qSize fn q - (s.queue fn q).head) % s.qSize fn q <
          (v + s.qSize fn q - (s.queue fn q).head) % s.qSize fn q) →
        ∃ t, exec (.cqDoorbell fn q v) s = .next t ∧ t.qState fn q = 2 ∧ t.queue fn q = s.queue fn q)) ∧
    (s.on Reg.HOST_Q_CFG_ENABLE fn q = false → ∃ t, exec (.queueEnableWrite fn q true) s = .next t ∧ t.qState fn q = 1 ∧
      t.rd Reg.HOST_Q_STATUS_SQ_HEAD fn q = 0 ∧ t.rd Reg.HOST_Q_STATUS_CQ_TAIL fn q = 0 ∧ (t.queue fn q).tail = 0 ∧
      (t.queue fn q).head = 0 ∧ (t.queue fn q).cmds = [] ∧ t.mem = s.mem) ∧
    (∀ e : List Byte, e.length = 64 → s.qState fn q = 1 → s.on Reg.HOST_LINK_UP 0 = true →
      s.rd Reg.HOST_Q_STATUS_SQ_HEAD fn q ≠ (s.queue fn q).tail →
      ((s.queue fn q).cmds.filter (fun c => c.phase == 2)).length < 64 → ∃ t, exec (.sqEntryFetch fn q e true) s = .next t ∧
        (t.queue fn q).cmds = (s.queue fn q).cmds ++ [readEntry e] ∧ t.mem = s.mem ∧
        t.rd Reg.HOST_Q_STATUS_SQ_HEAD fn q = (s.rd Reg.HOST_Q_STATUS_SQ_HEAD fn q + 1) % s.qSize fn q) ∧
    (∀ n c, (s.queue fn q).next = some (n, c) →
      (c.opcode = 0 → exec (.cmdNop fn q) s = .next (s.setCmd fn q n (c.ended 0))) ∧
      (c.opcode = 3 → s.fnPart fn = none → exec (.cmdStart fn q) s = .next (s.setCmd fn q n (c.ended 8))) ∧
      (∀ p gbs, s.fnPart fn = some p → s.rd Reg.PART_STATUS_STATE 0 p = 2 → s.selects p c = some gbs → (∀ gb ∈ gbs, gb < 2560) →
        (c.opcode = 3 → (∃ gb ∈ gbs, s.stopped gb = false) → exec (.cmdStart fn q) s = .next (s.setCmd fn q n (c.ended 4))) ∧
        (c.opcode = 3 → (∀ gb ∈ gbs, s.stopped gb = true) → ∃ t, exec (.cmdStart fn q) s = .next t ∧ t.mem = s.mem ∧
          (t.queue fn q).cmds = (s.queue fn q).cmds.set n (c.ended 0) ∧
          (∀ gb ∈ gbs, t.seqState gb = .run ∧ t.pc gb = c.pc % 4096) ∧
          ∀ gb, gb < 2560 → gb ∉ gbs → t.seqState gb = s.seqState gb ∧ t.pc gb = s.pc gb) ∧
        (c.opcode = 4 → ∃ t, exec (.cmdHalt fn q) s = .next t ∧ t.mem = s.mem ∧
          (t.queue fn q).cmds = (s.queue fn q).cmds.set n { c with phase := 1 } ∧
          ∀ gb ∈ gbs, t.seqState gb = (if s.seqState gb = .run then .drain else s.seqState gb)) ∧
        (c.opcode = 5 → exec (.cmdWait fn q) s = .next (s.setCmd fn q n { c with phase := 1 })) ∧
        (c.opcode = 6 → ∃ t, exec (.cmdAbort fn q) s = .next t ∧
          (t.queue fn q).cmds = (s.queue fn q).cmds.set n { c with phase := 1 } ∧
          ∀ gb ∈ gbs, (s.seqState gb = .drain ∨ (s.seqState gb = .fault ∧ (s.seq gb).drained = true)) → t.seqState gb = .halted)) ∧
      (∀ p, s.fnPart fn = some p → s.rd Reg.PART_STATUS_STATE 0 p = 2 → s.copyCut c.loc = false → s.copyWaits c.loc = false →
        s.tierPoison = [] → (∀ x ∈ tierPieces c.loc c.len, s.tierState (ctlOf x.1) ≠ 3) →
        (∀ b bs, c.opcode = 1 → s.hostAddr fn c.host c.len false = some b → s.copyOk p c.loc c.len true = true → bs.length = c.len →
          ∃ t, exec (.copyIn fn q (some bs) [] []) s = .next t ∧ (t.queue fn q).cmds = (s.queue fn q).cmds.set n (c.ended 0) ∧
          (∀ gb off, placeOf c.loc = .spad gb off → t.bytes (spadBase gb + off) c.len = bs ∧
            s.sameOutside t (spadBase gb + off) c.len) ∧
          ((placeOf c.loc = .tierA ∨ placeOf c.loc = .tierB) → t.bytes c.loc c.len = bs ∧ s.sameOutside t c.loc c.len)) ∧
        (∀ b, c.opcode = 2 → s.hostAddr fn c.host c.len true = some b → s.copyOk p c.loc c.len false = true →
          ((placeOf c.loc = .tierA ∨ placeOf c.loc = .tierB) → ∃ t, exec (.copyOut fn q false []) s = .next t ∧
            (t.queue fn q).cmds = (s.queue fn q).cmds.set n (c.ended 0) ∧ t.mem = s.mem ∧
            ∀ k, k < c.len → SMap.get 0#8 (b + k) t.hostMem = s.byte (c.loc + k)) ∧
          (∀ gb off, placeOf c.loc = .spad gb off → s.sound gb off c.len = true → ∃ t, exec (.copyOut fn q false []) s = .next t ∧
            (t.queue fn q).cmds = (s.queue fn q).cmds.set n (c.ended 0) ∧ s.sameMemory t ∧
            ∀ k, k < c.len → SMap.get 0#8 (b + k) t.hostMem = s.byte (spadBase gb + off + k))))) ∧
    (∀ n c0 c, (s.queue fn q).cmds[n]? = some c0 → c = s.judgeCmd fn c0 → c.phase = 2 → s.on Reg.HOST_LINK_UP 0 = true →
      (s.rd Reg.HOST_Q_STATUS_CQ_TAIL fn q + 1) % s.qSize fn q ≠ (s.queue fn q).head → ∃ t, exec (.commandCompletion fn q n) s = .next t ∧
        (t.queue fn q).cmds = (s.queue fn q).cmds.eraseIdx n ∧ t.mem = s.mem ∧
        t.rd Reg.HOST_Q_STATUS_CQ_TAIL fn q = (s.rd Reg.HOST_Q_STATUS_CQ_TAIL fn q + 1) % s.qSize fn q ∧
        ∀ k, k < 16 → SMap.get 0#8 (s.cqPlace fn q + k) t.hostMem = (s.cqEntry fn q c).getD k 0#8) ∧
    (s.on Reg.HOST_LINK_UP 0 = true → ∃ t, exec .hostLinkDown s = .next t ∧ t.on Reg.HOST_LINK_UP 0 = false ∧ t.qState fn q = 0 ∧
      t.on Reg.HOST_Q_CFG_ENABLE fn q = false ∧ (t.queue fn q).cmds = []) ∧
    (∃ t, exec (.hostFlr fn) s = .next t ∧ t.qState fn q = 0 ∧ t.on Reg.HOST_Q_CFG_ENABLE fn q = false ∧ (t.queue fn q).cmds = []) ∧
    (∀ w r, 1 ≤ w → w ≤ 16 → r ≤ 5 → ∃ t, exec (.hostLinkUp w r) s = .next t ∧ t.on Reg.HOST_LINK_UP 0 = true ∧
      t.rd Reg.HOST_LINK_WIDTH 0 = w ∧ t.rd Reg.HOST_LINK_RATE 0 = r ∧ t.mem = s.mem ∧
      (s.atStep 10 = true → t.ready = true ∧ t.rd Reg.BOOT_STATUS_MODE 0 = 1))

/-- In every state that meets the invariant, a step of any command answers only a next state that meets it: the device's and the
host's memory keep their canonical form, no store reaches register s0 of a bench, and no substream comes to stand at zero. (R262
(10_sequencer_and_tiling.md), R77 (02_narrow_arithmetic.md), R246 (09_bench_scratchpad.md)) -/
def Obligations.EveryStepKeepsTheInvariant : Prop :=
  ∀ (s t : State), s.Inv → step s = .next t → t.Inv

/-- A step that answers a next state leaves exactly the rest of the queue; and from a state whose queue is safe a step never stops,
and leaves a safe queue. (98_reader.md) -/
def Obligations.EveryStepTakesOneCommand : Prop :=
  (∀ (s t : State), step s = .next t → t.pending = s.pending.drop 1) ∧
  (∀ (s : State), s.safeQueue = true → ∃ t, step s = .next t ∧ t.safeQueue = true)

/-- After reset every bench is IDLE and in no partition, every scalar register reads 0 and every slot is empty; the cap in force is
the fallback of 2,800 W; the location is not valid; no partition is VALID; no safe step is named; no memory byte is listed (that
an unlisted byte reads zero is the model's choice, assumption log 4), and the invariant of the steps holds. The model's choices
that it rests on: assumption log 3. (R262 (10_sequencer_and_tiling.md), R461 (17_fabric_transport.md), R492
(18_power_and_thermal.md), R520 (19_gaffer_servitor_boot.md)) -/
def Obligations.ResetGivesTheValuesOfTheSpec : Prop :=
  State.reset.Inv ∧ State.reset.mem = [] ∧ State.reset.pending = [] ∧
  (∀ gb, State.reset.seqState gb = .idle ∧ State.reset.partOf gb = 255) ∧
  (∀ gb r, State.reset.sreg gb r = 0#64) ∧ (∀ gb slot, State.reset.tag gb slot = false) ∧
  State.reset.rd Reg.PWR_CAP_CAP_W 0 = 2800 ∧ State.reset.rd Reg.PWR_FALLBACK_FALLBACK_W 0 = 2800 ∧
  State.reset.on Reg.DEV_LOCATION_VALID 0 = false ∧ (∀ p, State.reset.on Reg.PART_CFG_VALID 0 p = false) ∧
  State.reset.rd Reg.BOOT_STATUS_SAFE_STEP 0 = 15 ∧ (∀ d, State.reset.rd Reg.VR_PHASES_OK 0 d = 12)
end

