-- ==== Sys2Proof/Laws/Memory.lean ====
section
/-! SUPPORT. Sparse maps and byte memories: a read after a write, and the canonical form kept by every memory operation. -/

namespace Sys2Proof

namespace SMap

variable {α : Type}

@[simp] theorem get_nil (d : α) (k : Nat) : get d k [] = d := rfl

/-- Keys that a later key passes over may be dropped. -/
theorem get_dropLe (d : α) (k j : Nat) (m : SMap α) (h : k < j) : get d j (dropLe k m) = get d j m := by
  induction m with
  | nil => rfl
  | cons e r ih =>
    obtain ⟨a, v⟩ := e
    simp only [dropLe]
    split
    · rw [ih]; simp only [get]; rw [if_neg (by omega), if_neg (by omega)]
    · rfl

/-- Nothing at or below `k` is read from a map without its leading keys up to `k`. -/
theorem get_dropLe_le (d : α) (k j : Nat) (m : SMap α) (h : j ≤ k) : get d j (dropLe k m) = d := by
  induction m with
  | nil => rfl
  | cons e r ih =>
    obtain ⟨a, v⟩ := e
    simp only [dropLe]
    split
    · exact ih
    · simp only [get]; rw [if_pos (by omega)]

theorem dropLe_gt (k : Nat) (m : SMap α) (hp : m.Pairwise (fun a b => a.1 < b.1)) : ∀ e ∈ dropLe k m, k < e.1 := by
  induction m with
  | nil => simp [dropLe]
  | cons e r ih =>
    obtain ⟨a, v⟩ := e
    simp only [dropLe]
    rw [List.pairwise_cons] at hp
    split
    · exact ih hp.2
    · intro x hx
      simp only [List.mem_cons] at hx
      rcases hx with rfl | hx
      · simp; omega
      · have := hp.1 x hx; simp at this; omega

theorem dropLe_sublist (k : Nat) (m : SMap α) : (dropLe k m).Sublist m := by
  induction m with
  | nil => exact .slnil
  | cons e r ih =>
    obtain ⟨a, v⟩ := e
    simp only [dropLe]
    split
    · exact ih.cons _
    · exact List.Sublist.refl _

variable [DecidableEq α]

/-- What is put is read. -/
@[simp] theorem get_put_same (d : α) (k : Nat) (v : α) (m : SMap α) : get d k (put d k v m) = v := by
  induction m with
  | nil => simp only [put]; split <;> simp_all [get]
  | cons e r ih =>
    obtain ⟨a, w⟩ := e
    simp only [put]
    split
    · split
      · subst_vars; simp only [get]; rw [if_pos (by assumption)]
      · simp [get]
    · split
      · split
        · subst_vars; exact get_dropLe_le _ _ _ _ (by omega)
        · simp [get]
      · simp only [get]
        rw [if_neg (by omega), if_neg (by omega)]
        exact ih

/-- A put leaves every other key, whatever default the reader names. -/
theorem get_put_any (d d' : α) (k j : Nat) (v : α) (m : SMap α) (h : k ≠ j) : get d' j (put d k v m) = get d' j m := by
  induction m with
  | nil =>
    simp only [put]
    split
    · rfl
    · simp [get, h]
  | cons e r ih =>
    obtain ⟨a, w⟩ := e
    simp only [put]
    split
    · split
      · rfl
      · simp only [get]
        by_cases hj : j < k
        · rw [if_pos hj, if_pos (by omega)]
        · rw [if_neg hj, if_neg h]
    · split
      · subst_vars
        by_cases hj : j < a
        · have e1 : get d' j ((a, w) :: r) = d' := by simp only [get]; rw [if_pos hj]
          rw [e1]
          split
          · exact get_dropLe_le _ _ _ _ (by omega)
          · simp only [get]; rw [if_pos hj]
        · have e1 : get d' j ((a, w) :: r) = get d' j r := by simp only [get]; rw [if_neg hj, if_neg h]
          rw [e1]
          split
          · exact get_dropLe _ _ _ _ (by omega)
          · simp only [get]; rw [if_neg hj, if_neg h]; exact get_dropLe _ _ _ _ (by omega)
      · simp only [get]
        split
        · rfl
        · split
          · rfl
          · exact ih

theorem get_put_other (d : α) (k j : Nat) (v : α) (m : SMap α) (h : k ≠ j) : get d j (put d k v m) = get d j m :=
  get_put_any d d k j v m h

/-- The entries of a map after a put: the new one, or an old one. -/
theorem mem_put (d : α) (k : Nat) (v : α) (m : SMap α) (e : Nat × α) (h : e ∈ put d k v m) :
    (e = (k, v) ∧ v ≠ d) ∨ e ∈ m := by
  induction m with
  | nil => simp only [put] at h; split at h <;> simp_all
  | cons f r ih =>
    obtain ⟨a, w⟩ := f
    simp only [put] at h
    split at h
    · split at h
      · exact .inr h
      · simp only [List.mem_cons] at h
        rcases h with rfl | h
        · exact .inl ⟨rfl, by assumption⟩
        · exact .inr (by simpa using h)
    · split at h
      · split at h
        · exact .inr (List.mem_cons_of_mem _ ((dropLe_sublist _ _).subset h))
        · simp only [List.mem_cons] at h
          rcases h with rfl | h
          · exact .inl ⟨rfl, by assumption⟩
          · exact .inr (List.mem_cons_of_mem _ ((dropLe_sublist _ _).subset h))
      · simp only [List.mem_cons] at h
        rcases h with rfl | h
        · exact .inr (by simp)
        · rcases ih h with h | h
          · exact .inl h
          · exact .inr (List.mem_cons_of_mem _ h)

/-- A put keeps the keys rising. -/
theorem put_sorted (d : α) (k : Nat) (v : α) (m : SMap α) (hp : m.Pairwise (fun a b => a.1 < b.1)) :
    (put d k v m).Pairwise (fun a b => a.1 < b.1) := by
  induction m with
  | nil => simp only [put]; split <;> simp
  | cons e r ih =>
    obtain ⟨a, w⟩ := e
    have hl := (List.pairwise_cons.1 hp).1
    have hr := (List.pairwise_cons.1 hp).2
    simp only [put]
    split
    · split
      · exact hp
      · refine List.pairwise_cons.2 ⟨?_, hp⟩
        intro x hx
        simp only [List.mem_cons] at hx
        rcases hx with rfl | hx
        · assumption
        · have := hl x hx; simp at this; simp; omega
    · split
      · split
        · exact hr.sublist (dropLe_sublist _ _)
        · exact List.pairwise_cons.2 ⟨fun x hx => by have := dropLe_gt _ _ hr x hx; simp; omega, hr.sublist (dropLe_sublist _ _)⟩
      · refine List.pairwise_cons.2 ⟨?_, ih hr⟩
        intro x hx
        rcases mem_put _ _ _ _ _ hx with ⟨rfl, _⟩ | hx
        · simp; omega
        · exact hl x hx

/-- A put with the default that the key has keeps the canonical form. -/
theorem put_wf (d : Nat → α) (k : Nat) (v : α) (m : SMap α) (h : wf d m) : wf d (put (d k) k v m) := by
  refine ⟨put_sorted _ _ _ _ h.1, fun e he => ?_⟩
  rcases mem_put _ _ _ _ _ he with ⟨rfl, hv⟩ | he
  · exact hv
  · exact h.2 e he

omit [DecidableEq α] in
theorem filter_wf (d : Nat → α) (p : Nat × α → Bool) (m : SMap α) (h : wf d m) : wf d (m.filter p) :=
  ⟨h.1.filter _, fun e he => h.2 e ((List.mem_filter.1 he).1)⟩

omit [DecidableEq α] in
theorem clear_wf (d : Nat → α) (lo hi : Nat) (m : SMap α) (h : wf d m) : wf d (clear lo hi m) := filter_wf _ _ _ h

omit [DecidableEq α] in
theorem clearIf_wf (d : Nat → α) (p : Nat → Bool) (m : SMap α) (h : wf d m) : wf d (clearIf p m) := filter_wf _ _ _ h

end SMap

namespace Machine

/-- Storing one byte keeps the canonical form. -/
theorem State.store_wf (s : State) (a : Nat) (b : Byte) (h : Memory.wf s.mem) : Memory.wf (s.store a b).mem :=
  SMap.put_wf (fun _ => 0#8) a b s.mem h

theorem State.storeBytes_wf (s : State) (a : Nat) (bs : List Byte) (h : Memory.wf s.mem) : Memory.wf (s.storeBytes a bs).mem := by
  induction bs generalizing s a with
  | nil => exact h
  | cons b r ih => exact ih _ _ (s.store_wf a b h)

theorem State.storeNum_wf (s : State) (a n v : Nat) (h : Memory.wf s.mem) : Memory.wf (s.storeNum a n v).mem := s.storeBytes_wf _ _ h

theorem State.hostStore_wf (s : State) (a : Nat) (bs : List Byte) (h : Memory.wf s.hostMem) : Memory.wf (s.hostStore a bs).hostMem := by
  induction bs generalizing s a with
  | nil => exact h
  | cons b r ih => exact ih _ _ (SMap.put_wf (fun _ => 0#8) a b s.hostMem h)

/-- A byte stored is read, and every other byte reads as before. -/
theorem State.byte_store_same (s : State) (a : Nat) (b : Byte) : (s.store a b).byte a = b :=
  SMap.get_put_same _ _ _ _

theorem State.byte_store_other (s : State) (a c : Nat) (b : Byte) (hc : a ≠ c) :
    (s.store a b).byte c = s.byte c := SMap.get_put_other _ _ _ _ _ hc

/-- A stretch of bytes stored leaves every byte outside it. -/
theorem State.byte_storeBytes_other (s : State) (a c : Nat) (bs : List Byte) (hc : c < a ∨ a + bs.length ≤ c) :
    (s.storeBytes a bs).byte c = s.byte c := by
  induction bs generalizing s a with
  | nil => rfl
  | cons b r ih =>
    simp only [List.length_cons] at hc
    rw [State.storeBytes, ih _ _ (by omega), s.byte_store_other a c b (by omega)]

/-- A stretch of bytes stored is read back. -/
theorem State.byte_storeBytes_in (s : State) (a k : Nat) (bs : List Byte) (hk : k < bs.length) :
    (s.storeBytes a bs).byte (a + k) = bs[k] := by
  induction bs generalizing s a k with
  | nil => simp at hk
  | cons b r ih =>
    cases k with
    | zero =>
      rw [State.storeBytes, State.byte_storeBytes_other _ _ _ _ (by omega)]
      simpa using s.byte_store_same a b
    | succ n =>
      rw [State.storeBytes, show a + (n + 1) = a + 1 + n by omega]
      simpa using ih _ _ _ (by simpa using hk)

end Machine

end Sys2Proof
end

