-- ==== Sys2Proof/Laws/State.lean ====
section
/-! SUPPORT. What each update of the state leaves as it was, field by field, and what the register file reads after a write. -/

namespace Sys2Proof.Machine

open Sys2Proof

@[simp] theorem State.wr_pkgEnds (s : State) (f : Field) (i v j : Nat) : (s.wr f i v j).pkgEnds = s.pkgEnds := rfl
@[simp] theorem State.wr_tierErr (s : State) (f : Field) (i v j : Nat) : (s.wr f i v j).tierErr = s.tierErr := rfl
@[simp] theorem State.wr_tierWb (s : State) (f : Field) (i v j : Nat) : (s.wr f i v j).tierWb = s.tierWb := rfl
@[simp] theorem State.wr_tierSpares (s : State) (f : Field) (i v j : Nat) : (s.wr f i v j).tierSpares = s.tierSpares := rfl
@[simp] theorem State.wr_scrubPos (s : State) (f : Field) (i v j : Nat) : (s.wr f i v j).scrubPos = s.scrubPos := rfl
@[simp] theorem State.wr_fabWait (s : State) (f : Field) (i v j : Nat) : (s.wr f i v j).fabWait = s.fabWait := rfl
@[simp] theorem State.wr_barSrc (s : State) (f : Field) (i v j : Nat) : (s.wr f i v j).barSrc = s.barSrc := rfl
@[simp] theorem State.wr_timeX (s : State) (f : Field) (i v j : Nat) : (s.wr f i v j).timeX = s.timeX := rfl
@[simp] theorem State.wr_rings (s : State) (f : Field) (i v j : Nat) : (s.wr f i v j).rings = s.rings := rfl
@[simp] theorem State.wr_pending (s : State) (f : Field) (i v j : Nat) : (s.wr f i v j).pending = s.pending := rfl
@[simp] theorem State.wr_freeCtr (s : State) (f : Field) (i v j : Nat) : (s.wr f i v j).freeCtr = s.freeCtr := rfl
@[simp] theorem State.wr_timeNs (s : State) (f : Field) (i v j : Nat) : (s.wr f i v j).timeNs = s.timeNs := rfl
@[simp] theorem State.wr_pastNs (s : State) (f : Field) (i v j : Nat) : (s.wr f i v j).pastNs = s.pastNs := rfl
@[simp] theorem State.wr_finBuf (s : State) (f : Field) (i v j : Nat) : (s.wr f i v j).finBuf = s.finBuf := rfl
@[simp] theorem State.wr_capt (s : State) (f : Field) (i v j : Nat) : (s.wr f i v j).capt = s.capt := rfl
@[simp] theorem State.wr_heldLo (s : State) (f : Field) (i v j : Nat) : (s.wr f i v j).heldLo = s.heldLo := rfl
@[simp] theorem State.wr_mem (s : State) (f : Field) (i v j : Nat) : (s.wr f i v j).mem = s.mem := rfl
@[simp] theorem State.wr_poison (s : State) (f : Field) (i v j : Nat) : (s.wr f i v j).poison = s.poison := rfl
@[simp] theorem State.wr_tags (s : State) (f : Field) (i v j : Nat) : (s.wr f i v j).tags = s.tags := rfl
@[simp] theorem State.wr_sregs (s : State) (f : Field) (i v j : Nat) : (s.wr f i v j).sregs = s.sregs := rfl
@[simp] theorem State.wr_walkRam (s : State) (f : Field) (i v j : Nat) : (s.wr f i v j).walkRam = s.walkRam := rfl
@[simp] theorem State.wr_seqs (s : State) (f : Field) (i v j : Nat) : (s.wr f i v j).seqs = s.seqs := rfl
@[simp] theorem State.wr_logical (s : State) (f : Field) (i v j : Nat) : (s.wr f i v j).logical = s.logical := rfl
@[simp] theorem State.wr_prng (s : State) (f : Field) (i v j : Nat) : (s.wr f i v j).prng = s.prng := rfl
@[simp] theorem State.wr_owner (s : State) (f : Field) (i v j : Nat) : (s.wr f i v j).owner = s.owner := rfl
@[simp] theorem State.wr_devRing (s : State) (f : Field) (i v j : Nat) : (s.wr f i v j).devRing = s.devRing := rfl
@[simp] theorem State.wr_devSeq (s : State) (f : Field) (i v j : Nat) : (s.wr f i v j).devSeq = s.devSeq := rfl
@[simp] theorem State.wr_ringReady (s : State) (f : Field) (i v j : Nat) : (s.wr f i v j).ringReady = s.ringReady := rfl
@[simp] theorem State.wr_heldRecs (s : State) (f : Field) (i v j : Nat) : (s.wr f i v j).heldRecs = s.heldRecs := rfl
@[simp] theorem State.wr_repeats (s : State) (f : Field) (i v j : Nat) : (s.wr f i v j).repeats = s.repeats := rfl
@[simp] theorem State.wr_ringOvf (s : State) (f : Field) (i v j : Nat) : (s.wr f i v j).ringOvf = s.ringOvf := rfl
@[simp] theorem State.wr_hostMem (s : State) (f : Field) (i v j : Nat) : (s.wr f i v j).hostMem = s.hostMem := rfl
@[simp] theorem State.wr_outbox (s : State) (f : Field) (i v j : Nat) : (s.wr f i v j).outbox = s.outbox := rfl
@[simp] theorem State.wr_readData (s : State) (f : Field) (i v j : Nat) : (s.wr f i v j).readData = s.readData := rfl
@[simp] theorem State.wr_waits (s : State) (f : Field) (i v j : Nat) : (s.wr f i v j).waits = s.waits := rfl
@[simp] theorem State.wr_writeback (s : State) (f : Field) (i v j : Nat) : (s.wr f i v j).writeback = s.writeback := rfl
@[simp] theorem State.wr_cells (s : State) (f : Field) (i v j : Nat) : (s.wr f i v j).cells = s.cells := rfl
@[simp] theorem State.wr_accs (s : State) (f : Field) (i v j : Nat) : (s.wr f i v j).accs = s.accs := rfl
@[simp] theorem State.wr_gated (s : State) (f : Field) (i v j : Nat) : (s.wr f i v j).gated = s.gated := rfl
@[simp] theorem State.wr_poolBuf (s : State) (f : Field) (i v j : Nat) : (s.wr f i v j).poolBuf = s.poolBuf := rfl
@[simp] theorem State.wr_metaRam (s : State) (f : Field) (i v j : Nat) : (s.wr f i v j).metaRam = s.metaRam := rfl
@[simp] theorem State.wr_pots (s : State) (f : Field) (i v j : Nat) : (s.wr f i v j).pots = s.pots := rfl
@[simp] theorem State.wr_sketch (s : State) (f : Field) (i v j : Nat) : (s.wr f i v j).sketch = s.sketch := rfl
@[simp] theorem State.wr_pars (s : State) (f : Field) (i v j : Nat) : (s.wr f i v j).pars = s.pars := rfl
@[simp] theorem State.wr_jackAcc (s : State) (f : Field) (i v j : Nat) : (s.wr f i v j).jackAcc = s.jackAcc := rfl
@[simp] theorem State.wr_jacks (s : State) (f : Field) (i v j : Nat) : (s.wr f i v j).jacks = s.jacks := rfl
@[simp] theorem State.wr_xfers (s : State) (f : Field) (i v j : Nat) : (s.wr f i v j).xfers = s.xfers := rfl
@[simp] theorem State.wr_nextXfer (s : State) (f : Field) (i v j : Nat) : (s.wr f i v j).nextXfer = s.nextXfer := rfl
@[simp] theorem State.wr_buckets (s : State) (f : Field) (i v j : Nat) : (s.wr f i v j).buckets = s.buckets := rfl
@[simp] theorem State.wr_trackPtr (s : State) (f : Field) (i v j : Nat) : (s.wr f i v j).trackPtr = s.trackPtr := rfl
@[simp] theorem State.wr_kibRem (s : State) (f : Field) (i v j : Nat) : (s.wr f i v j).kibRem = s.kibRem := rfl
@[simp] theorem State.wr_remoteWait (s : State) (f : Field) (i v j : Nat) : (s.wr f i v j).remoteWait = s.remoteWait := rfl
@[simp] theorem State.wr_pqOut (s : State) (f : Field) (i v j : Nat) : (s.wr f i v j).pqOut = s.pqOut := rfl
@[simp] theorem State.wr_pqIn (s : State) (f : Field) (i v j : Nat) : (s.wr f i v j).pqIn = s.pqIn := rfl
@[simp] theorem State.wr_producers (s : State) (f : Field) (i v j : Nat) : (s.wr f i v j).producers = s.producers := rfl
@[simp] theorem State.wr_ringPos (s : State) (f : Field) (i v j : Nat) : (s.wr f i v j).ringPos = s.ringPos := rfl
@[simp] theorem State.wr_tierPoison (s : State) (f : Field) (i v j : Nat) : (s.wr f i v j).tierPoison = s.tierPoison := rfl
@[simp] theorem State.wr_clockOff (s : State) (f : Field) (i v j : Nat) : (s.wr f i v j).clockOff = s.clockOff := rfl
@[simp] theorem State.wr_slowClock (s : State) (f : Field) (i v j : Nat) : (s.wr f i v j).slowClock = s.slowClock := rfl
@[simp] theorem State.wr_cycleCtr (s : State) (f : Field) (i v j : Nat) : (s.wr f i v j).cycleCtr = s.cycleCtr := rfl
@[simp] theorem State.wr_longSaid (s : State) (f : Field) (i v j : Nat) : (s.wr f i v j).longSaid = s.longSaid := rfl
@[simp] theorem State.wr_bcGroups (s : State) (f : Field) (i v j : Nat) : (s.wr f i v j).bcGroups = s.bcGroups := rfl
@[simp] theorem State.wr_txns (s : State) (f : Field) (i v j : Nat) : (s.wr f i v j).txns = s.txns := rfl
@[simp] theorem State.wr_rtidQ (s : State) (f : Field) (i v j : Nat) : (s.wr f i v j).rtidQ = s.rtidQ := rfl
@[simp] theorem State.wr_cache (s : State) (f : Field) (i v j : Nat) : (s.wr f i v j).cache = s.cache := rfl
@[simp] theorem State.wr_genSeen (s : State) (f : Field) (i v j : Nat) : (s.wr f i v j).genSeen = s.genSeen := rfl
@[simp] theorem State.wr_fseqIn (s : State) (f : Field) (i v j : Nat) : (s.wr f i v j).fseqIn = s.fseqIn := rfl
@[simp] theorem State.wr_hdlData (s : State) (f : Field) (i v j : Nat) : (s.wr f i v j).hdlData = s.hdlData := rfl
@[simp] theorem State.wr_fseqOut (s : State) (f : Field) (i v j : Nat) : (s.wr f i v j).fseqOut = s.fseqOut := rfl
@[simp] theorem State.wr_fabUnreach (s : State) (f : Field) (i v j : Nat) : (s.wr f i v j).fabUnreach = s.fabUnreach := rfl
@[simp] theorem State.wr_pkgUnreach (s : State) (f : Field) (i v j : Nat) : (s.wr f i v j).pkgUnreach = s.pkgUnreach := rfl
@[simp] theorem State.wr_partGen (s : State) (f : Field) (i v j : Nat) : (s.wr f i v j).partGen = s.partGen := rfl
@[simp] theorem State.wr_canes (s : State) (f : Field) (i v j : Nat) : (s.wr f i v j).canes = s.canes := rfl
@[simp] theorem State.wr_inbox (s : State) (f : Field) (i v j : Nat) : (s.wr f i v j).inbox = s.inbox := rfl
@[simp] theorem State.wr_potOff (s : State) (f : Field) (i v j : Nat) : (s.wr f i v j).potOff = s.potOff := rfl
@[simp] theorem State.wr_pkgExcl (s : State) (f : Field) (i v j : Nat) : (s.wr f i v j).pkgExcl = s.pkgExcl := rfl
@[simp] theorem State.wr_quotaSum (s : State) (f : Field) (i v j : Nat) : (s.wr f i v j).quotaSum = s.quotaSum := rfl
@[simp] theorem State.wr_partSeed (s : State) (f : Field) (i v j : Nat) : (s.wr f i v j).partSeed = s.partSeed := rfl
@[simp] theorem State.wr_power (s : State) (f : Field) (i v j : Nat) : (s.wr f i v j).power = s.power := rfl
@[simp] theorem State.wr_load (s : State) (f : Field) (i v j : Nat) : (s.wr f i v j).load = s.load := rfl
@[simp] theorem State.wr_imgDigest (s : State) (f : Field) (i v j : Nat) : (s.wr f i v j).imgDigest = s.imgDigest := rfl
@[simp] theorem State.wr_keys (s : State) (f : Field) (i v j : Nat) : (s.wr f i v j).keys = s.keys := rfl
@[simp] theorem State.wr_keyMin (s : State) (f : Field) (i v j : Nat) : (s.wr f i v j).keyMin = s.keyMin := rfl
@[simp] theorem State.wr_keyCounter (s : State) (f : Field) (i v j : Nat) : (s.wr f i v j).keyCounter = s.keyCounter := rfl
@[simp] theorem State.wr_banks (s : State) (f : Field) (i v j : Nat) : (s.wr f i v j).banks = s.banks := rfl
@[simp] theorem State.wr_activeBank (s : State) (f : Field) (i v j : Nat) : (s.wr f i v j).activeBank = s.activeBank := rfl
@[simp] theorem State.wr_altBanks (s : State) (f : Field) (i v j : Nat) : (s.wr f i v j).altBanks = s.altBanks := rfl
@[simp] theorem State.wr_s8Wait (s : State) (f : Field) (i v j : Nat) : (s.wr f i v j).s8Wait = s.s8Wait := rfl
@[simp] theorem State.wr_minSvn (s : State) (f : Field) (i v j : Nat) : (s.wr f i v j).minSvn = s.minSvn := rfl
@[simp] theorem State.wr_fwPieces (s : State) (f : Field) (i v j : Nat) : (s.wr f i v j).fwPieces = s.fwPieces := rfl
@[simp] theorem State.wr_ledger (s : State) (f : Field) (i v j : Nat) : (s.wr f i v j).ledger = s.ledger := rfl
@[simp] theorem State.wr_restart (s : State) (f : Field) (i v j : Nat) : (s.wr f i v j).restart = s.restart := rfl
@[simp] theorem State.wr_svRestarts (s : State) (f : Field) (i v j : Nat) : (s.wr f i v j).svRestarts = s.svRestarts := rfl
@[simp] theorem State.wr_ready (s : State) (f : Field) (i v j : Nat) : (s.wr f i v j).ready = s.ready := rfl
@[simp] theorem State.wr_wdFlag (s : State) (f : Field) (i v j : Nat) : (s.wr f i v j).wdFlag = s.wdFlag := rfl
@[simp] theorem State.wr_wasReady (s : State) (f : Field) (i v j : Nat) : (s.wr f i v j).wasReady = s.wasReady := rfl
@[simp] theorem State.wr_graceAt (s : State) (f : Field) (i v j : Nat) : (s.wr f i v j).graceAt = s.graceAt := rfl
@[simp] theorem State.wr_pldmEvents (s : State) (f : Field) (i v j : Nat) : (s.wr f i v j).pldmEvents = s.pldmEvents := rfl
@[simp] theorem State.wr_locWait (s : State) (f : Field) (i v j : Nat) : (s.wr f i v j).locWait = s.locWait := rfl
@[simp] theorem State.wr_rackCap (s : State) (f : Field) (i v j : Nat) : (s.wr f i v j).rackCap = s.rackCap := rfl
@[simp] theorem State.wr_fabCap (s : State) (f : Field) (i v j : Nat) : (s.wr f i v j).fabCap = s.fabCap := rfl
@[simp] theorem State.wr_dies (s : State) (f : Field) (i v j : Nat) : (s.wr f i v j).dies = s.dies := rfl
@[simp] theorem State.wr_inletHigh (s : State) (f : Field) (i v j : Nat) : (s.wr f i v j).inletHigh = s.inletHigh := rfl
@[simp] theorem State.wr_vinOut (s : State) (f : Field) (i v j : Nat) : (s.wr f i v j).vinOut = s.vinOut := rfl
@[simp] theorem State.wr_flowLow (s : State) (f : Field) (i v j : Nat) : (s.wr f i v j).flowLow = s.flowLow := rfl
@[simp] theorem State.wr_swOpen (s : State) (f : Field) (i v j : Nat) : (s.wr f i v j).swOpen = s.swOpen := rfl
@[simp] theorem State.wr_mbox (s : State) (f : Field) (i v j : Nat) : (s.wr f i v j).mbox = s.mbox := rfl
@[simp] theorem State.wr_queues (s : State) (f : Field) (i v j : Nat) : (s.wr f i v j).queues = s.queues := rfl
@[simp] theorem State.wr_msixTab (s : State) (f : Field) (i v j : Nat) : (s.wr f i v j).msixTab = s.msixTab := rfl
@[simp] theorem State.wr_msixPend (s : State) (f : Field) (i v j : Nat) : (s.wr f i v j).msixPend = s.msixPend := rfl

@[simp] theorem State.flag_pkgEnds (s : State) (f : Field) (i : Nat) (b : Bool) (j : Nat) : (s.flag f i b j).pkgEnds = s.pkgEnds := rfl
@[simp] theorem State.flag_tierErr (s : State) (f : Field) (i : Nat) (b : Bool) (j : Nat) : (s.flag f i b j).tierErr = s.tierErr := rfl
@[simp] theorem State.flag_tierWb (s : State) (f : Field) (i : Nat) (b : Bool) (j : Nat) : (s.flag f i b j).tierWb = s.tierWb := rfl
@[simp] theorem State.flag_tierSpares (s : State) (f : Field) (i : Nat) (b : Bool) (j : Nat) : (s.flag f i b j).tierSpares = s.tierSpares := rfl
@[simp] theorem State.flag_scrubPos (s : State) (f : Field) (i : Nat) (b : Bool) (j : Nat) : (s.flag f i b j).scrubPos = s.scrubPos := rfl
@[simp] theorem State.flag_fabWait (s : State) (f : Field) (i : Nat) (b : Bool) (j : Nat) : (s.flag f i b j).fabWait = s.fabWait := rfl
@[simp] theorem State.flag_barSrc (s : State) (f : Field) (i : Nat) (b : Bool) (j : Nat) : (s.flag f i b j).barSrc = s.barSrc := rfl
@[simp] theorem State.flag_timeX (s : State) (f : Field) (i : Nat) (b : Bool) (j : Nat) : (s.flag f i b j).timeX = s.timeX := rfl
@[simp] theorem State.flag_rings (s : State) (f : Field) (i : Nat) (b : Bool) (j : Nat) : (s.flag f i b j).rings = s.rings := rfl
@[simp] theorem State.flag_pending (s : State) (f : Field) (i : Nat) (b : Bool) (j : Nat) : (s.flag f i b j).pending = s.pending := rfl
@[simp] theorem State.flag_freeCtr (s : State) (f : Field) (i : Nat) (b : Bool) (j : Nat) : (s.flag f i b j).freeCtr = s.freeCtr := rfl
@[simp] theorem State.flag_timeNs (s : State) (f : Field) (i : Nat) (b : Bool) (j : Nat) : (s.flag f i b j).timeNs = s.timeNs := rfl
@[simp] theorem State.flag_pastNs (s : State) (f : Field) (i : Nat) (b : Bool) (j : Nat) : (s.flag f i b j).pastNs = s.pastNs := rfl
@[simp] theorem State.flag_finBuf (s : State) (f : Field) (i : Nat) (b : Bool) (j : Nat) : (s.flag f i b j).finBuf = s.finBuf := rfl
@[simp] theorem State.flag_capt (s : State) (f : Field) (i : Nat) (b : Bool) (j : Nat) : (s.flag f i b j).capt = s.capt := rfl
@[simp] theorem State.flag_heldLo (s : State) (f : Field) (i : Nat) (b : Bool) (j : Nat) : (s.flag f i b j).heldLo = s.heldLo := rfl
@[simp] theorem State.flag_mem (s : State) (f : Field) (i : Nat) (b : Bool) (j : Nat) : (s.flag f i b j).mem = s.mem := rfl
@[simp] theorem State.flag_poison (s : State) (f : Field) (i : Nat) (b : Bool) (j : Nat) : (s.flag f i b j).poison = s.poison := rfl
@[simp] theorem State.flag_tags (s : State) (f : Field) (i : Nat) (b : Bool) (j : Nat) : (s.flag f i b j).tags = s.tags := rfl
@[simp] theorem State.flag_sregs (s : State) (f : Field) (i : Nat) (b : Bool) (j : Nat) : (s.flag f i b j).sregs = s.sregs := rfl
@[simp] theorem State.flag_walkRam (s : State) (f : Field) (i : Nat) (b : Bool) (j : Nat) : (s.flag f i b j).walkRam = s.walkRam := rfl
@[simp] theorem State.flag_seqs (s : State) (f : Field) (i : Nat) (b : Bool) (j : Nat) : (s.flag f i b j).seqs = s.seqs := rfl
@[simp] theorem State.flag_logical (s : State) (f : Field) (i : Nat) (b : Bool) (j : Nat) : (s.flag f i b j).logical = s.logical := rfl
@[simp] theorem State.flag_prng (s : State) (f : Field) (i : Nat) (b : Bool) (j : Nat) : (s.flag f i b j).prng = s.prng := rfl
@[simp] theorem State.flag_owner (s : State) (f : Field) (i : Nat) (b : Bool) (j : Nat) : (s.flag f i b j).owner = s.owner := rfl
@[simp] theorem State.flag_devRing (s : State) (f : Field) (i : Nat) (b : Bool) (j : Nat) : (s.flag f i b j).devRing = s.devRing := rfl
@[simp] theorem State.flag_devSeq (s : State) (f : Field) (i : Nat) (b : Bool) (j : Nat) : (s.flag f i b j).devSeq = s.devSeq := rfl
@[simp] theorem State.flag_ringReady (s : State) (f : Field) (i : Nat) (b : Bool) (j : Nat) : (s.flag f i b j).ringReady = s.ringReady := rfl
@[simp] theorem State.flag_heldRecs (s : State) (f : Field) (i : Nat) (b : Bool) (j : Nat) : (s.flag f i b j).heldRecs = s.heldRecs := rfl
@[simp] theorem State.flag_repeats (s : State) (f : Field) (i : Nat) (b : Bool) (j : Nat) : (s.flag f i b j).repeats = s.repeats := rfl
@[simp] theorem State.flag_ringOvf (s : State) (f : Field) (i : Nat) (b : Bool) (j : Nat) : (s.flag f i b j).ringOvf = s.ringOvf := rfl
@[simp] theorem State.flag_hostMem (s : State) (f : Field) (i : Nat) (b : Bool) (j : Nat) : (s.flag f i b j).hostMem = s.hostMem := rfl
@[simp] theorem State.flag_outbox (s : State) (f : Field) (i : Nat) (b : Bool) (j : Nat) : (s.flag f i b j).outbox = s.outbox := rfl
@[simp] theorem State.flag_readData (s : State) (f : Field) (i : Nat) (b : Bool) (j : Nat) : (s.flag f i b j).readData = s.readData := rfl
@[simp] theorem State.flag_waits (s : State) (f : Field) (i : Nat) (b : Bool) (j : Nat) : (s.flag f i b j).waits = s.waits := rfl
@[simp] theorem State.flag_writeback (s : State) (f : Field) (i : Nat) (b : Bool) (j : Nat) : (s.flag f i b j).writeback = s.writeback := rfl
@[simp] theorem State.flag_cells (s : State) (f : Field) (i : Nat) (b : Bool) (j : Nat) : (s.flag f i b j).cells = s.cells := rfl
@[simp] theorem State.flag_accs (s : State) (f : Field) (i : Nat) (b : Bool) (j : Nat) : (s.flag f i b j).accs = s.accs := rfl
@[simp] theorem State.flag_gated (s : State) (f : Field) (i : Nat) (b : Bool) (j : Nat) : (s.flag f i b j).gated = s.gated := rfl
@[simp] theorem State.flag_poolBuf (s : State) (f : Field) (i : Nat) (b : Bool) (j : Nat) : (s.flag f i b j).poolBuf = s.poolBuf := rfl
@[simp] theorem State.flag_metaRam (s : State) (f : Field) (i : Nat) (b : Bool) (j : Nat) : (s.flag f i b j).metaRam = s.metaRam := rfl
@[simp] theorem State.flag_pots (s : State) (f : Field) (i : Nat) (b : Bool) (j : Nat) : (s.flag f i b j).pots = s.pots := rfl
@[simp] theorem State.flag_sketch (s : State) (f : Field) (i : Nat) (b : Bool) (j : Nat) : (s.flag f i b j).sketch = s.sketch := rfl
@[simp] theorem State.flag_pars (s : State) (f : Field) (i : Nat) (b : Bool) (j : Nat) : (s.flag f i b j).pars = s.pars := rfl
@[simp] theorem State.flag_jackAcc (s : State) (f : Field) (i : Nat) (b : Bool) (j : Nat) : (s.flag f i b j).jackAcc = s.jackAcc := rfl
@[simp] theorem State.flag_jacks (s : State) (f : Field) (i : Nat) (b : Bool) (j : Nat) : (s.flag f i b j).jacks = s.jacks := rfl
@[simp] theorem State.flag_xfers (s : State) (f : Field) (i : Nat) (b : Bool) (j : Nat) : (s.flag f i b j).xfers = s.xfers := rfl
@[simp] theorem State.flag_nextXfer (s : State) (f : Field) (i : Nat) (b : Bool) (j : Nat) : (s.flag f i b j).nextXfer = s.nextXfer := rfl
@[simp] theorem State.flag_buckets (s : State) (f : Field) (i : Nat) (b : Bool) (j : Nat) : (s.flag f i b j).buckets = s.buckets := rfl
@[simp] theorem State.flag_trackPtr (s : State) (f : Field) (i : Nat) (b : Bool) (j : Nat) : (s.flag f i b j).trackPtr = s.trackPtr := rfl
@[simp] theorem State.flag_kibRem (s : State) (f : Field) (i : Nat) (b : Bool) (j : Nat) : (s.flag f i b j).kibRem = s.kibRem := rfl
@[simp] theorem State.flag_remoteWait (s : State) (f : Field) (i : Nat) (b : Bool) (j : Nat) : (s.flag f i b j).remoteWait = s.remoteWait := rfl
@[simp] theorem State.flag_pqOut (s : State) (f : Field) (i : Nat) (b : Bool) (j : Nat) : (s.flag f i b j).pqOut = s.pqOut := rfl
@[simp] theorem State.flag_pqIn (s : State) (f : Field) (i : Nat) (b : Bool) (j : Nat) : (s.flag f i b j).pqIn = s.pqIn := rfl
@[simp] theorem State.flag_producers (s : State) (f : Field) (i : Nat) (b : Bool) (j : Nat) : (s.flag f i b j).producers = s.producers := rfl
@[simp] theorem State.flag_ringPos (s : State) (f : Field) (i : Nat) (b : Bool) (j : Nat) : (s.flag f i b j).ringPos = s.ringPos := rfl
@[simp] theorem State.flag_tierPoison (s : State) (f : Field) (i : Nat) (b : Bool) (j : Nat) : (s.flag f i b j).tierPoison = s.tierPoison := rfl
@[simp] theorem State.flag_clockOff (s : State) (f : Field) (i : Nat) (b : Bool) (j : Nat) : (s.flag f i b j).clockOff = s.clockOff := rfl
@[simp] theorem State.flag_slowClock (s : State) (f : Field) (i : Nat) (b : Bool) (j : Nat) : (s.flag f i b j).slowClock = s.slowClock := rfl
@[simp] theorem State.flag_cycleCtr (s : State) (f : Field) (i : Nat) (b : Bool) (j : Nat) : (s.flag f i b j).cycleCtr = s.cycleCtr := rfl
@[simp] theorem State.flag_longSaid (s : State) (f : Field) (i : Nat) (b : Bool) (j : Nat) : (s.flag f i b j).longSaid = s.longSaid := rfl
@[simp] theorem State.flag_bcGroups (s : State) (f : Field) (i : Nat) (b : Bool) (j : Nat) : (s.flag f i b j).bcGroups = s.bcGroups := rfl
@[simp] theorem State.flag_txns (s : State) (f : Field) (i : Nat) (b : Bool) (j : Nat) : (s.flag f i b j).txns = s.txns := rfl
@[simp] theorem State.flag_rtidQ (s : State) (f : Field) (i : Nat) (b : Bool) (j : Nat) : (s.flag f i b j).rtidQ = s.rtidQ := rfl
@[simp] theorem State.flag_cache (s : State) (f : Field) (i : Nat) (b : Bool) (j : Nat) : (s.flag f i b j).cache = s.cache := rfl
@[simp] theorem State.flag_genSeen (s : State) (f : Field) (i : Nat) (b : Bool) (j : Nat) : (s.flag f i b j).genSeen = s.genSeen := rfl
@[simp] theorem State.flag_fseqIn (s : State) (f : Field) (i : Nat) (b : Bool) (j : Nat) : (s.flag f i b j).fseqIn = s.fseqIn := rfl
@[simp] theorem State.flag_hdlData (s : State) (f : Field) (i : Nat) (b : Bool) (j : Nat) : (s.flag f i b j).hdlData = s.hdlData := rfl
@[simp] theorem State.flag_fseqOut (s : State) (f : Field) (i : Nat) (b : Bool) (j : Nat) : (s.flag f i b j).fseqOut = s.fseqOut := rfl
@[simp] theorem State.flag_fabUnreach (s : State) (f : Field) (i : Nat) (b : Bool) (j : Nat) : (s.flag f i b j).fabUnreach = s.fabUnreach := rfl
@[simp] theorem State.flag_pkgUnreach (s : State) (f : Field) (i : Nat) (b : Bool) (j : Nat) : (s.flag f i b j).pkgUnreach = s.pkgUnreach := rfl
@[simp] theorem State.flag_partGen (s : State) (f : Field) (i : Nat) (b : Bool) (j : Nat) : (s.flag f i b j).partGen = s.partGen := rfl
@[simp] theorem State.flag_canes (s : State) (f : Field) (i : Nat) (b : Bool) (j : Nat) : (s.flag f i b j).canes = s.canes := rfl
@[simp] theorem State.flag_inbox (s : State) (f : Field) (i : Nat) (b : Bool) (j : Nat) : (s.flag f i b j).inbox = s.inbox := rfl
@[simp] theorem State.flag_potOff (s : State) (f : Field) (i : Nat) (b : Bool) (j : Nat) : (s.flag f i b j).potOff = s.potOff := rfl
@[simp] theorem State.flag_pkgExcl (s : State) (f : Field) (i : Nat) (b : Bool) (j : Nat) : (s.flag f i b j).pkgExcl = s.pkgExcl := rfl
@[simp] theorem State.flag_quotaSum (s : State) (f : Field) (i : Nat) (b : Bool) (j : Nat) : (s.flag f i b j).quotaSum = s.quotaSum := rfl
@[simp] theorem State.flag_partSeed (s : State) (f : Field) (i : Nat) (b : Bool) (j : Nat) : (s.flag f i b j).partSeed = s.partSeed := rfl
@[simp] theorem State.flag_power (s : State) (f : Field) (i : Nat) (b : Bool) (j : Nat) : (s.flag f i b j).power = s.power := rfl
@[simp] theorem State.flag_load (s : State) (f : Field) (i : Nat) (b : Bool) (j : Nat) : (s.flag f i b j).load = s.load := rfl
@[simp] theorem State.flag_imgDigest (s : State) (f : Field) (i : Nat) (b : Bool) (j : Nat) : (s.flag f i b j).imgDigest = s.imgDigest := rfl
@[simp] theorem State.flag_keys (s : State) (f : Field) (i : Nat) (b : Bool) (j : Nat) : (s.flag f i b j).keys = s.keys := rfl
@[simp] theorem State.flag_keyMin (s : State) (f : Field) (i : Nat) (b : Bool) (j : Nat) : (s.flag f i b j).keyMin = s.keyMin := rfl
@[simp] theorem State.flag_keyCounter (s : State) (f : Field) (i : Nat) (b : Bool) (j : Nat) : (s.flag f i b j).keyCounter = s.keyCounter := rfl
@[simp] theorem State.flag_banks (s : State) (f : Field) (i : Nat) (b : Bool) (j : Nat) : (s.flag f i b j).banks = s.banks := rfl
@[simp] theorem State.flag_activeBank (s : State) (f : Field) (i : Nat) (b : Bool) (j : Nat) : (s.flag f i b j).activeBank = s.activeBank := rfl
@[simp] theorem State.flag_altBanks (s : State) (f : Field) (i : Nat) (b : Bool) (j : Nat) : (s.flag f i b j).altBanks = s.altBanks := rfl
@[simp] theorem State.flag_s8Wait (s : State) (f : Field) (i : Nat) (b : Bool) (j : Nat) : (s.flag f i b j).s8Wait = s.s8Wait := rfl
@[simp] theorem State.flag_minSvn (s : State) (f : Field) (i : Nat) (b : Bool) (j : Nat) : (s.flag f i b j).minSvn = s.minSvn := rfl
@[simp] theorem State.flag_fwPieces (s : State) (f : Field) (i : Nat) (b : Bool) (j : Nat) : (s.flag f i b j).fwPieces = s.fwPieces := rfl
@[simp] theorem State.flag_ledger (s : State) (f : Field) (i : Nat) (b : Bool) (j : Nat) : (s.flag f i b j).ledger = s.ledger := rfl
@[simp] theorem State.flag_restart (s : State) (f : Field) (i : Nat) (b : Bool) (j : Nat) : (s.flag f i b j).restart = s.restart := rfl
@[simp] theorem State.flag_svRestarts (s : State) (f : Field) (i : Nat) (b : Bool) (j : Nat) : (s.flag f i b j).svRestarts = s.svRestarts := rfl
@[simp] theorem State.flag_ready (s : State) (f : Field) (i : Nat) (b : Bool) (j : Nat) : (s.flag f i b j).ready = s.ready := rfl
@[simp] theorem State.flag_wdFlag (s : State) (f : Field) (i : Nat) (b : Bool) (j : Nat) : (s.flag f i b j).wdFlag = s.wdFlag := rfl
@[simp] theorem State.flag_wasReady (s : State) (f : Field) (i : Nat) (b : Bool) (j : Nat) : (s.flag f i b j).wasReady = s.wasReady := rfl
@[simp] theorem State.flag_graceAt (s : State) (f : Field) (i : Nat) (b : Bool) (j : Nat) : (s.flag f i b j).graceAt = s.graceAt := rfl
@[simp] theorem State.flag_pldmEvents (s : State) (f : Field) (i : Nat) (b : Bool) (j : Nat) : (s.flag f i b j).pldmEvents = s.pldmEvents := rfl
@[simp] theorem State.flag_locWait (s : State) (f : Field) (i : Nat) (b : Bool) (j : Nat) : (s.flag f i b j).locWait = s.locWait := rfl
@[simp] theorem State.flag_rackCap (s : State) (f : Field) (i : Nat) (b : Bool) (j : Nat) : (s.flag f i b j).rackCap = s.rackCap := rfl
@[simp] theorem State.flag_fabCap (s : State) (f : Field) (i : Nat) (b : Bool) (j : Nat) : (s.flag f i b j).fabCap = s.fabCap := rfl
@[simp] theorem State.flag_dies (s : State) (f : Field) (i : Nat) (b : Bool) (j : Nat) : (s.flag f i b j).dies = s.dies := rfl
@[simp] theorem State.flag_inletHigh (s : State) (f : Field) (i : Nat) (b : Bool) (j : Nat) : (s.flag f i b j).inletHigh = s.inletHigh := rfl
@[simp] theorem State.flag_vinOut (s : State) (f : Field) (i : Nat) (b : Bool) (j : Nat) : (s.flag f i b j).vinOut = s.vinOut := rfl
@[simp] theorem State.flag_flowLow (s : State) (f : Field) (i : Nat) (b : Bool) (j : Nat) : (s.flag f i b j).flowLow = s.flowLow := rfl
@[simp] theorem State.flag_swOpen (s : State) (f : Field) (i : Nat) (b : Bool) (j : Nat) : (s.flag f i b j).swOpen = s.swOpen := rfl
@[simp] theorem State.flag_mbox (s : State) (f : Field) (i : Nat) (b : Bool) (j : Nat) : (s.flag f i b j).mbox = s.mbox := rfl
@[simp] theorem State.flag_queues (s : State) (f : Field) (i : Nat) (b : Bool) (j : Nat) : (s.flag f i b j).queues = s.queues := rfl
@[simp] theorem State.flag_msixTab (s : State) (f : Field) (i : Nat) (b : Bool) (j : Nat) : (s.flag f i b j).msixTab = s.msixTab := rfl
@[simp] theorem State.flag_msixPend (s : State) (f : Field) (i : Nat) (b : Bool) (j : Nat) : (s.flag f i b j).msixPend = s.msixPend := rfl

@[simp] theorem State.setSeq_pkgEnds (s : State) (gb : Nat) (q : Seq) : (s.setSeq gb q).pkgEnds = s.pkgEnds := rfl
@[simp] theorem State.setSeq_tierErr (s : State) (gb : Nat) (q : Seq) : (s.setSeq gb q).tierErr = s.tierErr := rfl
@[simp] theorem State.setSeq_tierWb (s : State) (gb : Nat) (q : Seq) : (s.setSeq gb q).tierWb = s.tierWb := rfl
@[simp] theorem State.setSeq_tierSpares (s : State) (gb : Nat) (q : Seq) : (s.setSeq gb q).tierSpares = s.tierSpares := rfl
@[simp] theorem State.setSeq_scrubPos (s : State) (gb : Nat) (q : Seq) : (s.setSeq gb q).scrubPos = s.scrubPos := rfl
@[simp] theorem State.setSeq_fabWait (s : State) (gb : Nat) (q : Seq) : (s.setSeq gb q).fabWait = s.fabWait := rfl
@[simp] theorem State.setSeq_barSrc (s : State) (gb : Nat) (q : Seq) : (s.setSeq gb q).barSrc = s.barSrc := rfl
@[simp] theorem State.setSeq_timeX (s : State) (gb : Nat) (q : Seq) : (s.setSeq gb q).timeX = s.timeX := rfl
@[simp] theorem State.setSeq_rings (s : State) (gb : Nat) (q : Seq) : (s.setSeq gb q).rings = s.rings := rfl
@[simp] theorem State.setSeq_pending (s : State) (gb : Nat) (q : Seq) : (s.setSeq gb q).pending = s.pending := rfl
@[simp] theorem State.setSeq_freeCtr (s : State) (gb : Nat) (q : Seq) : (s.setSeq gb q).freeCtr = s.freeCtr := rfl
@[simp] theorem State.setSeq_timeNs (s : State) (gb : Nat) (q : Seq) : (s.setSeq gb q).timeNs = s.timeNs := rfl
@[simp] theorem State.setSeq_pastNs (s : State) (gb : Nat) (q : Seq) : (s.setSeq gb q).pastNs = s.pastNs := rfl
@[simp] theorem State.setSeq_finBuf (s : State) (gb : Nat) (q : Seq) : (s.setSeq gb q).finBuf = s.finBuf := rfl
@[simp] theorem State.setSeq_regs (s : State) (gb : Nat) (q : Seq) : (s.setSeq gb q).regs = s.regs := rfl
@[simp] theorem State.setSeq_capt (s : State) (gb : Nat) (q : Seq) : (s.setSeq gb q).capt = s.capt := rfl
@[simp] theorem State.setSeq_heldLo (s : State) (gb : Nat) (q : Seq) : (s.setSeq gb q).heldLo = s.heldLo := rfl
@[simp] theorem State.setSeq_mem (s : State) (gb : Nat) (q : Seq) : (s.setSeq gb q).mem = s.mem := rfl
@[simp] theorem State.setSeq_poison (s : State) (gb : Nat) (q : Seq) : (s.setSeq gb q).poison = s.poison := rfl
@[simp] theorem State.setSeq_tags (s : State) (gb : Nat) (q : Seq) : (s.setSeq gb q).tags = s.tags := rfl
@[simp] theorem State.setSeq_sregs (s : State) (gb : Nat) (q : Seq) : (s.setSeq gb q).sregs = s.sregs := rfl
@[simp] theorem State.setSeq_walkRam (s : State) (gb : Nat) (q : Seq) : (s.setSeq gb q).walkRam = s.walkRam := rfl
@[simp] theorem State.setSeq_logical (s : State) (gb : Nat) (q : Seq) : (s.setSeq gb q).logical = s.logical := rfl
@[simp] theorem State.setSeq_prng (s : State) (gb : Nat) (q : Seq) : (s.setSeq gb q).prng = s.prng := rfl
@[simp] theorem State.setSeq_owner (s : State) (gb : Nat) (q : Seq) : (s.setSeq gb q).owner = s.owner := rfl
@[simp] theorem State.setSeq_devRing (s : State) (gb : Nat) (q : Seq) : (s.setSeq gb q).devRing = s.devRing := rfl
@[simp] theorem State.setSeq_devSeq (s : State) (gb : Nat) (q : Seq) : (s.setSeq gb q).devSeq = s.devSeq := rfl
@[simp] theorem State.setSeq_ringReady (s : State) (gb : Nat) (q : Seq) : (s.setSeq gb q).ringReady = s.ringReady := rfl
@[simp] theorem State.setSeq_heldRecs (s : State) (gb : Nat) (q : Seq) : (s.setSeq gb q).heldRecs = s.heldRecs := rfl
@[simp] theorem State.setSeq_repeats (s : State) (gb : Nat) (q : Seq) : (s.setSeq gb q).repeats = s.repeats := rfl
@[simp] theorem State.setSeq_ringOvf (s : State) (gb : Nat) (q : Seq) : (s.setSeq gb q).ringOvf = s.ringOvf := rfl
@[simp] theorem State.setSeq_hostMem (s : State) (gb : Nat) (q : Seq) : (s.setSeq gb q).hostMem = s.hostMem := rfl
@[simp] theorem State.setSeq_outbox (s : State) (gb : Nat) (q : Seq) : (s.setSeq gb q).outbox = s.outbox := rfl
@[simp] theorem State.setSeq_readData (s : State) (gb : Nat) (q : Seq) : (s.setSeq gb q).readData = s.readData := rfl
@[simp] theorem State.setSeq_waits (s : State) (gb : Nat) (q : Seq) : (s.setSeq gb q).waits = s.waits := rfl
@[simp] theorem State.setSeq_writeback (s : State) (gb : Nat) (q : Seq) : (s.setSeq gb q).writeback = s.writeback := rfl
@[simp] theorem State.setSeq_cells (s : State) (gb : Nat) (q : Seq) : (s.setSeq gb q).cells = s.cells := rfl
@[simp] theorem State.setSeq_accs (s : State) (gb : Nat) (q : Seq) : (s.setSeq gb q).accs = s.accs := rfl
@[simp] theorem State.setSeq_gated (s : State) (gb : Nat) (q : Seq) : (s.setSeq gb q).gated = s.gated := rfl
@[simp] theorem State.setSeq_poolBuf (s : State) (gb : Nat) (q : Seq) : (s.setSeq gb q).poolBuf = s.poolBuf := rfl
@[simp] theorem State.setSeq_metaRam (s : State) (gb : Nat) (q : Seq) : (s.setSeq gb q).metaRam = s.metaRam := rfl
@[simp] theorem State.setSeq_pots (s : State) (gb : Nat) (q : Seq) : (s.setSeq gb q).pots = s.pots := rfl
@[simp] theorem State.setSeq_sketch (s : State) (gb : Nat) (q : Seq) : (s.setSeq gb q).sketch = s.sketch := rfl
@[simp] theorem State.setSeq_pars (s : State) (gb : Nat) (q : Seq) : (s.setSeq gb q).pars = s.pars := rfl
@[simp] theorem State.setSeq_jackAcc (s : State) (gb : Nat) (q : Seq) : (s.setSeq gb q).jackAcc = s.jackAcc := rfl
@[simp] theorem State.setSeq_jacks (s : State) (gb : Nat) (q : Seq) : (s.setSeq gb q).jacks = s.jacks := rfl
@[simp] theorem State.setSeq_xfers (s : State) (gb : Nat) (q : Seq) : (s.setSeq gb q).xfers = s.xfers := rfl
@[simp] theorem State.setSeq_nextXfer (s : State) (gb : Nat) (q : Seq) : (s.setSeq gb q).nextXfer = s.nextXfer := rfl
@[simp] theorem State.setSeq_buckets (s : State) (gb : Nat) (q : Seq) : (s.setSeq gb q).buckets = s.buckets := rfl
@[simp] theorem State.setSeq_trackPtr (s : State) (gb : Nat) (q : Seq) : (s.setSeq gb q).trackPtr = s.trackPtr := rfl
@[simp] theorem State.setSeq_kibRem (s : State) (gb : Nat) (q : Seq) : (s.setSeq gb q).kibRem = s.kibRem := rfl
@[simp] theorem State.setSeq_remoteWait (s : State) (gb : Nat) (q : Seq) : (s.setSeq gb q).remoteWait = s.remoteWait := rfl
@[simp] theorem State.setSeq_pqOut (s : State) (gb : Nat) (q : Seq) : (s.setSeq gb q).pqOut = s.pqOut := rfl
@[simp] theorem State.setSeq_pqIn (s : State) (gb : Nat) (q : Seq) : (s.setSeq gb q).pqIn = s.pqIn := rfl
@[simp] theorem State.setSeq_producers (s : State) (gb : Nat) (q : Seq) : (s.setSeq gb q).producers = s.producers := rfl
@[simp] theorem State.setSeq_ringPos (s : State) (gb : Nat) (q : Seq) : (s.setSeq gb q).ringPos = s.ringPos := rfl
@[simp] theorem State.setSeq_tierPoison (s : State) (gb : Nat) (q : Seq) : (s.setSeq gb q).tierPoison = s.tierPoison := rfl
@[simp] theorem State.setSeq_clockOff (s : State) (gb : Nat) (q : Seq) : (s.setSeq gb q).clockOff = s.clockOff := rfl
@[simp] theorem State.setSeq_slowClock (s : State) (gb : Nat) (q : Seq) : (s.setSeq gb q).slowClock = s.slowClock := rfl
@[simp] theorem State.setSeq_cycleCtr (s : State) (gb : Nat) (q : Seq) : (s.setSeq gb q).cycleCtr = s.cycleCtr := rfl
@[simp] theorem State.setSeq_longSaid (s : State) (gb : Nat) (q : Seq) : (s.setSeq gb q).longSaid = s.longSaid := rfl
@[simp] theorem State.setSeq_bcGroups (s : State) (gb : Nat) (q : Seq) : (s.setSeq gb q).bcGroups = s.bcGroups := rfl
@[simp] theorem State.setSeq_txns (s : State) (gb : Nat) (q : Seq) : (s.setSeq gb q).txns = s.txns := rfl
@[simp] theorem State.setSeq_rtidQ (s : State) (gb : Nat) (q : Seq) : (s.setSeq gb q).rtidQ = s.rtidQ := rfl
@[simp] theorem State.setSeq_cache (s : State) (gb : Nat) (q : Seq) : (s.setSeq gb q).cache = s.cache := rfl
@[simp] theorem State.setSeq_genSeen (s : State) (gb : Nat) (q : Seq) : (s.setSeq gb q).genSeen = s.genSeen := rfl
@[simp] theorem State.setSeq_fseqIn (s : State) (gb : Nat) (q : Seq) : (s.setSeq gb q).fseqIn = s.fseqIn := rfl
@[simp] theorem State.setSeq_hdlData (s : State) (gb : Nat) (q : Seq) : (s.setSeq gb q).hdlData = s.hdlData := rfl
@[simp] theorem State.setSeq_fseqOut (s : State) (gb : Nat) (q : Seq) : (s.setSeq gb q).fseqOut = s.fseqOut := rfl
@[simp] theorem State.setSeq_fabUnreach (s : State) (gb : Nat) (q : Seq) : (s.setSeq gb q).fabUnreach = s.fabUnreach := rfl
@[simp] theorem State.setSeq_pkgUnreach (s : State) (gb : Nat) (q : Seq) : (s.setSeq gb q).pkgUnreach = s.pkgUnreach := rfl
@[simp] theorem State.setSeq_partGen (s : State) (gb : Nat) (q : Seq) : (s.setSeq gb q).partGen = s.partGen := rfl
@[simp] theorem State.setSeq_canes (s : State) (gb : Nat) (q : Seq) : (s.setSeq gb q).canes = s.canes := rfl
@[simp] theorem State.setSeq_inbox (s : State) (gb : Nat) (q : Seq) : (s.setSeq gb q).inbox = s.inbox := rfl
@[simp] theorem State.setSeq_potOff (s : State) (gb : Nat) (q : Seq) : (s.setSeq gb q).potOff = s.potOff := rfl
@[simp] theorem State.setSeq_pkgExcl (s : State) (gb : Nat) (q : Seq) : (s.setSeq gb q).pkgExcl = s.pkgExcl := rfl
@[simp] theorem State.setSeq_quotaSum (s : State) (gb : Nat) (q : Seq) : (s.setSeq gb q).quotaSum = s.quotaSum := rfl
@[simp] theorem State.setSeq_partSeed (s : State) (gb : Nat) (q : Seq) : (s.setSeq gb q).partSeed = s.partSeed := rfl
@[simp] theorem State.setSeq_power (s : State) (gb : Nat) (q : Seq) : (s.setSeq gb q).power = s.power := rfl
@[simp] theorem State.setSeq_load (s : State) (gb : Nat) (q : Seq) : (s.setSeq gb q).load = s.load := rfl
@[simp] theorem State.setSeq_imgDigest (s : State) (gb : Nat) (q : Seq) : (s.setSeq gb q).imgDigest = s.imgDigest := rfl
@[simp] theorem State.setSeq_keys (s : State) (gb : Nat) (q : Seq) : (s.setSeq gb q).keys = s.keys := rfl
@[simp] theorem State.setSeq_keyMin (s : State) (gb : Nat) (q : Seq) : (s.setSeq gb q).keyMin = s.keyMin := rfl
@[simp] theorem State.setSeq_keyCounter (s : State) (gb : Nat) (q : Seq) : (s.setSeq gb q).keyCounter = s.keyCounter := rfl
@[simp] theorem State.setSeq_banks (s : State) (gb : Nat) (q : Seq) : (s.setSeq gb q).banks = s.banks := rfl
@[simp] theorem State.setSeq_activeBank (s : State) (gb : Nat) (q : Seq) : (s.setSeq gb q).activeBank = s.activeBank := rfl
@[simp] theorem State.setSeq_altBanks (s : State) (gb : Nat) (q : Seq) : (s.setSeq gb q).altBanks = s.altBanks := rfl
@[simp] theorem State.setSeq_s8Wait (s : State) (gb : Nat) (q : Seq) : (s.setSeq gb q).s8Wait = s.s8Wait := rfl
@[simp] theorem State.setSeq_minSvn (s : State) (gb : Nat) (q : Seq) : (s.setSeq gb q).minSvn = s.minSvn := rfl
@[simp] theorem State.setSeq_fwPieces (s : State) (gb : Nat) (q : Seq) : (s.setSeq gb q).fwPieces = s.fwPieces := rfl
@[simp] theorem State.setSeq_ledger (s : State) (gb : Nat) (q : Seq) : (s.setSeq gb q).ledger = s.ledger := rfl
@[simp] theorem State.setSeq_restart (s : State) (gb : Nat) (q : Seq) : (s.setSeq gb q).restart = s.restart := rfl
@[simp] theorem State.setSeq_svRestarts (s : State) (gb : Nat) (q : Seq) : (s.setSeq gb q).svRestarts = s.svRestarts := rfl
@[simp] theorem State.setSeq_ready (s : State) (gb : Nat) (q : Seq) : (s.setSeq gb q).ready = s.ready := rfl
@[simp] theorem State.setSeq_wdFlag (s : State) (gb : Nat) (q : Seq) : (s.setSeq gb q).wdFlag = s.wdFlag := rfl
@[simp] theorem State.setSeq_wasReady (s : State) (gb : Nat) (q : Seq) : (s.setSeq gb q).wasReady = s.wasReady := rfl
@[simp] theorem State.setSeq_graceAt (s : State) (gb : Nat) (q : Seq) : (s.setSeq gb q).graceAt = s.graceAt := rfl
@[simp] theorem State.setSeq_pldmEvents (s : State) (gb : Nat) (q : Seq) : (s.setSeq gb q).pldmEvents = s.pldmEvents := rfl
@[simp] theorem State.setSeq_locWait (s : State) (gb : Nat) (q : Seq) : (s.setSeq gb q).locWait = s.locWait := rfl
@[simp] theorem State.setSeq_rackCap (s : State) (gb : Nat) (q : Seq) : (s.setSeq gb q).rackCap = s.rackCap := rfl
@[simp] theorem State.setSeq_fabCap (s : State) (gb : Nat) (q : Seq) : (s.setSeq gb q).fabCap = s.fabCap := rfl
@[simp] theorem State.setSeq_dies (s : State) (gb : Nat) (q : Seq) : (s.setSeq gb q).dies = s.dies := rfl
@[simp] theorem State.setSeq_inletHigh (s : State) (gb : Nat) (q : Seq) : (s.setSeq gb q).inletHigh = s.inletHigh := rfl
@[simp] theorem State.setSeq_vinOut (s : State) (gb : Nat) (q : Seq) : (s.setSeq gb q).vinOut = s.vinOut := rfl
@[simp] theorem State.setSeq_flowLow (s : State) (gb : Nat) (q : Seq) : (s.setSeq gb q).flowLow = s.flowLow := rfl
@[simp] theorem State.setSeq_swOpen (s : State) (gb : Nat) (q : Seq) : (s.setSeq gb q).swOpen = s.swOpen := rfl
@[simp] theorem State.setSeq_mbox (s : State) (gb : Nat) (q : Seq) : (s.setSeq gb q).mbox = s.mbox := rfl
@[simp] theorem State.setSeq_queues (s : State) (gb : Nat) (q : Seq) : (s.setSeq gb q).queues = s.queues := rfl
@[simp] theorem State.setSeq_msixTab (s : State) (gb : Nat) (q : Seq) : (s.setSeq gb q).msixTab = s.msixTab := rfl
@[simp] theorem State.setSeq_msixPend (s : State) (gb : Nat) (q : Seq) : (s.setSeq gb q).msixPend = s.msixPend := rfl

@[simp] theorem State.setSeqState_pkgEnds (s : State) (gb : Nat) (q : SeqState) : (s.setSeqState gb q).pkgEnds = s.pkgEnds := rfl
@[simp] theorem State.setSeqState_tierErr (s : State) (gb : Nat) (q : SeqState) : (s.setSeqState gb q).tierErr = s.tierErr := rfl
@[simp] theorem State.setSeqState_tierWb (s : State) (gb : Nat) (q : SeqState) : (s.setSeqState gb q).tierWb = s.tierWb := rfl
@[simp] theorem State.setSeqState_tierSpares (s : State) (gb : Nat) (q : SeqState) : (s.setSeqState gb q).tierSpares = s.tierSpares := rfl
@[simp] theorem State.setSeqState_scrubPos (s : State) (gb : Nat) (q : SeqState) : (s.setSeqState gb q).scrubPos = s.scrubPos := rfl
@[simp] theorem State.setSeqState_fabWait (s : State) (gb : Nat) (q : SeqState) : (s.setSeqState gb q).fabWait = s.fabWait := rfl
@[simp] theorem State.setSeqState_barSrc (s : State) (gb : Nat) (q : SeqState) : (s.setSeqState gb q).barSrc = s.barSrc := rfl
@[simp] theorem State.setSeqState_timeX (s : State) (gb : Nat) (q : SeqState) : (s.setSeqState gb q).timeX = s.timeX := rfl
@[simp] theorem State.setSeqState_rings (s : State) (gb : Nat) (q : SeqState) : (s.setSeqState gb q).rings = s.rings := rfl
@[simp] theorem State.setSeqState_pending (s : State) (gb : Nat) (q : SeqState) : (s.setSeqState gb q).pending = s.pending := rfl
@[simp] theorem State.setSeqState_freeCtr (s : State) (gb : Nat) (q : SeqState) : (s.setSeqState gb q).freeCtr = s.freeCtr := rfl
@[simp] theorem State.setSeqState_timeNs (s : State) (gb : Nat) (q : SeqState) : (s.setSeqState gb q).timeNs = s.timeNs := rfl
@[simp] theorem State.setSeqState_pastNs (s : State) (gb : Nat) (q : SeqState) : (s.setSeqState gb q).pastNs = s.pastNs := rfl
@[simp] theorem State.setSeqState_finBuf (s : State) (gb : Nat) (q : SeqState) : (s.setSeqState gb q).finBuf = s.finBuf := rfl
@[simp] theorem State.setSeqState_capt (s : State) (gb : Nat) (q : SeqState) : (s.setSeqState gb q).capt = s.capt := rfl
@[simp] theorem State.setSeqState_heldLo (s : State) (gb : Nat) (q : SeqState) : (s.setSeqState gb q).heldLo = s.heldLo := rfl
@[simp] theorem State.setSeqState_mem (s : State) (gb : Nat) (q : SeqState) : (s.setSeqState gb q).mem = s.mem := rfl
@[simp] theorem State.setSeqState_poison (s : State) (gb : Nat) (q : SeqState) : (s.setSeqState gb q).poison = s.poison := rfl
@[simp] theorem State.setSeqState_tags (s : State) (gb : Nat) (q : SeqState) : (s.setSeqState gb q).tags = s.tags := rfl
@[simp] theorem State.setSeqState_sregs (s : State) (gb : Nat) (q : SeqState) : (s.setSeqState gb q).sregs = s.sregs := rfl
@[simp] theorem State.setSeqState_walkRam (s : State) (gb : Nat) (q : SeqState) : (s.setSeqState gb q).walkRam = s.walkRam := rfl
@[simp] theorem State.setSeqState_seqs (s : State) (gb : Nat) (q : SeqState) : (s.setSeqState gb q).seqs = s.seqs := rfl
@[simp] theorem State.setSeqState_logical (s : State) (gb : Nat) (q : SeqState) : (s.setSeqState gb q).logical = s.logical := rfl
@[simp] theorem State.setSeqState_prng (s : State) (gb : Nat) (q : SeqState) : (s.setSeqState gb q).prng = s.prng := rfl
@[simp] theorem State.setSeqState_owner (s : State) (gb : Nat) (q : SeqState) : (s.setSeqState gb q).owner = s.owner := rfl
@[simp] theorem State.setSeqState_devRing (s : State) (gb : Nat) (q : SeqState) : (s.setSeqState gb q).devRing = s.devRing := rfl
@[simp] theorem State.setSeqState_devSeq (s : State) (gb : Nat) (q : SeqState) : (s.setSeqState gb q).devSeq = s.devSeq := rfl
@[simp] theorem State.setSeqState_ringReady (s : State) (gb : Nat) (q : SeqState) : (s.setSeqState gb q).ringReady = s.ringReady := rfl
@[simp] theorem State.setSeqState_heldRecs (s : State) (gb : Nat) (q : SeqState) : (s.setSeqState gb q).heldRecs = s.heldRecs := rfl
@[simp] theorem State.setSeqState_repeats (s : State) (gb : Nat) (q : SeqState) : (s.setSeqState gb q).repeats = s.repeats := rfl
@[simp] theorem State.setSeqState_ringOvf (s : State) (gb : Nat) (q : SeqState) : (s.setSeqState gb q).ringOvf = s.ringOvf := rfl
@[simp] theorem State.setSeqState_hostMem (s : State) (gb : Nat) (q : SeqState) : (s.setSeqState gb q).hostMem = s.hostMem := rfl
@[simp] theorem State.setSeqState_outbox (s : State) (gb : Nat) (q : SeqState) : (s.setSeqState gb q).outbox = s.outbox := rfl
@[simp] theorem State.setSeqState_readData (s : State) (gb : Nat) (q : SeqState) : (s.setSeqState gb q).readData = s.readData := rfl
@[simp] theorem State.setSeqState_waits (s : State) (gb : Nat) (q : SeqState) : (s.setSeqState gb q).waits = s.waits := rfl
@[simp] theorem State.setSeqState_writeback (s : State) (gb : Nat) (q : SeqState) : (s.setSeqState gb q).writeback = s.writeback := rfl
@[simp] theorem State.setSeqState_cells (s : State) (gb : Nat) (q : SeqState) : (s.setSeqState gb q).cells = s.cells := rfl
@[simp] theorem State.setSeqState_accs (s : State) (gb : Nat) (q : SeqState) : (s.setSeqState gb q).accs = s.accs := rfl
@[simp] theorem State.setSeqState_gated (s : State) (gb : Nat) (q : SeqState) : (s.setSeqState gb q).gated = s.gated := rfl
@[simp] theorem State.setSeqState_poolBuf (s : State) (gb : Nat) (q : SeqState) : (s.setSeqState gb q).poolBuf = s.poolBuf := rfl
@[simp] theorem State.setSeqState_metaRam (s : State) (gb : Nat) (q : SeqState) : (s.setSeqState gb q).metaRam = s.metaRam := rfl
@[simp] theorem State.setSeqState_pots (s : State) (gb : Nat) (q : SeqState) : (s.setSeqState gb q).pots = s.pots := rfl
@[simp] theorem State.setSeqState_sketch (s : State) (gb : Nat) (q : SeqState) : (s.setSeqState gb q).sketch = s.sketch := rfl
@[simp] theorem State.setSeqState_pars (s : State) (gb : Nat) (q : SeqState) : (s.setSeqState gb q).pars = s.pars := rfl
@[simp] theorem State.setSeqState_jackAcc (s : State) (gb : Nat) (q : SeqState) : (s.setSeqState gb q).jackAcc = s.jackAcc := rfl
@[simp] theorem State.setSeqState_jacks (s : State) (gb : Nat) (q : SeqState) : (s.setSeqState gb q).jacks = s.jacks := rfl
@[simp] theorem State.setSeqState_xfers (s : State) (gb : Nat) (q : SeqState) : (s.setSeqState gb q).xfers = s.xfers := rfl
@[simp] theorem State.setSeqState_nextXfer (s : State) (gb : Nat) (q : SeqState) : (s.setSeqState gb q).nextXfer = s.nextXfer := rfl
@[simp] theorem State.setSeqState_buckets (s : State) (gb : Nat) (q : SeqState) : (s.setSeqState gb q).buckets = s.buckets := rfl
@[simp] theorem State.setSeqState_trackPtr (s : State) (gb : Nat) (q : SeqState) : (s.setSeqState gb q).trackPtr = s.trackPtr := rfl
@[simp] theorem State.setSeqState_kibRem (s : State) (gb : Nat) (q : SeqState) : (s.setSeqState gb q).kibRem = s.kibRem := rfl
@[simp] theorem State.setSeqState_remoteWait (s : State) (gb : Nat) (q : SeqState) : (s.setSeqState gb q).remoteWait = s.remoteWait := rfl
@[simp] theorem State.setSeqState_pqOut (s : State) (gb : Nat) (q : SeqState) : (s.setSeqState gb q).pqOut = s.pqOut := rfl
@[simp] theorem State.setSeqState_pqIn (s : State) (gb : Nat) (q : SeqState) : (s.setSeqState gb q).pqIn = s.pqIn := rfl
@[simp] theorem State.setSeqState_producers (s : State) (gb : Nat) (q : SeqState) : (s.setSeqState gb q).producers = s.producers := rfl
@[simp] theorem State.setSeqState_ringPos (s : State) (gb : Nat) (q : SeqState) : (s.setSeqState gb q).ringPos = s.ringPos := rfl
@[simp] theorem State.setSeqState_tierPoison (s : State) (gb : Nat) (q : SeqState) : (s.setSeqState gb q).tierPoison = s.tierPoison := rfl
@[simp] theorem State.setSeqState_clockOff (s : State) (gb : Nat) (q : SeqState) : (s.setSeqState gb q).clockOff = s.clockOff := rfl
@[simp] theorem State.setSeqState_slowClock (s : State) (gb : Nat) (q : SeqState) : (s.setSeqState gb q).slowClock = s.slowClock := rfl
@[simp] theorem State.setSeqState_cycleCtr (s : State) (gb : Nat) (q : SeqState) : (s.setSeqState gb q).cycleCtr = s.cycleCtr := rfl
@[simp] theorem State.setSeqState_longSaid (s : State) (gb : Nat) (q : SeqState) : (s.setSeqState gb q).longSaid = s.longSaid := rfl
@[simp] theorem State.setSeqState_bcGroups (s : State) (gb : Nat) (q : SeqState) : (s.setSeqState gb q).bcGroups = s.bcGroups := rfl
@[simp] theorem State.setSeqState_txns (s : State) (gb : Nat) (q : SeqState) : (s.setSeqState gb q).txns = s.txns := rfl
@[simp] theorem State.setSeqState_rtidQ (s : State) (gb : Nat) (q : SeqState) : (s.setSeqState gb q).rtidQ = s.rtidQ := rfl
@[simp] theorem State.setSeqState_cache (s : State) (gb : Nat) (q : SeqState) : (s.setSeqState gb q).cache = s.cache := rfl
@[simp] theorem State.setSeqState_genSeen (s : State) (gb : Nat) (q : SeqState) : (s.setSeqState gb q).genSeen = s.genSeen := rfl
@[simp] theorem State.setSeqState_fseqIn (s : State) (gb : Nat) (q : SeqState) : (s.setSeqState gb q).fseqIn = s.fseqIn := rfl
@[simp] theorem State.setSeqState_hdlData (s : State) (gb : Nat) (q : SeqState) : (s.setSeqState gb q).hdlData = s.hdlData := rfl
@[simp] theorem State.setSeqState_fseqOut (s : State) (gb : Nat) (q : SeqState) : (s.setSeqState gb q).fseqOut = s.fseqOut := rfl
@[simp] theorem State.setSeqState_fabUnreach (s : State) (gb : Nat) (q : SeqState) : (s.setSeqState gb q).fabUnreach = s.fabUnreach := rfl
@[simp] theorem State.setSeqState_pkgUnreach (s : State) (gb : Nat) (q : SeqState) : (s.setSeqState gb q).pkgUnreach = s.pkgUnreach := rfl
@[simp] theorem State.setSeqState_partGen (s : State) (gb : Nat) (q : SeqState) : (s.setSeqState gb q).partGen = s.partGen := rfl
@[simp] theorem State.setSeqState_canes (s : State) (gb : Nat) (q : SeqState) : (s.setSeqState gb q).canes = s.canes := rfl
@[simp] theorem State.setSeqState_inbox (s : State) (gb : Nat) (q : SeqState) : (s.setSeqState gb q).inbox = s.inbox := rfl
@[simp] theorem State.setSeqState_potOff (s : State) (gb : Nat) (q : SeqState) : (s.setSeqState gb q).potOff = s.potOff := rfl
@[simp] theorem State.setSeqState_pkgExcl (s : State) (gb : Nat) (q : SeqState) : (s.setSeqState gb q).pkgExcl = s.pkgExcl := rfl
@[simp] theorem State.setSeqState_quotaSum (s : State) (gb : Nat) (q : SeqState) : (s.setSeqState gb q).quotaSum = s.quotaSum := rfl
@[simp] theorem State.setSeqState_partSeed (s : State) (gb : Nat) (q : SeqState) : (s.setSeqState gb q).partSeed = s.partSeed := rfl
@[simp] theorem State.setSeqState_power (s : State) (gb : Nat) (q : SeqState) : (s.setSeqState gb q).power = s.power := rfl
@[simp] theorem State.setSeqState_load (s : State) (gb : Nat) (q : SeqState) : (s.setSeqState gb q).load = s.load := rfl
@[simp] theorem State.setSeqState_imgDigest (s : State) (gb : Nat) (q : SeqState) : (s.setSeqState gb q).imgDigest = s.imgDigest := rfl
@[simp] theorem State.setSeqState_keys (s : State) (gb : Nat) (q : SeqState) : (s.setSeqState gb q).keys = s.keys := rfl
@[simp] theorem State.setSeqState_keyMin (s : State) (gb : Nat) (q : SeqState) : (s.setSeqState gb q).keyMin = s.keyMin := rfl
@[simp] theorem State.setSeqState_keyCounter (s : State) (gb : Nat) (q : SeqState) : (s.setSeqState gb q).keyCounter = s.keyCounter := rfl
@[simp] theorem State.setSeqState_banks (s : State) (gb : Nat) (q : SeqState) : (s.setSeqState gb q).banks = s.banks := rfl
@[simp] theorem State.setSeqState_activeBank (s : State) (gb : Nat) (q : SeqState) : (s.setSeqState gb q).activeBank = s.activeBank := rfl
@[simp] theorem State.setSeqState_altBanks (s : State) (gb : Nat) (q : SeqState) : (s.setSeqState gb q).altBanks = s.altBanks := rfl
@[simp] theorem State.setSeqState_s8Wait (s : State) (gb : Nat) (q : SeqState) : (s.setSeqState gb q).s8Wait = s.s8Wait := rfl
@[simp] theorem State.setSeqState_minSvn (s : State) (gb : Nat) (q : SeqState) : (s.setSeqState gb q).minSvn = s.minSvn := rfl
@[simp] theorem State.setSeqState_fwPieces (s : State) (gb : Nat) (q : SeqState) : (s.setSeqState gb q).fwPieces = s.fwPieces := rfl
@[simp] theorem State.setSeqState_ledger (s : State) (gb : Nat) (q : SeqState) : (s.setSeqState gb q).ledger = s.ledger := rfl
@[simp] theorem State.setSeqState_restart (s : State) (gb : Nat) (q : SeqState) : (s.setSeqState gb q).restart = s.restart := rfl
@[simp] theorem State.setSeqState_svRestarts (s : State) (gb : Nat) (q : SeqState) : (s.setSeqState gb q).svRestarts = s.svRestarts := rfl
@[simp] theorem State.setSeqState_ready (s : State) (gb : Nat) (q : SeqState) : (s.setSeqState gb q).ready = s.ready := rfl
@[simp] theorem State.setSeqState_wdFlag (s : State) (gb : Nat) (q : SeqState) : (s.setSeqState gb q).wdFlag = s.wdFlag := rfl
@[simp] theorem State.setSeqState_wasReady (s : State) (gb : Nat) (q : SeqState) : (s.setSeqState gb q).wasReady = s.wasReady := rfl
@[simp] theorem State.setSeqState_graceAt (s : State) (gb : Nat) (q : SeqState) : (s.setSeqState gb q).graceAt = s.graceAt := rfl
@[simp] theorem State.setSeqState_pldmEvents (s : State) (gb : Nat) (q : SeqState) : (s.setSeqState gb q).pldmEvents = s.pldmEvents := rfl
@[simp] theorem State.setSeqState_locWait (s : State) (gb : Nat) (q : SeqState) : (s.setSeqState gb q).locWait = s.locWait := rfl
@[simp] theorem State.setSeqState_rackCap (s : State) (gb : Nat) (q : SeqState) : (s.setSeqState gb q).rackCap = s.rackCap := rfl
@[simp] theorem State.setSeqState_fabCap (s : State) (gb : Nat) (q : SeqState) : (s.setSeqState gb q).fabCap = s.fabCap := rfl
@[simp] theorem State.setSeqState_dies (s : State) (gb : Nat) (q : SeqState) : (s.setSeqState gb q).dies = s.dies := rfl
@[simp] theorem State.setSeqState_inletHigh (s : State) (gb : Nat) (q : SeqState) : (s.setSeqState gb q).inletHigh = s.inletHigh := rfl
@[simp] theorem State.setSeqState_vinOut (s : State) (gb : Nat) (q : SeqState) : (s.setSeqState gb q).vinOut = s.vinOut := rfl
@[simp] theorem State.setSeqState_flowLow (s : State) (gb : Nat) (q : SeqState) : (s.setSeqState gb q).flowLow = s.flowLow := rfl
@[simp] theorem State.setSeqState_swOpen (s : State) (gb : Nat) (q : SeqState) : (s.setSeqState gb q).swOpen = s.swOpen := rfl
@[simp] theorem State.setSeqState_mbox (s : State) (gb : Nat) (q : SeqState) : (s.setSeqState gb q).mbox = s.mbox := rfl
@[simp] theorem State.setSeqState_queues (s : State) (gb : Nat) (q : SeqState) : (s.setSeqState gb q).queues = s.queues := rfl
@[simp] theorem State.setSeqState_msixTab (s : State) (gb : Nat) (q : SeqState) : (s.setSeqState gb q).msixTab = s.msixTab := rfl
@[simp] theorem State.setSeqState_msixPend (s : State) (gb : Nat) (q : SeqState) : (s.setSeqState gb q).msixPend = s.msixPend := rfl

@[simp] theorem State.store_pkgEnds (s : State) (a : Nat) (b : Byte) : (s.store a b).pkgEnds = s.pkgEnds := rfl
@[simp] theorem State.store_tierErr (s : State) (a : Nat) (b : Byte) : (s.store a b).tierErr = s.tierErr := rfl
@[simp] theorem State.store_tierWb (s : State) (a : Nat) (b : Byte) : (s.store a b).tierWb = s.tierWb := rfl
@[simp] theorem State.store_tierSpares (s : State) (a : Nat) (b : Byte) : (s.store a b).tierSpares = s.tierSpares := rfl
@[simp] theorem State.store_scrubPos (s : State) (a : Nat) (b : Byte) : (s.store a b).scrubPos = s.scrubPos := rfl
@[simp] theorem State.store_fabWait (s : State) (a : Nat) (b : Byte) : (s.store a b).fabWait = s.fabWait := rfl
@[simp] theorem State.store_barSrc (s : State) (a : Nat) (b : Byte) : (s.store a b).barSrc = s.barSrc := rfl
@[simp] theorem State.store_timeX (s : State) (a : Nat) (b : Byte) : (s.store a b).timeX = s.timeX := rfl
@[simp] theorem State.store_rings (s : State) (a : Nat) (b : Byte) : (s.store a b).rings = s.rings := rfl
@[simp] theorem State.store_pending (s : State) (a : Nat) (b : Byte) : (s.store a b).pending = s.pending := rfl
@[simp] theorem State.store_freeCtr (s : State) (a : Nat) (b : Byte) : (s.store a b).freeCtr = s.freeCtr := rfl
@[simp] theorem State.store_timeNs (s : State) (a : Nat) (b : Byte) : (s.store a b).timeNs = s.timeNs := rfl
@[simp] theorem State.store_pastNs (s : State) (a : Nat) (b : Byte) : (s.store a b).pastNs = s.pastNs := rfl
@[simp] theorem State.store_finBuf (s : State) (a : Nat) (b : Byte) : (s.store a b).finBuf = s.finBuf := rfl
@[simp] theorem State.store_regs (s : State) (a : Nat) (b : Byte) : (s.store a b).regs = s.regs := rfl
@[simp] theorem State.store_capt (s : State) (a : Nat) (b : Byte) : (s.store a b).capt = s.capt := rfl
@[simp] theorem State.store_heldLo (s : State) (a : Nat) (b : Byte) : (s.store a b).heldLo = s.heldLo := rfl
@[simp] theorem State.store_poison (s : State) (a : Nat) (b : Byte) : (s.store a b).poison = s.poison := rfl
@[simp] theorem State.store_tags (s : State) (a : Nat) (b : Byte) : (s.store a b).tags = s.tags := rfl
@[simp] theorem State.store_sregs (s : State) (a : Nat) (b : Byte) : (s.store a b).sregs = s.sregs := rfl
@[simp] theorem State.store_walkRam (s : State) (a : Nat) (b : Byte) : (s.store a b).walkRam = s.walkRam := rfl
@[simp] theorem State.store_seqs (s : State) (a : Nat) (b : Byte) : (s.store a b).seqs = s.seqs := rfl
@[simp] theorem State.store_logical (s : State) (a : Nat) (b : Byte) : (s.store a b).logical = s.logical := rfl
@[simp] theorem State.store_prng (s : State) (a : Nat) (b : Byte) : (s.store a b).prng = s.prng := rfl
@[simp] theorem State.store_owner (s : State) (a : Nat) (b : Byte) : (s.store a b).owner = s.owner := rfl
@[simp] theorem State.store_devRing (s : State) (a : Nat) (b : Byte) : (s.store a b).devRing = s.devRing := rfl
@[simp] theorem State.store_devSeq (s : State) (a : Nat) (b : Byte) : (s.store a b).devSeq = s.devSeq := rfl
@[simp] theorem State.store_ringReady (s : State) (a : Nat) (b : Byte) : (s.store a b).ringReady = s.ringReady := rfl
@[simp] theorem State.store_heldRecs (s : State) (a : Nat) (b : Byte) : (s.store a b).heldRecs = s.heldRecs := rfl
@[simp] theorem State.store_repeats (s : State) (a : Nat) (b : Byte) : (s.store a b).repeats = s.repeats := rfl
@[simp] theorem State.store_ringOvf (s : State) (a : Nat) (b : Byte) : (s.store a b).ringOvf = s.ringOvf := rfl
@[simp] theorem State.store_hostMem (s : State) (a : Nat) (b : Byte) : (s.store a b).hostMem = s.hostMem := rfl
@[simp] theorem State.store_outbox (s : State) (a : Nat) (b : Byte) : (s.store a b).outbox = s.outbox := rfl
@[simp] theorem State.store_readData (s : State) (a : Nat) (b : Byte) : (s.store a b).readData = s.readData := rfl
@[simp] theorem State.store_waits (s : State) (a : Nat) (b : Byte) : (s.store a b).waits = s.waits := rfl
@[simp] theorem State.store_writeback (s : State) (a : Nat) (b : Byte) : (s.store a b).writeback = s.writeback := rfl
@[simp] theorem State.store_cells (s : State) (a : Nat) (b : Byte) : (s.store a b).cells = s.cells := rfl
@[simp] theorem State.store_accs (s : State) (a : Nat) (b : Byte) : (s.store a b).accs = s.accs := rfl
@[simp] theorem State.store_gated (s : State) (a : Nat) (b : Byte) : (s.store a b).gated = s.gated := rfl
@[simp] theorem State.store_poolBuf (s : State) (a : Nat) (b : Byte) : (s.store a b).poolBuf = s.poolBuf := rfl
@[simp] theorem State.store_metaRam (s : State) (a : Nat) (b : Byte) : (s.store a b).metaRam = s.metaRam := rfl
@[simp] theorem State.store_pots (s : State) (a : Nat) (b : Byte) : (s.store a b).pots = s.pots := rfl
@[simp] theorem State.store_sketch (s : State) (a : Nat) (b : Byte) : (s.store a b).sketch = s.sketch := rfl
@[simp] theorem State.store_pars (s : State) (a : Nat) (b : Byte) : (s.store a b).pars = s.pars := rfl
@[simp] theorem State.store_jackAcc (s : State) (a : Nat) (b : Byte) : (s.store a b).jackAcc = s.jackAcc := rfl
@[simp] theorem State.store_jacks (s : State) (a : Nat) (b : Byte) : (s.store a b).jacks = s.jacks := rfl
@[simp] theorem State.store_xfers (s : State) (a : Nat) (b : Byte) : (s.store a b).xfers = s.xfers := rfl
@[simp] theorem State.store_nextXfer (s : State) (a : Nat) (b : Byte) : (s.store a b).nextXfer = s.nextXfer := rfl
@[simp] theorem State.store_buckets (s : State) (a : Nat) (b : Byte) : (s.store a b).buckets = s.buckets := rfl
@[simp] theorem State.store_trackPtr (s : State) (a : Nat) (b : Byte) : (s.store a b).trackPtr = s.trackPtr := rfl
@[simp] theorem State.store_kibRem (s : State) (a : Nat) (b : Byte) : (s.store a b).kibRem = s.kibRem := rfl
@[simp] theorem State.store_remoteWait (s : State) (a : Nat) (b : Byte) : (s.store a b).remoteWait = s.remoteWait := rfl
@[simp] theorem State.store_pqOut (s : State) (a : Nat) (b : Byte) : (s.store a b).pqOut = s.pqOut := rfl
@[simp] theorem State.store_pqIn (s : State) (a : Nat) (b : Byte) : (s.store a b).pqIn = s.pqIn := rfl
@[simp] theorem State.store_producers (s : State) (a : Nat) (b : Byte) : (s.store a b).producers = s.producers := rfl
@[simp] theorem State.store_ringPos (s : State) (a : Nat) (b : Byte) : (s.store a b).ringPos = s.ringPos := rfl
@[simp] theorem State.store_tierPoison (s : State) (a : Nat) (b : Byte) : (s.store a b).tierPoison = s.tierPoison := rfl
@[simp] theorem State.store_clockOff (s : State) (a : Nat) (b : Byte) : (s.store a b).clockOff = s.clockOff := rfl
@[simp] theorem State.store_slowClock (s : State) (a : Nat) (b : Byte) : (s.store a b).slowClock = s.slowClock := rfl
@[simp] theorem State.store_cycleCtr (s : State) (a : Nat) (b : Byte) : (s.store a b).cycleCtr = s.cycleCtr := rfl
@[simp] theorem State.store_longSaid (s : State) (a : Nat) (b : Byte) : (s.store a b).longSaid = s.longSaid := rfl
@[simp] theorem State.store_bcGroups (s : State) (a : Nat) (b : Byte) : (s.store a b).bcGroups = s.bcGroups := rfl
@[simp] theorem State.store_txns (s : State) (a : Nat) (b : Byte) : (s.store a b).txns = s.txns := rfl
@[simp] theorem State.store_rtidQ (s : State) (a : Nat) (b : Byte) : (s.store a b).rtidQ = s.rtidQ := rfl
@[simp] theorem State.store_cache (s : State) (a : Nat) (b : Byte) : (s.store a b).cache = s.cache := rfl
@[simp] theorem State.store_genSeen (s : State) (a : Nat) (b : Byte) : (s.store a b).genSeen = s.genSeen := rfl
@[simp] theorem State.store_fseqIn (s : State) (a : Nat) (b : Byte) : (s.store a b).fseqIn = s.fseqIn := rfl
@[simp] theorem State.store_hdlData (s : State) (a : Nat) (b : Byte) : (s.store a b).hdlData = s.hdlData := rfl
@[simp] theorem State.store_fseqOut (s : State) (a : Nat) (b : Byte) : (s.store a b).fseqOut = s.fseqOut := rfl
@[simp] theorem State.store_fabUnreach (s : State) (a : Nat) (b : Byte) : (s.store a b).fabUnreach = s.fabUnreach := rfl
@[simp] theorem State.store_pkgUnreach (s : State) (a : Nat) (b : Byte) : (s.store a b).pkgUnreach = s.pkgUnreach := rfl
@[simp] theorem State.store_partGen (s : State) (a : Nat) (b : Byte) : (s.store a b).partGen = s.partGen := rfl
@[simp] theorem State.store_canes (s : State) (a : Nat) (b : Byte) : (s.store a b).canes = s.canes := rfl
@[simp] theorem State.store_inbox (s : State) (a : Nat) (b : Byte) : (s.store a b).inbox = s.inbox := rfl
@[simp] theorem State.store_potOff (s : State) (a : Nat) (b : Byte) : (s.store a b).potOff = s.potOff := rfl
@[simp] theorem State.store_pkgExcl (s : State) (a : Nat) (b : Byte) : (s.store a b).pkgExcl = s.pkgExcl := rfl
@[simp] theorem State.store_quotaSum (s : State) (a : Nat) (b : Byte) : (s.store a b).quotaSum = s.quotaSum := rfl
@[simp] theorem State.store_partSeed (s : State) (a : Nat) (b : Byte) : (s.store a b).partSeed = s.partSeed := rfl
@[simp] theorem State.store_power (s : State) (a : Nat) (b : Byte) : (s.store a b).power = s.power := rfl
@[simp] theorem State.store_load (s : State) (a : Nat) (b : Byte) : (s.store a b).load = s.load := rfl
@[simp] theorem State.store_imgDigest (s : State) (a : Nat) (b : Byte) : (s.store a b).imgDigest = s.imgDigest := rfl
@[simp] theorem State.store_keys (s : State) (a : Nat) (b : Byte) : (s.store a b).keys = s.keys := rfl
@[simp] theorem State.store_keyMin (s : State) (a : Nat) (b : Byte) : (s.store a b).keyMin = s.keyMin := rfl
@[simp] theorem State.store_keyCounter (s : State) (a : Nat) (b : Byte) : (s.store a b).keyCounter = s.keyCounter := rfl
@[simp] theorem State.store_banks (s : State) (a : Nat) (b : Byte) : (s.store a b).banks = s.banks := rfl
@[simp] theorem State.store_activeBank (s : State) (a : Nat) (b : Byte) : (s.store a b).activeBank = s.activeBank := rfl
@[simp] theorem State.store_altBanks (s : State) (a : Nat) (b : Byte) : (s.store a b).altBanks = s.altBanks := rfl
@[simp] theorem State.store_s8Wait (s : State) (a : Nat) (b : Byte) : (s.store a b).s8Wait = s.s8Wait := rfl
@[simp] theorem State.store_minSvn (s : State) (a : Nat) (b : Byte) : (s.store a b).minSvn = s.minSvn := rfl
@[simp] theorem State.store_fwPieces (s : State) (a : Nat) (b : Byte) : (s.store a b).fwPieces = s.fwPieces := rfl
@[simp] theorem State.store_ledger (s : State) (a : Nat) (b : Byte) : (s.store a b).ledger = s.ledger := rfl
@[simp] theorem State.store_restart (s : State) (a : Nat) (b : Byte) : (s.store a b).restart = s.restart := rfl
@[simp] theorem State.store_svRestarts (s : State) (a : Nat) (b : Byte) : (s.store a b).svRestarts = s.svRestarts := rfl
@[simp] theorem State.store_ready (s : State) (a : Nat) (b : Byte) : (s.store a b).ready = s.ready := rfl
@[simp] theorem State.store_wdFlag (s : State) (a : Nat) (b : Byte) : (s.store a b).wdFlag = s.wdFlag := rfl
@[simp] theorem State.store_wasReady (s : State) (a : Nat) (b : Byte) : (s.store a b).wasReady = s.wasReady := rfl
@[simp] theorem State.store_graceAt (s : State) (a : Nat) (b : Byte) : (s.store a b).graceAt = s.graceAt := rfl
@[simp] theorem State.store_pldmEvents (s : State) (a : Nat) (b : Byte) : (s.store a b).pldmEvents = s.pldmEvents := rfl
@[simp] theorem State.store_locWait (s : State) (a : Nat) (b : Byte) : (s.store a b).locWait = s.locWait := rfl
@[simp] theorem State.store_rackCap (s : State) (a : Nat) (b : Byte) : (s.store a b).rackCap = s.rackCap := rfl
@[simp] theorem State.store_fabCap (s : State) (a : Nat) (b : Byte) : (s.store a b).fabCap = s.fabCap := rfl
@[simp] theorem State.store_dies (s : State) (a : Nat) (b : Byte) : (s.store a b).dies = s.dies := rfl
@[simp] theorem State.store_inletHigh (s : State) (a : Nat) (b : Byte) : (s.store a b).inletHigh = s.inletHigh := rfl
@[simp] theorem State.store_vinOut (s : State) (a : Nat) (b : Byte) : (s.store a b).vinOut = s.vinOut := rfl
@[simp] theorem State.store_flowLow (s : State) (a : Nat) (b : Byte) : (s.store a b).flowLow = s.flowLow := rfl
@[simp] theorem State.store_swOpen (s : State) (a : Nat) (b : Byte) : (s.store a b).swOpen = s.swOpen := rfl
@[simp] theorem State.store_mbox (s : State) (a : Nat) (b : Byte) : (s.store a b).mbox = s.mbox := rfl
@[simp] theorem State.store_queues (s : State) (a : Nat) (b : Byte) : (s.store a b).queues = s.queues := rfl
@[simp] theorem State.store_msixTab (s : State) (a : Nat) (b : Byte) : (s.store a b).msixTab = s.msixTab := rfl
@[simp] theorem State.store_msixPend (s : State) (a : Nat) (b : Byte) : (s.store a b).msixPend = s.msixPend := rfl

@[simp] theorem State.emit_pkgEnds (s : State) (m : OutMsg) : (s.emit m).pkgEnds = s.pkgEnds := rfl
@[simp] theorem State.emit_tierErr (s : State) (m : OutMsg) : (s.emit m).tierErr = s.tierErr := rfl
@[simp] theorem State.emit_tierWb (s : State) (m : OutMsg) : (s.emit m).tierWb = s.tierWb := rfl
@[simp] theorem State.emit_tierSpares (s : State) (m : OutMsg) : (s.emit m).tierSpares = s.tierSpares := rfl
@[simp] theorem State.emit_scrubPos (s : State) (m : OutMsg) : (s.emit m).scrubPos = s.scrubPos := rfl
@[simp] theorem State.emit_fabWait (s : State) (m : OutMsg) : (s.emit m).fabWait = s.fabWait := rfl
@[simp] theorem State.emit_barSrc (s : State) (m : OutMsg) : (s.emit m).barSrc = s.barSrc := rfl
@[simp] theorem State.emit_timeX (s : State) (m : OutMsg) : (s.emit m).timeX = s.timeX := rfl
@[simp] theorem State.emit_rings (s : State) (m : OutMsg) : (s.emit m).rings = s.rings := rfl
@[simp] theorem State.emit_pending (s : State) (m : OutMsg) : (s.emit m).pending = s.pending := rfl
@[simp] theorem State.emit_freeCtr (s : State) (m : OutMsg) : (s.emit m).freeCtr = s.freeCtr := rfl
@[simp] theorem State.emit_timeNs (s : State) (m : OutMsg) : (s.emit m).timeNs = s.timeNs := rfl
@[simp] theorem State.emit_pastNs (s : State) (m : OutMsg) : (s.emit m).pastNs = s.pastNs := rfl
@[simp] theorem State.emit_finBuf (s : State) (m : OutMsg) : (s.emit m).finBuf = s.finBuf := rfl
@[simp] theorem State.emit_regs (s : State) (m : OutMsg) : (s.emit m).regs = s.regs := rfl
@[simp] theorem State.emit_capt (s : State) (m : OutMsg) : (s.emit m).capt = s.capt := rfl
@[simp] theorem State.emit_heldLo (s : State) (m : OutMsg) : (s.emit m).heldLo = s.heldLo := rfl
@[simp] theorem State.emit_mem (s : State) (m : OutMsg) : (s.emit m).mem = s.mem := rfl
@[simp] theorem State.emit_poison (s : State) (m : OutMsg) : (s.emit m).poison = s.poison := rfl
@[simp] theorem State.emit_tags (s : State) (m : OutMsg) : (s.emit m).tags = s.tags := rfl
@[simp] theorem State.emit_sregs (s : State) (m : OutMsg) : (s.emit m).sregs = s.sregs := rfl
@[simp] theorem State.emit_walkRam (s : State) (m : OutMsg) : (s.emit m).walkRam = s.walkRam := rfl
@[simp] theorem State.emit_seqs (s : State) (m : OutMsg) : (s.emit m).seqs = s.seqs := rfl
@[simp] theorem State.emit_logical (s : State) (m : OutMsg) : (s.emit m).logical = s.logical := rfl
@[simp] theorem State.emit_prng (s : State) (m : OutMsg) : (s.emit m).prng = s.prng := rfl
@[simp] theorem State.emit_owner (s : State) (m : OutMsg) : (s.emit m).owner = s.owner := rfl
@[simp] theorem State.emit_devRing (s : State) (m : OutMsg) : (s.emit m).devRing = s.devRing := rfl
@[simp] theorem State.emit_devSeq (s : State) (m : OutMsg) : (s.emit m).devSeq = s.devSeq := rfl
@[simp] theorem State.emit_ringReady (s : State) (m : OutMsg) : (s.emit m).ringReady = s.ringReady := rfl
@[simp] theorem State.emit_heldRecs (s : State) (m : OutMsg) : (s.emit m).heldRecs = s.heldRecs := rfl
@[simp] theorem State.emit_repeats (s : State) (m : OutMsg) : (s.emit m).repeats = s.repeats := rfl
@[simp] theorem State.emit_ringOvf (s : State) (m : OutMsg) : (s.emit m).ringOvf = s.ringOvf := rfl
@[simp] theorem State.emit_hostMem (s : State) (m : OutMsg) : (s.emit m).hostMem = s.hostMem := rfl
@[simp] theorem State.emit_readData (s : State) (m : OutMsg) : (s.emit m).readData = s.readData := rfl
@[simp] theorem State.emit_waits (s : State) (m : OutMsg) : (s.emit m).waits = s.waits := rfl
@[simp] theorem State.emit_writeback (s : State) (m : OutMsg) : (s.emit m).writeback = s.writeback := rfl
@[simp] theorem State.emit_cells (s : State) (m : OutMsg) : (s.emit m).cells = s.cells := rfl
@[simp] theorem State.emit_accs (s : State) (m : OutMsg) : (s.emit m).accs = s.accs := rfl
@[simp] theorem State.emit_gated (s : State) (m : OutMsg) : (s.emit m).gated = s.gated := rfl
@[simp] theorem State.emit_poolBuf (s : State) (m : OutMsg) : (s.emit m).poolBuf = s.poolBuf := rfl
@[simp] theorem State.emit_metaRam (s : State) (m : OutMsg) : (s.emit m).metaRam = s.metaRam := rfl
@[simp] theorem State.emit_pots (s : State) (m : OutMsg) : (s.emit m).pots = s.pots := rfl
@[simp] theorem State.emit_sketch (s : State) (m : OutMsg) : (s.emit m).sketch = s.sketch := rfl
@[simp] theorem State.emit_pars (s : State) (m : OutMsg) : (s.emit m).pars = s.pars := rfl
@[simp] theorem State.emit_jackAcc (s : State) (m : OutMsg) : (s.emit m).jackAcc = s.jackAcc := rfl
@[simp] theorem State.emit_jacks (s : State) (m : OutMsg) : (s.emit m).jacks = s.jacks := rfl
@[simp] theorem State.emit_xfers (s : State) (m : OutMsg) : (s.emit m).xfers = s.xfers := rfl
@[simp] theorem State.emit_nextXfer (s : State) (m : OutMsg) : (s.emit m).nextXfer = s.nextXfer := rfl
@[simp] theorem State.emit_buckets (s : State) (m : OutMsg) : (s.emit m).buckets = s.buckets := rfl
@[simp] theorem State.emit_trackPtr (s : State) (m : OutMsg) : (s.emit m).trackPtr = s.trackPtr := rfl
@[simp] theorem State.emit_kibRem (s : State) (m : OutMsg) : (s.emit m).kibRem = s.kibRem := rfl
@[simp] theorem State.emit_remoteWait (s : State) (m : OutMsg) : (s.emit m).remoteWait = s.remoteWait := rfl
@[simp] theorem State.emit_pqOut (s : State) (m : OutMsg) : (s.emit m).pqOut = s.pqOut := rfl
@[simp] theorem State.emit_pqIn (s : State) (m : OutMsg) : (s.emit m).pqIn = s.pqIn := rfl
@[simp] theorem State.emit_producers (s : State) (m : OutMsg) : (s.emit m).producers = s.producers := rfl
@[simp] theorem State.emit_ringPos (s : State) (m : OutMsg) : (s.emit m).ringPos = s.ringPos := rfl
@[simp] theorem State.emit_tierPoison (s : State) (m : OutMsg) : (s.emit m).tierPoison = s.tierPoison := rfl
@[simp] theorem State.emit_clockOff (s : State) (m : OutMsg) : (s.emit m).clockOff = s.clockOff := rfl
@[simp] theorem State.emit_slowClock (s : State) (m : OutMsg) : (s.emit m).slowClock = s.slowClock := rfl
@[simp] theorem State.emit_cycleCtr (s : State) (m : OutMsg) : (s.emit m).cycleCtr = s.cycleCtr := rfl
@[simp] theorem State.emit_longSaid (s : State) (m : OutMsg) : (s.emit m).longSaid = s.longSaid := rfl
@[simp] theorem State.emit_bcGroups (s : State) (m : OutMsg) : (s.emit m).bcGroups = s.bcGroups := rfl
@[simp] theorem State.emit_txns (s : State) (m : OutMsg) : (s.emit m).txns = s.txns := rfl
@[simp] theorem State.emit_rtidQ (s : State) (m : OutMsg) : (s.emit m).rtidQ = s.rtidQ := rfl
@[simp] theorem State.emit_cache (s : State) (m : OutMsg) : (s.emit m).cache = s.cache := rfl
@[simp] theorem State.emit_genSeen (s : State) (m : OutMsg) : (s.emit m).genSeen = s.genSeen := rfl
@[simp] theorem State.emit_fseqIn (s : State) (m : OutMsg) : (s.emit m).fseqIn = s.fseqIn := rfl
@[simp] theorem State.emit_hdlData (s : State) (m : OutMsg) : (s.emit m).hdlData = s.hdlData := rfl
@[simp] theorem State.emit_fseqOut (s : State) (m : OutMsg) : (s.emit m).fseqOut = s.fseqOut := rfl
@[simp] theorem State.emit_fabUnreach (s : State) (m : OutMsg) : (s.emit m).fabUnreach = s.fabUnreach := rfl
@[simp] theorem State.emit_pkgUnreach (s : State) (m : OutMsg) : (s.emit m).pkgUnreach = s.pkgUnreach := rfl
@[simp] theorem State.emit_partGen (s : State) (m : OutMsg) : (s.emit m).partGen = s.partGen := rfl
@[simp] theorem State.emit_canes (s : State) (m : OutMsg) : (s.emit m).canes = s.canes := rfl
@[simp] theorem State.emit_inbox (s : State) (m : OutMsg) : (s.emit m).inbox = s.inbox := rfl
@[simp] theorem State.emit_potOff (s : State) (m : OutMsg) : (s.emit m).potOff = s.potOff := rfl
@[simp] theorem State.emit_pkgExcl (s : State) (m : OutMsg) : (s.emit m).pkgExcl = s.pkgExcl := rfl
@[simp] theorem State.emit_quotaSum (s : State) (m : OutMsg) : (s.emit m).quotaSum = s.quotaSum := rfl
@[simp] theorem State.emit_partSeed (s : State) (m : OutMsg) : (s.emit m).partSeed = s.partSeed := rfl
@[simp] theorem State.emit_power (s : State) (m : OutMsg) : (s.emit m).power = s.power := rfl
@[simp] theorem State.emit_load (s : State) (m : OutMsg) : (s.emit m).load = s.load := rfl
@[simp] theorem State.emit_imgDigest (s : State) (m : OutMsg) : (s.emit m).imgDigest = s.imgDigest := rfl
@[simp] theorem State.emit_keys (s : State) (m : OutMsg) : (s.emit m).keys = s.keys := rfl
@[simp] theorem State.emit_keyMin (s : State) (m : OutMsg) : (s.emit m).keyMin = s.keyMin := rfl
@[simp] theorem State.emit_keyCounter (s : State) (m : OutMsg) : (s.emit m).keyCounter = s.keyCounter := rfl
@[simp] theorem State.emit_banks (s : State) (m : OutMsg) : (s.emit m).banks = s.banks := rfl
@[simp] theorem State.emit_activeBank (s : State) (m : OutMsg) : (s.emit m).activeBank = s.activeBank := rfl
@[simp] theorem State.emit_altBanks (s : State) (m : OutMsg) : (s.emit m).altBanks = s.altBanks := rfl
@[simp] theorem State.emit_s8Wait (s : State) (m : OutMsg) : (s.emit m).s8Wait = s.s8Wait := rfl
@[simp] theorem State.emit_minSvn (s : State) (m : OutMsg) : (s.emit m).minSvn = s.minSvn := rfl
@[simp] theorem State.emit_fwPieces (s : State) (m : OutMsg) : (s.emit m).fwPieces = s.fwPieces := rfl
@[simp] theorem State.emit_ledger (s : State) (m : OutMsg) : (s.emit m).ledger = s.ledger := rfl
@[simp] theorem State.emit_restart (s : State) (m : OutMsg) : (s.emit m).restart = s.restart := rfl
@[simp] theorem State.emit_svRestarts (s : State) (m : OutMsg) : (s.emit m).svRestarts = s.svRestarts := rfl
@[simp] theorem State.emit_ready (s : State) (m : OutMsg) : (s.emit m).ready = s.ready := rfl
@[simp] theorem State.emit_wdFlag (s : State) (m : OutMsg) : (s.emit m).wdFlag = s.wdFlag := rfl
@[simp] theorem State.emit_wasReady (s : State) (m : OutMsg) : (s.emit m).wasReady = s.wasReady := rfl
@[simp] theorem State.emit_graceAt (s : State) (m : OutMsg) : (s.emit m).graceAt = s.graceAt := rfl
@[simp] theorem State.emit_pldmEvents (s : State) (m : OutMsg) : (s.emit m).pldmEvents = s.pldmEvents := rfl
@[simp] theorem State.emit_locWait (s : State) (m : OutMsg) : (s.emit m).locWait = s.locWait := rfl
@[simp] theorem State.emit_rackCap (s : State) (m : OutMsg) : (s.emit m).rackCap = s.rackCap := rfl
@[simp] theorem State.emit_fabCap (s : State) (m : OutMsg) : (s.emit m).fabCap = s.fabCap := rfl
@[simp] theorem State.emit_dies (s : State) (m : OutMsg) : (s.emit m).dies = s.dies := rfl
@[simp] theorem State.emit_inletHigh (s : State) (m : OutMsg) : (s.emit m).inletHigh = s.inletHigh := rfl
@[simp] theorem State.emit_vinOut (s : State) (m : OutMsg) : (s.emit m).vinOut = s.vinOut := rfl
@[simp] theorem State.emit_flowLow (s : State) (m : OutMsg) : (s.emit m).flowLow = s.flowLow := rfl
@[simp] theorem State.emit_swOpen (s : State) (m : OutMsg) : (s.emit m).swOpen = s.swOpen := rfl
@[simp] theorem State.emit_mbox (s : State) (m : OutMsg) : (s.emit m).mbox = s.mbox := rfl
@[simp] theorem State.emit_queues (s : State) (m : OutMsg) : (s.emit m).queues = s.queues := rfl
@[simp] theorem State.emit_msixTab (s : State) (m : OutMsg) : (s.emit m).msixTab = s.msixTab := rfl
@[simp] theorem State.emit_msixPend (s : State) (m : OutMsg) : (s.emit m).msixPend = s.msixPend := rfl

@[simp] theorem State.setTag_pkgEnds (s : State) (gb k : Nat) (v : Bool) : (s.setTag gb k v).pkgEnds = s.pkgEnds := rfl
@[simp] theorem State.setTag_tierErr (s : State) (gb k : Nat) (v : Bool) : (s.setTag gb k v).tierErr = s.tierErr := rfl
@[simp] theorem State.setTag_tierWb (s : State) (gb k : Nat) (v : Bool) : (s.setTag gb k v).tierWb = s.tierWb := rfl
@[simp] theorem State.setTag_tierSpares (s : State) (gb k : Nat) (v : Bool) : (s.setTag gb k v).tierSpares = s.tierSpares := rfl
@[simp] theorem State.setTag_scrubPos (s : State) (gb k : Nat) (v : Bool) : (s.setTag gb k v).scrubPos = s.scrubPos := rfl
@[simp] theorem State.setTag_fabWait (s : State) (gb k : Nat) (v : Bool) : (s.setTag gb k v).fabWait = s.fabWait := rfl
@[simp] theorem State.setTag_barSrc (s : State) (gb k : Nat) (v : Bool) : (s.setTag gb k v).barSrc = s.barSrc := rfl
@[simp] theorem State.setTag_timeX (s : State) (gb k : Nat) (v : Bool) : (s.setTag gb k v).timeX = s.timeX := rfl
@[simp] theorem State.setTag_rings (s : State) (gb k : Nat) (v : Bool) : (s.setTag gb k v).rings = s.rings := rfl
@[simp] theorem State.setTag_pending (s : State) (gb k : Nat) (v : Bool) : (s.setTag gb k v).pending = s.pending := rfl
@[simp] theorem State.setTag_freeCtr (s : State) (gb k : Nat) (v : Bool) : (s.setTag gb k v).freeCtr = s.freeCtr := rfl
@[simp] theorem State.setTag_timeNs (s : State) (gb k : Nat) (v : Bool) : (s.setTag gb k v).timeNs = s.timeNs := rfl
@[simp] theorem State.setTag_pastNs (s : State) (gb k : Nat) (v : Bool) : (s.setTag gb k v).pastNs = s.pastNs := rfl
@[simp] theorem State.setTag_finBuf (s : State) (gb k : Nat) (v : Bool) : (s.setTag gb k v).finBuf = s.finBuf := rfl
@[simp] theorem State.setTag_regs (s : State) (gb k : Nat) (v : Bool) : (s.setTag gb k v).regs = s.regs := rfl
@[simp] theorem State.setTag_capt (s : State) (gb k : Nat) (v : Bool) : (s.setTag gb k v).capt = s.capt := rfl
@[simp] theorem State.setTag_heldLo (s : State) (gb k : Nat) (v : Bool) : (s.setTag gb k v).heldLo = s.heldLo := rfl
@[simp] theorem State.setTag_mem (s : State) (gb k : Nat) (v : Bool) : (s.setTag gb k v).mem = s.mem := rfl
@[simp] theorem State.setTag_poison (s : State) (gb k : Nat) (v : Bool) : (s.setTag gb k v).poison = s.poison := rfl
@[simp] theorem State.setTag_sregs (s : State) (gb k : Nat) (v : Bool) : (s.setTag gb k v).sregs = s.sregs := rfl
@[simp] theorem State.setTag_walkRam (s : State) (gb k : Nat) (v : Bool) : (s.setTag gb k v).walkRam = s.walkRam := rfl
@[simp] theorem State.setTag_seqs (s : State) (gb k : Nat) (v : Bool) : (s.setTag gb k v).seqs = s.seqs := rfl
@[simp] theorem State.setTag_logical (s : State) (gb k : Nat) (v : Bool) : (s.setTag gb k v).logical = s.logical := rfl
@[simp] theorem State.setTag_prng (s : State) (gb k : Nat) (v : Bool) : (s.setTag gb k v).prng = s.prng := rfl
@[simp] theorem State.setTag_owner (s : State) (gb k : Nat) (v : Bool) : (s.setTag gb k v).owner = s.owner := rfl
@[simp] theorem State.setTag_devRing (s : State) (gb k : Nat) (v : Bool) : (s.setTag gb k v).devRing = s.devRing := rfl
@[simp] theorem State.setTag_devSeq (s : State) (gb k : Nat) (v : Bool) : (s.setTag gb k v).devSeq = s.devSeq := rfl
@[simp] theorem State.setTag_ringReady (s : State) (gb k : Nat) (v : Bool) : (s.setTag gb k v).ringReady = s.ringReady := rfl
@[simp] theorem State.setTag_heldRecs (s : State) (gb k : Nat) (v : Bool) : (s.setTag gb k v).heldRecs = s.heldRecs := rfl
@[simp] theorem State.setTag_repeats (s : State) (gb k : Nat) (v : Bool) : (s.setTag gb k v).repeats = s.repeats := rfl
@[simp] theorem State.setTag_ringOvf (s : State) (gb k : Nat) (v : Bool) : (s.setTag gb k v).ringOvf = s.ringOvf := rfl
@[simp] theorem State.setTag_hostMem (s : State) (gb k : Nat) (v : Bool) : (s.setTag gb k v).hostMem = s.hostMem := rfl
@[simp] theorem State.setTag_outbox (s : State) (gb k : Nat) (v : Bool) : (s.setTag gb k v).outbox = s.outbox := rfl
@[simp] theorem State.setTag_readData (s : State) (gb k : Nat) (v : Bool) : (s.setTag gb k v).readData = s.readData := rfl
@[simp] theorem State.setTag_waits (s : State) (gb k : Nat) (v : Bool) : (s.setTag gb k v).waits = s.waits := rfl
@[simp] theorem State.setTag_writeback (s : State) (gb k : Nat) (v : Bool) : (s.setTag gb k v).writeback = s.writeback := rfl
@[simp] theorem State.setTag_cells (s : State) (gb k : Nat) (v : Bool) : (s.setTag gb k v).cells = s.cells := rfl
@[simp] theorem State.setTag_accs (s : State) (gb k : Nat) (v : Bool) : (s.setTag gb k v).accs = s.accs := rfl
@[simp] theorem State.setTag_gated (s : State) (gb k : Nat) (v : Bool) : (s.setTag gb k v).gated = s.gated := rfl
@[simp] theorem State.setTag_poolBuf (s : State) (gb k : Nat) (v : Bool) : (s.setTag gb k v).poolBuf = s.poolBuf := rfl
@[simp] theorem State.setTag_metaRam (s : State) (gb k : Nat) (v : Bool) : (s.setTag gb k v).metaRam = s.metaRam := rfl
@[simp] theorem State.setTag_pots (s : State) (gb k : Nat) (v : Bool) : (s.setTag gb k v).pots = s.pots := rfl
@[simp] theorem State.setTag_sketch (s : State) (gb k : Nat) (v : Bool) : (s.setTag gb k v).sketch = s.sketch := rfl
@[simp] theorem State.setTag_pars (s : State) (gb k : Nat) (v : Bool) : (s.setTag gb k v).pars = s.pars := rfl
@[simp] theorem State.setTag_jackAcc (s : State) (gb k : Nat) (v : Bool) : (s.setTag gb k v).jackAcc = s.jackAcc := rfl
@[simp] theorem State.setTag_jacks (s : State) (gb k : Nat) (v : Bool) : (s.setTag gb k v).jacks = s.jacks := rfl
@[simp] theorem State.setTag_xfers (s : State) (gb k : Nat) (v : Bool) : (s.setTag gb k v).xfers = s.xfers := rfl
@[simp] theorem State.setTag_nextXfer (s : State) (gb k : Nat) (v : Bool) : (s.setTag gb k v).nextXfer = s.nextXfer := rfl
@[simp] theorem State.setTag_buckets (s : State) (gb k : Nat) (v : Bool) : (s.setTag gb k v).buckets = s.buckets := rfl
@[simp] theorem State.setTag_trackPtr (s : State) (gb k : Nat) (v : Bool) : (s.setTag gb k v).trackPtr = s.trackPtr := rfl
@[simp] theorem State.setTag_kibRem (s : State) (gb k : Nat) (v : Bool) : (s.setTag gb k v).kibRem = s.kibRem := rfl
@[simp] theorem State.setTag_remoteWait (s : State) (gb k : Nat) (v : Bool) : (s.setTag gb k v).remoteWait = s.remoteWait := rfl
@[simp] theorem State.setTag_pqOut (s : State) (gb k : Nat) (v : Bool) : (s.setTag gb k v).pqOut = s.pqOut := rfl
@[simp] theorem State.setTag_pqIn (s : State) (gb k : Nat) (v : Bool) : (s.setTag gb k v).pqIn = s.pqIn := rfl
@[simp] theorem State.setTag_producers (s : State) (gb k : Nat) (v : Bool) : (s.setTag gb k v).producers = s.producers := rfl
@[simp] theorem State.setTag_ringPos (s : State) (gb k : Nat) (v : Bool) : (s.setTag gb k v).ringPos = s.ringPos := rfl
@[simp] theorem State.setTag_tierPoison (s : State) (gb k : Nat) (v : Bool) : (s.setTag gb k v).tierPoison = s.tierPoison := rfl
@[simp] theorem State.setTag_clockOff (s : State) (gb k : Nat) (v : Bool) : (s.setTag gb k v).clockOff = s.clockOff := rfl
@[simp] theorem State.setTag_slowClock (s : State) (gb k : Nat) (v : Bool) : (s.setTag gb k v).slowClock = s.slowClock := rfl
@[simp] theorem State.setTag_cycleCtr (s : State) (gb k : Nat) (v : Bool) : (s.setTag gb k v).cycleCtr = s.cycleCtr := rfl
@[simp] theorem State.setTag_longSaid (s : State) (gb k : Nat) (v : Bool) : (s.setTag gb k v).longSaid = s.longSaid := rfl
@[simp] theorem State.setTag_bcGroups (s : State) (gb k : Nat) (v : Bool) : (s.setTag gb k v).bcGroups = s.bcGroups := rfl
@[simp] theorem State.setTag_txns (s : State) (gb k : Nat) (v : Bool) : (s.setTag gb k v).txns = s.txns := rfl
@[simp] theorem State.setTag_rtidQ (s : State) (gb k : Nat) (v : Bool) : (s.setTag gb k v).rtidQ = s.rtidQ := rfl
@[simp] theorem State.setTag_cache (s : State) (gb k : Nat) (v : Bool) : (s.setTag gb k v).cache = s.cache := rfl
@[simp] theorem State.setTag_genSeen (s : State) (gb k : Nat) (v : Bool) : (s.setTag gb k v).genSeen = s.genSeen := rfl
@[simp] theorem State.setTag_fseqIn (s : State) (gb k : Nat) (v : Bool) : (s.setTag gb k v).fseqIn = s.fseqIn := rfl
@[simp] theorem State.setTag_hdlData (s : State) (gb k : Nat) (v : Bool) : (s.setTag gb k v).hdlData = s.hdlData := rfl
@[simp] theorem State.setTag_fseqOut (s : State) (gb k : Nat) (v : Bool) : (s.setTag gb k v).fseqOut = s.fseqOut := rfl
@[simp] theorem State.setTag_fabUnreach (s : State) (gb k : Nat) (v : Bool) : (s.setTag gb k v).fabUnreach = s.fabUnreach := rfl
@[simp] theorem State.setTag_pkgUnreach (s : State) (gb k : Nat) (v : Bool) : (s.setTag gb k v).pkgUnreach = s.pkgUnreach := rfl
@[simp] theorem State.setTag_partGen (s : State) (gb k : Nat) (v : Bool) : (s.setTag gb k v).partGen = s.partGen := rfl
@[simp] theorem State.setTag_canes (s : State) (gb k : Nat) (v : Bool) : (s.setTag gb k v).canes = s.canes := rfl
@[simp] theorem State.setTag_inbox (s : State) (gb k : Nat) (v : Bool) : (s.setTag gb k v).inbox = s.inbox := rfl
@[simp] theorem State.setTag_potOff (s : State) (gb k : Nat) (v : Bool) : (s.setTag gb k v).potOff = s.potOff := rfl
@[simp] theorem State.setTag_pkgExcl (s : State) (gb k : Nat) (v : Bool) : (s.setTag gb k v).pkgExcl = s.pkgExcl := rfl
@[simp] theorem State.setTag_quotaSum (s : State) (gb k : Nat) (v : Bool) : (s.setTag gb k v).quotaSum = s.quotaSum := rfl
@[simp] theorem State.setTag_partSeed (s : State) (gb k : Nat) (v : Bool) : (s.setTag gb k v).partSeed = s.partSeed := rfl
@[simp] theorem State.setTag_power (s : State) (gb k : Nat) (v : Bool) : (s.setTag gb k v).power = s.power := rfl
@[simp] theorem State.setTag_load (s : State) (gb k : Nat) (v : Bool) : (s.setTag gb k v).load = s.load := rfl
@[simp] theorem State.setTag_imgDigest (s : State) (gb k : Nat) (v : Bool) : (s.setTag gb k v).imgDigest = s.imgDigest := rfl
@[simp] theorem State.setTag_keys (s : State) (gb k : Nat) (v : Bool) : (s.setTag gb k v).keys = s.keys := rfl
@[simp] theorem State.setTag_keyMin (s : State) (gb k : Nat) (v : Bool) : (s.setTag gb k v).keyMin = s.keyMin := rfl
@[simp] theorem State.setTag_keyCounter (s : State) (gb k : Nat) (v : Bool) : (s.setTag gb k v).keyCounter = s.keyCounter := rfl
@[simp] theorem State.setTag_banks (s : State) (gb k : Nat) (v : Bool) : (s.setTag gb k v).banks = s.banks := rfl
@[simp] theorem State.setTag_activeBank (s : State) (gb k : Nat) (v : Bool) : (s.setTag gb k v).activeBank = s.activeBank := rfl
@[simp] theorem State.setTag_altBanks (s : State) (gb k : Nat) (v : Bool) : (s.setTag gb k v).altBanks = s.altBanks := rfl
@[simp] theorem State.setTag_s8Wait (s : State) (gb k : Nat) (v : Bool) : (s.setTag gb k v).s8Wait = s.s8Wait := rfl
@[simp] theorem State.setTag_minSvn (s : State) (gb k : Nat) (v : Bool) : (s.setTag gb k v).minSvn = s.minSvn := rfl
@[simp] theorem State.setTag_fwPieces (s : State) (gb k : Nat) (v : Bool) : (s.setTag gb k v).fwPieces = s.fwPieces := rfl
@[simp] theorem State.setTag_ledger (s : State) (gb k : Nat) (v : Bool) : (s.setTag gb k v).ledger = s.ledger := rfl
@[simp] theorem State.setTag_restart (s : State) (gb k : Nat) (v : Bool) : (s.setTag gb k v).restart = s.restart := rfl
@[simp] theorem State.setTag_svRestarts (s : State) (gb k : Nat) (v : Bool) : (s.setTag gb k v).svRestarts = s.svRestarts := rfl
@[simp] theorem State.setTag_ready (s : State) (gb k : Nat) (v : Bool) : (s.setTag gb k v).ready = s.ready := rfl
@[simp] theorem State.setTag_wdFlag (s : State) (gb k : Nat) (v : Bool) : (s.setTag gb k v).wdFlag = s.wdFlag := rfl
@[simp] theorem State.setTag_wasReady (s : State) (gb k : Nat) (v : Bool) : (s.setTag gb k v).wasReady = s.wasReady := rfl
@[simp] theorem State.setTag_graceAt (s : State) (gb k : Nat) (v : Bool) : (s.setTag gb k v).graceAt = s.graceAt := rfl
@[simp] theorem State.setTag_pldmEvents (s : State) (gb k : Nat) (v : Bool) : (s.setTag gb k v).pldmEvents = s.pldmEvents := rfl
@[simp] theorem State.setTag_locWait (s : State) (gb k : Nat) (v : Bool) : (s.setTag gb k v).locWait = s.locWait := rfl
@[simp] theorem State.setTag_rackCap (s : State) (gb k : Nat) (v : Bool) : (s.setTag gb k v).rackCap = s.rackCap := rfl
@[simp] theorem State.setTag_fabCap (s : State) (gb k : Nat) (v : Bool) : (s.setTag gb k v).fabCap = s.fabCap := rfl
@[simp] theorem State.setTag_dies (s : State) (gb k : Nat) (v : Bool) : (s.setTag gb k v).dies = s.dies := rfl
@[simp] theorem State.setTag_inletHigh (s : State) (gb k : Nat) (v : Bool) : (s.setTag gb k v).inletHigh = s.inletHigh := rfl
@[simp] theorem State.setTag_vinOut (s : State) (gb k : Nat) (v : Bool) : (s.setTag gb k v).vinOut = s.vinOut := rfl
@[simp] theorem State.setTag_flowLow (s : State) (gb k : Nat) (v : Bool) : (s.setTag gb k v).flowLow = s.flowLow := rfl
@[simp] theorem State.setTag_swOpen (s : State) (gb k : Nat) (v : Bool) : (s.setTag gb k v).swOpen = s.swOpen := rfl
@[simp] theorem State.setTag_mbox (s : State) (gb k : Nat) (v : Bool) : (s.setTag gb k v).mbox = s.mbox := rfl
@[simp] theorem State.setTag_queues (s : State) (gb k : Nat) (v : Bool) : (s.setTag gb k v).queues = s.queues := rfl
@[simp] theorem State.setTag_msixTab (s : State) (gb k : Nat) (v : Bool) : (s.setTag gb k v).msixTab = s.msixTab := rfl
@[simp] theorem State.setTag_msixPend (s : State) (gb k : Nat) (v : Bool) : (s.setTag gb k v).msixPend = s.msixPend := rfl

@[simp] theorem State.setPrng_pkgEnds (s : State) (gb k : Nat) (x : DWord) : (s.setPrng gb k x).pkgEnds = s.pkgEnds := rfl
@[simp] theorem State.setPrng_tierErr (s : State) (gb k : Nat) (x : DWord) : (s.setPrng gb k x).tierErr = s.tierErr := rfl
@[simp] theorem State.setPrng_tierWb (s : State) (gb k : Nat) (x : DWord) : (s.setPrng gb k x).tierWb = s.tierWb := rfl
@[simp] theorem State.setPrng_tierSpares (s : State) (gb k : Nat) (x : DWord) : (s.setPrng gb k x).tierSpares = s.tierSpares := rfl
@[simp] theorem State.setPrng_scrubPos (s : State) (gb k : Nat) (x : DWord) : (s.setPrng gb k x).scrubPos = s.scrubPos := rfl
@[simp] theorem State.setPrng_fabWait (s : State) (gb k : Nat) (x : DWord) : (s.setPrng gb k x).fabWait = s.fabWait := rfl
@[simp] theorem State.setPrng_barSrc (s : State) (gb k : Nat) (x : DWord) : (s.setPrng gb k x).barSrc = s.barSrc := rfl
@[simp] theorem State.setPrng_timeX (s : State) (gb k : Nat) (x : DWord) : (s.setPrng gb k x).timeX = s.timeX := rfl
@[simp] theorem State.setPrng_rings (s : State) (gb k : Nat) (x : DWord) : (s.setPrng gb k x).rings = s.rings := rfl
@[simp] theorem State.setPrng_pending (s : State) (gb k : Nat) (x : DWord) : (s.setPrng gb k x).pending = s.pending := rfl
@[simp] theorem State.setPrng_freeCtr (s : State) (gb k : Nat) (x : DWord) : (s.setPrng gb k x).freeCtr = s.freeCtr := rfl
@[simp] theorem State.setPrng_timeNs (s : State) (gb k : Nat) (x : DWord) : (s.setPrng gb k x).timeNs = s.timeNs := rfl
@[simp] theorem State.setPrng_pastNs (s : State) (gb k : Nat) (x : DWord) : (s.setPrng gb k x).pastNs = s.pastNs := rfl
@[simp] theorem State.setPrng_finBuf (s : State) (gb k : Nat) (x : DWord) : (s.setPrng gb k x).finBuf = s.finBuf := rfl
@[simp] theorem State.setPrng_regs (s : State) (gb k : Nat) (x : DWord) : (s.setPrng gb k x).regs = s.regs := rfl
@[simp] theorem State.setPrng_capt (s : State) (gb k : Nat) (x : DWord) : (s.setPrng gb k x).capt = s.capt := rfl
@[simp] theorem State.setPrng_heldLo (s : State) (gb k : Nat) (x : DWord) : (s.setPrng gb k x).heldLo = s.heldLo := rfl
@[simp] theorem State.setPrng_mem (s : State) (gb k : Nat) (x : DWord) : (s.setPrng gb k x).mem = s.mem := rfl
@[simp] theorem State.setPrng_poison (s : State) (gb k : Nat) (x : DWord) : (s.setPrng gb k x).poison = s.poison := rfl
@[simp] theorem State.setPrng_tags (s : State) (gb k : Nat) (x : DWord) : (s.setPrng gb k x).tags = s.tags := rfl
@[simp] theorem State.setPrng_sregs (s : State) (gb k : Nat) (x : DWord) : (s.setPrng gb k x).sregs = s.sregs := rfl
@[simp] theorem State.setPrng_walkRam (s : State) (gb k : Nat) (x : DWord) : (s.setPrng gb k x).walkRam = s.walkRam := rfl
@[simp] theorem State.setPrng_seqs (s : State) (gb k : Nat) (x : DWord) : (s.setPrng gb k x).seqs = s.seqs := rfl
@[simp] theorem State.setPrng_logical (s : State) (gb k : Nat) (x : DWord) : (s.setPrng gb k x).logical = s.logical := rfl
@[simp] theorem State.setPrng_owner (s : State) (gb k : Nat) (x : DWord) : (s.setPrng gb k x).owner = s.owner := rfl
@[simp] theorem State.setPrng_devRing (s : State) (gb k : Nat) (x : DWord) : (s.setPrng gb k x).devRing = s.devRing := rfl
@[simp] theorem State.setPrng_devSeq (s : State) (gb k : Nat) (x : DWord) : (s.setPrng gb k x).devSeq = s.devSeq := rfl
@[simp] theorem State.setPrng_ringReady (s : State) (gb k : Nat) (x : DWord) : (s.setPrng gb k x).ringReady = s.ringReady := rfl
@[simp] theorem State.setPrng_heldRecs (s : State) (gb k : Nat) (x : DWord) : (s.setPrng gb k x).heldRecs = s.heldRecs := rfl
@[simp] theorem State.setPrng_repeats (s : State) (gb k : Nat) (x : DWord) : (s.setPrng gb k x).repeats = s.repeats := rfl
@[simp] theorem State.setPrng_ringOvf (s : State) (gb k : Nat) (x : DWord) : (s.setPrng gb k x).ringOvf = s.ringOvf := rfl
@[simp] theorem State.setPrng_hostMem (s : State) (gb k : Nat) (x : DWord) : (s.setPrng gb k x).hostMem = s.hostMem := rfl
@[simp] theorem State.setPrng_outbox (s : State) (gb k : Nat) (x : DWord) : (s.setPrng gb k x).outbox = s.outbox := rfl
@[simp] theorem State.setPrng_readData (s : State) (gb k : Nat) (x : DWord) : (s.setPrng gb k x).readData = s.readData := rfl
@[simp] theorem State.setPrng_waits (s : State) (gb k : Nat) (x : DWord) : (s.setPrng gb k x).waits = s.waits := rfl
@[simp] theorem State.setPrng_writeback (s : State) (gb k : Nat) (x : DWord) : (s.setPrng gb k x).writeback = s.writeback := rfl
@[simp] theorem State.setPrng_cells (s : State) (gb k : Nat) (x : DWord) : (s.setPrng gb k x).cells = s.cells := rfl
@[simp] theorem State.setPrng_accs (s : State) (gb k : Nat) (x : DWord) : (s.setPrng gb k x).accs = s.accs := rfl
@[simp] theorem State.setPrng_gated (s : State) (gb k : Nat) (x : DWord) : (s.setPrng gb k x).gated = s.gated := rfl
@[simp] theorem State.setPrng_poolBuf (s : State) (gb k : Nat) (x : DWord) : (s.setPrng gb k x).poolBuf = s.poolBuf := rfl
@[simp] theorem State.setPrng_metaRam (s : State) (gb k : Nat) (x : DWord) : (s.setPrng gb k x).metaRam = s.metaRam := rfl
@[simp] theorem State.setPrng_pots (s : State) (gb k : Nat) (x : DWord) : (s.setPrng gb k x).pots = s.pots := rfl
@[simp] theorem State.setPrng_sketch (s : State) (gb k : Nat) (x : DWord) : (s.setPrng gb k x).sketch = s.sketch := rfl
@[simp] theorem State.setPrng_pars (s : State) (gb k : Nat) (x : DWord) : (s.setPrng gb k x).pars = s.pars := rfl
@[simp] theorem State.setPrng_jackAcc (s : State) (gb k : Nat) (x : DWord) : (s.setPrng gb k x).jackAcc = s.jackAcc := rfl
@[simp] theorem State.setPrng_jacks (s : State) (gb k : Nat) (x : DWord) : (s.setPrng gb k x).jacks = s.jacks := rfl
@[simp] theorem State.setPrng_xfers (s : State) (gb k : Nat) (x : DWord) : (s.setPrng gb k x).xfers = s.xfers := rfl
@[simp] theorem State.setPrng_nextXfer (s : State) (gb k : Nat) (x : DWord) : (s.setPrng gb k x).nextXfer = s.nextXfer := rfl
@[simp] theorem State.setPrng_buckets (s : State) (gb k : Nat) (x : DWord) : (s.setPrng gb k x).buckets = s.buckets := rfl
@[simp] theorem State.setPrng_trackPtr (s : State) (gb k : Nat) (x : DWord) : (s.setPrng gb k x).trackPtr = s.trackPtr := rfl
@[simp] theorem State.setPrng_kibRem (s : State) (gb k : Nat) (x : DWord) : (s.setPrng gb k x).kibRem = s.kibRem := rfl
@[simp] theorem State.setPrng_remoteWait (s : State) (gb k : Nat) (x : DWord) : (s.setPrng gb k x).remoteWait = s.remoteWait := rfl
@[simp] theorem State.setPrng_pqOut (s : State) (gb k : Nat) (x : DWord) : (s.setPrng gb k x).pqOut = s.pqOut := rfl
@[simp] theorem State.setPrng_pqIn (s : State) (gb k : Nat) (x : DWord) : (s.setPrng gb k x).pqIn = s.pqIn := rfl
@[simp] theorem State.setPrng_producers (s : State) (gb k : Nat) (x : DWord) : (s.setPrng gb k x).producers = s.producers := rfl
@[simp] theorem State.setPrng_ringPos (s : State) (gb k : Nat) (x : DWord) : (s.setPrng gb k x).ringPos = s.ringPos := rfl
@[simp] theorem State.setPrng_tierPoison (s : State) (gb k : Nat) (x : DWord) : (s.setPrng gb k x).tierPoison = s.tierPoison := rfl
@[simp] theorem State.setPrng_clockOff (s : State) (gb k : Nat) (x : DWord) : (s.setPrng gb k x).clockOff = s.clockOff := rfl
@[simp] theorem State.setPrng_slowClock (s : State) (gb k : Nat) (x : DWord) : (s.setPrng gb k x).slowClock = s.slowClock := rfl
@[simp] theorem State.setPrng_cycleCtr (s : State) (gb k : Nat) (x : DWord) : (s.setPrng gb k x).cycleCtr = s.cycleCtr := rfl
@[simp] theorem State.setPrng_longSaid (s : State) (gb k : Nat) (x : DWord) : (s.setPrng gb k x).longSaid = s.longSaid := rfl
@[simp] theorem State.setPrng_bcGroups (s : State) (gb k : Nat) (x : DWord) : (s.setPrng gb k x).bcGroups = s.bcGroups := rfl
@[simp] theorem State.setPrng_txns (s : State) (gb k : Nat) (x : DWord) : (s.setPrng gb k x).txns = s.txns := rfl
@[simp] theorem State.setPrng_rtidQ (s : State) (gb k : Nat) (x : DWord) : (s.setPrng gb k x).rtidQ = s.rtidQ := rfl
@[simp] theorem State.setPrng_cache (s : State) (gb k : Nat) (x : DWord) : (s.setPrng gb k x).cache = s.cache := rfl
@[simp] theorem State.setPrng_genSeen (s : State) (gb k : Nat) (x : DWord) : (s.setPrng gb k x).genSeen = s.genSeen := rfl
@[simp] theorem State.setPrng_fseqIn (s : State) (gb k : Nat) (x : DWord) : (s.setPrng gb k x).fseqIn = s.fseqIn := rfl
@[simp] theorem State.setPrng_hdlData (s : State) (gb k : Nat) (x : DWord) : (s.setPrng gb k x).hdlData = s.hdlData := rfl
@[simp] theorem State.setPrng_fseqOut (s : State) (gb k : Nat) (x : DWord) : (s.setPrng gb k x).fseqOut = s.fseqOut := rfl
@[simp] theorem State.setPrng_fabUnreach (s : State) (gb k : Nat) (x : DWord) : (s.setPrng gb k x).fabUnreach = s.fabUnreach := rfl
@[simp] theorem State.setPrng_pkgUnreach (s : State) (gb k : Nat) (x : DWord) : (s.setPrng gb k x).pkgUnreach = s.pkgUnreach := rfl
@[simp] theorem State.setPrng_partGen (s : State) (gb k : Nat) (x : DWord) : (s.setPrng gb k x).partGen = s.partGen := rfl
@[simp] theorem State.setPrng_canes (s : State) (gb k : Nat) (x : DWord) : (s.setPrng gb k x).canes = s.canes := rfl
@[simp] theorem State.setPrng_inbox (s : State) (gb k : Nat) (x : DWord) : (s.setPrng gb k x).inbox = s.inbox := rfl
@[simp] theorem State.setPrng_potOff (s : State) (gb k : Nat) (x : DWord) : (s.setPrng gb k x).potOff = s.potOff := rfl
@[simp] theorem State.setPrng_pkgExcl (s : State) (gb k : Nat) (x : DWord) : (s.setPrng gb k x).pkgExcl = s.pkgExcl := rfl
@[simp] theorem State.setPrng_quotaSum (s : State) (gb k : Nat) (x : DWord) : (s.setPrng gb k x).quotaSum = s.quotaSum := rfl
@[simp] theorem State.setPrng_partSeed (s : State) (gb k : Nat) (x : DWord) : (s.setPrng gb k x).partSeed = s.partSeed := rfl
@[simp] theorem State.setPrng_power (s : State) (gb k : Nat) (x : DWord) : (s.setPrng gb k x).power = s.power := rfl
@[simp] theorem State.setPrng_load (s : State) (gb k : Nat) (x : DWord) : (s.setPrng gb k x).load = s.load := rfl
@[simp] theorem State.setPrng_imgDigest (s : State) (gb k : Nat) (x : DWord) : (s.setPrng gb k x).imgDigest = s.imgDigest := rfl
@[simp] theorem State.setPrng_keys (s : State) (gb k : Nat) (x : DWord) : (s.setPrng gb k x).keys = s.keys := rfl
@[simp] theorem State.setPrng_keyMin (s : State) (gb k : Nat) (x : DWord) : (s.setPrng gb k x).keyMin = s.keyMin := rfl
@[simp] theorem State.setPrng_keyCounter (s : State) (gb k : Nat) (x : DWord) : (s.setPrng gb k x).keyCounter = s.keyCounter := rfl
@[simp] theorem State.setPrng_banks (s : State) (gb k : Nat) (x : DWord) : (s.setPrng gb k x).banks = s.banks := rfl
@[simp] theorem State.setPrng_activeBank (s : State) (gb k : Nat) (x : DWord) : (s.setPrng gb k x).activeBank = s.activeBank := rfl
@[simp] theorem State.setPrng_altBanks (s : State) (gb k : Nat) (x : DWord) : (s.setPrng gb k x).altBanks = s.altBanks := rfl
@[simp] theorem State.setPrng_s8Wait (s : State) (gb k : Nat) (x : DWord) : (s.setPrng gb k x).s8Wait = s.s8Wait := rfl
@[simp] theorem State.setPrng_minSvn (s : State) (gb k : Nat) (x : DWord) : (s.setPrng gb k x).minSvn = s.minSvn := rfl
@[simp] theorem State.setPrng_fwPieces (s : State) (gb k : Nat) (x : DWord) : (s.setPrng gb k x).fwPieces = s.fwPieces := rfl
@[simp] theorem State.setPrng_ledger (s : State) (gb k : Nat) (x : DWord) : (s.setPrng gb k x).ledger = s.ledger := rfl
@[simp] theorem State.setPrng_restart (s : State) (gb k : Nat) (x : DWord) : (s.setPrng gb k x).restart = s.restart := rfl
@[simp] theorem State.setPrng_svRestarts (s : State) (gb k : Nat) (x : DWord) : (s.setPrng gb k x).svRestarts = s.svRestarts := rfl
@[simp] theorem State.setPrng_ready (s : State) (gb k : Nat) (x : DWord) : (s.setPrng gb k x).ready = s.ready := rfl
@[simp] theorem State.setPrng_wdFlag (s : State) (gb k : Nat) (x : DWord) : (s.setPrng gb k x).wdFlag = s.wdFlag := rfl
@[simp] theorem State.setPrng_wasReady (s : State) (gb k : Nat) (x : DWord) : (s.setPrng gb k x).wasReady = s.wasReady := rfl
@[simp] theorem State.setPrng_graceAt (s : State) (gb k : Nat) (x : DWord) : (s.setPrng gb k x).graceAt = s.graceAt := rfl
@[simp] theorem State.setPrng_pldmEvents (s : State) (gb k : Nat) (x : DWord) : (s.setPrng gb k x).pldmEvents = s.pldmEvents := rfl
@[simp] theorem State.setPrng_locWait (s : State) (gb k : Nat) (x : DWord) : (s.setPrng gb k x).locWait = s.locWait := rfl
@[simp] theorem State.setPrng_rackCap (s : State) (gb k : Nat) (x : DWord) : (s.setPrng gb k x).rackCap = s.rackCap := rfl
@[simp] theorem State.setPrng_fabCap (s : State) (gb k : Nat) (x : DWord) : (s.setPrng gb k x).fabCap = s.fabCap := rfl
@[simp] theorem State.setPrng_dies (s : State) (gb k : Nat) (x : DWord) : (s.setPrng gb k x).dies = s.dies := rfl
@[simp] theorem State.setPrng_inletHigh (s : State) (gb k : Nat) (x : DWord) : (s.setPrng gb k x).inletHigh = s.inletHigh := rfl
@[simp] theorem State.setPrng_vinOut (s : State) (gb k : Nat) (x : DWord) : (s.setPrng gb k x).vinOut = s.vinOut := rfl
@[simp] theorem State.setPrng_flowLow (s : State) (gb k : Nat) (x : DWord) : (s.setPrng gb k x).flowLow = s.flowLow := rfl
@[simp] theorem State.setPrng_swOpen (s : State) (gb k : Nat) (x : DWord) : (s.setPrng gb k x).swOpen = s.swOpen := rfl
@[simp] theorem State.setPrng_mbox (s : State) (gb k : Nat) (x : DWord) : (s.setPrng gb k x).mbox = s.mbox := rfl
@[simp] theorem State.setPrng_queues (s : State) (gb k : Nat) (x : DWord) : (s.setPrng gb k x).queues = s.queues := rfl
@[simp] theorem State.setPrng_msixTab (s : State) (gb k : Nat) (x : DWord) : (s.setPrng gb k x).msixTab = s.msixTab := rfl
@[simp] theorem State.setPrng_msixPend (s : State) (gb k : Nat) (x : DWord) : (s.setPrng gb k x).msixPend = s.msixPend := rfl

@[simp] theorem State.setPotx_pkgEnds (s : State) (gp : Nat) (x : PotX) : (s.setPotx gp x).pkgEnds = s.pkgEnds := rfl
@[simp] theorem State.setPotx_tierErr (s : State) (gp : Nat) (x : PotX) : (s.setPotx gp x).tierErr = s.tierErr := rfl
@[simp] theorem State.setPotx_tierWb (s : State) (gp : Nat) (x : PotX) : (s.setPotx gp x).tierWb = s.tierWb := rfl
@[simp] theorem State.setPotx_tierSpares (s : State) (gp : Nat) (x : PotX) : (s.setPotx gp x).tierSpares = s.tierSpares := rfl
@[simp] theorem State.setPotx_scrubPos (s : State) (gp : Nat) (x : PotX) : (s.setPotx gp x).scrubPos = s.scrubPos := rfl
@[simp] theorem State.setPotx_fabWait (s : State) (gp : Nat) (x : PotX) : (s.setPotx gp x).fabWait = s.fabWait := rfl
@[simp] theorem State.setPotx_barSrc (s : State) (gp : Nat) (x : PotX) : (s.setPotx gp x).barSrc = s.barSrc := rfl
@[simp] theorem State.setPotx_timeX (s : State) (gp : Nat) (x : PotX) : (s.setPotx gp x).timeX = s.timeX := rfl
@[simp] theorem State.setPotx_rings (s : State) (gp : Nat) (x : PotX) : (s.setPotx gp x).rings = s.rings := rfl
@[simp] theorem State.setPotx_pending (s : State) (gp : Nat) (x : PotX) : (s.setPotx gp x).pending = s.pending := rfl
@[simp] theorem State.setPotx_freeCtr (s : State) (gp : Nat) (x : PotX) : (s.setPotx gp x).freeCtr = s.freeCtr := rfl
@[simp] theorem State.setPotx_timeNs (s : State) (gp : Nat) (x : PotX) : (s.setPotx gp x).timeNs = s.timeNs := rfl
@[simp] theorem State.setPotx_pastNs (s : State) (gp : Nat) (x : PotX) : (s.setPotx gp x).pastNs = s.pastNs := rfl
@[simp] theorem State.setPotx_finBuf (s : State) (gp : Nat) (x : PotX) : (s.setPotx gp x).finBuf = s.finBuf := rfl
@[simp] theorem State.setPotx_regs (s : State) (gp : Nat) (x : PotX) : (s.setPotx gp x).regs = s.regs := rfl
@[simp] theorem State.setPotx_capt (s : State) (gp : Nat) (x : PotX) : (s.setPotx gp x).capt = s.capt := rfl
@[simp] theorem State.setPotx_heldLo (s : State) (gp : Nat) (x : PotX) : (s.setPotx gp x).heldLo = s.heldLo := rfl
@[simp] theorem State.setPotx_mem (s : State) (gp : Nat) (x : PotX) : (s.setPotx gp x).mem = s.mem := rfl
@[simp] theorem State.setPotx_poison (s : State) (gp : Nat) (x : PotX) : (s.setPotx gp x).poison = s.poison := rfl
@[simp] theorem State.setPotx_tags (s : State) (gp : Nat) (x : PotX) : (s.setPotx gp x).tags = s.tags := rfl
@[simp] theorem State.setPotx_sregs (s : State) (gp : Nat) (x : PotX) : (s.setPotx gp x).sregs = s.sregs := rfl
@[simp] theorem State.setPotx_walkRam (s : State) (gp : Nat) (x : PotX) : (s.setPotx gp x).walkRam = s.walkRam := rfl
@[simp] theorem State.setPotx_seqs (s : State) (gp : Nat) (x : PotX) : (s.setPotx gp x).seqs = s.seqs := rfl
@[simp] theorem State.setPotx_logical (s : State) (gp : Nat) (x : PotX) : (s.setPotx gp x).logical = s.logical := rfl
@[simp] theorem State.setPotx_prng (s : State) (gp : Nat) (x : PotX) : (s.setPotx gp x).prng = s.prng := rfl
@[simp] theorem State.setPotx_owner (s : State) (gp : Nat) (x : PotX) : (s.setPotx gp x).owner = s.owner := rfl
@[simp] theorem State.setPotx_devRing (s : State) (gp : Nat) (x : PotX) : (s.setPotx gp x).devRing = s.devRing := rfl
@[simp] theorem State.setPotx_devSeq (s : State) (gp : Nat) (x : PotX) : (s.setPotx gp x).devSeq = s.devSeq := rfl
@[simp] theorem State.setPotx_ringReady (s : State) (gp : Nat) (x : PotX) : (s.setPotx gp x).ringReady = s.ringReady := rfl
@[simp] theorem State.setPotx_heldRecs (s : State) (gp : Nat) (x : PotX) : (s.setPotx gp x).heldRecs = s.heldRecs := rfl
@[simp] theorem State.setPotx_repeats (s : State) (gp : Nat) (x : PotX) : (s.setPotx gp x).repeats = s.repeats := rfl
@[simp] theorem State.setPotx_ringOvf (s : State) (gp : Nat) (x : PotX) : (s.setPotx gp x).ringOvf = s.ringOvf := rfl
@[simp] theorem State.setPotx_hostMem (s : State) (gp : Nat) (x : PotX) : (s.setPotx gp x).hostMem = s.hostMem := rfl
@[simp] theorem State.setPotx_outbox (s : State) (gp : Nat) (x : PotX) : (s.setPotx gp x).outbox = s.outbox := rfl
@[simp] theorem State.setPotx_readData (s : State) (gp : Nat) (x : PotX) : (s.setPotx gp x).readData = s.readData := rfl
@[simp] theorem State.setPotx_waits (s : State) (gp : Nat) (x : PotX) : (s.setPotx gp x).waits = s.waits := rfl
@[simp] theorem State.setPotx_writeback (s : State) (gp : Nat) (x : PotX) : (s.setPotx gp x).writeback = s.writeback := rfl
@[simp] theorem State.setPotx_cells (s : State) (gp : Nat) (x : PotX) : (s.setPotx gp x).cells = s.cells := rfl
@[simp] theorem State.setPotx_accs (s : State) (gp : Nat) (x : PotX) : (s.setPotx gp x).accs = s.accs := rfl
@[simp] theorem State.setPotx_gated (s : State) (gp : Nat) (x : PotX) : (s.setPotx gp x).gated = s.gated := rfl
@[simp] theorem State.setPotx_poolBuf (s : State) (gp : Nat) (x : PotX) : (s.setPotx gp x).poolBuf = s.poolBuf := rfl
@[simp] theorem State.setPotx_metaRam (s : State) (gp : Nat) (x : PotX) : (s.setPotx gp x).metaRam = s.metaRam := rfl
@[simp] theorem State.setPotx_sketch (s : State) (gp : Nat) (x : PotX) : (s.setPotx gp x).sketch = s.sketch := rfl
@[simp] theorem State.setPotx_pars (s : State) (gp : Nat) (x : PotX) : (s.setPotx gp x).pars = s.pars := rfl
@[simp] theorem State.setPotx_jackAcc (s : State) (gp : Nat) (x : PotX) : (s.setPotx gp x).jackAcc = s.jackAcc := rfl
@[simp] theorem State.setPotx_jacks (s : State) (gp : Nat) (x : PotX) : (s.setPotx gp x).jacks = s.jacks := rfl
@[simp] theorem State.setPotx_xfers (s : State) (gp : Nat) (x : PotX) : (s.setPotx gp x).xfers = s.xfers := rfl
@[simp] theorem State.setPotx_nextXfer (s : State) (gp : Nat) (x : PotX) : (s.setPotx gp x).nextXfer = s.nextXfer := rfl
@[simp] theorem State.setPotx_buckets (s : State) (gp : Nat) (x : PotX) : (s.setPotx gp x).buckets = s.buckets := rfl
@[simp] theorem State.setPotx_trackPtr (s : State) (gp : Nat) (x : PotX) : (s.setPotx gp x).trackPtr = s.trackPtr := rfl
@[simp] theorem State.setPotx_kibRem (s : State) (gp : Nat) (x : PotX) : (s.setPotx gp x).kibRem = s.kibRem := rfl
@[simp] theorem State.setPotx_remoteWait (s : State) (gp : Nat) (x : PotX) : (s.setPotx gp x).remoteWait = s.remoteWait := rfl
@[simp] theorem State.setPotx_pqOut (s : State) (gp : Nat) (x : PotX) : (s.setPotx gp x).pqOut = s.pqOut := rfl
@[simp] theorem State.setPotx_pqIn (s : State) (gp : Nat) (x : PotX) : (s.setPotx gp x).pqIn = s.pqIn := rfl
@[simp] theorem State.setPotx_producers (s : State) (gp : Nat) (x : PotX) : (s.setPotx gp x).producers = s.producers := rfl
@[simp] theorem State.setPotx_ringPos (s : State) (gp : Nat) (x : PotX) : (s.setPotx gp x).ringPos = s.ringPos := rfl
@[simp] theorem State.setPotx_tierPoison (s : State) (gp : Nat) (x : PotX) : (s.setPotx gp x).tierPoison = s.tierPoison := rfl
@[simp] theorem State.setPotx_clockOff (s : State) (gp : Nat) (x : PotX) : (s.setPotx gp x).clockOff = s.clockOff := rfl
@[simp] theorem State.setPotx_slowClock (s : State) (gp : Nat) (x : PotX) : (s.setPotx gp x).slowClock = s.slowClock := rfl
@[simp] theorem State.setPotx_cycleCtr (s : State) (gp : Nat) (x : PotX) : (s.setPotx gp x).cycleCtr = s.cycleCtr := rfl
@[simp] theorem State.setPotx_longSaid (s : State) (gp : Nat) (x : PotX) : (s.setPotx gp x).longSaid = s.longSaid := rfl
@[simp] theorem State.setPotx_bcGroups (s : State) (gp : Nat) (x : PotX) : (s.setPotx gp x).bcGroups = s.bcGroups := rfl
@[simp] theorem State.setPotx_txns (s : State) (gp : Nat) (x : PotX) : (s.setPotx gp x).txns = s.txns := rfl
@[simp] theorem State.setPotx_rtidQ (s : State) (gp : Nat) (x : PotX) : (s.setPotx gp x).rtidQ = s.rtidQ := rfl
@[simp] theorem State.setPotx_cache (s : State) (gp : Nat) (x : PotX) : (s.setPotx gp x).cache = s.cache := rfl
@[simp] theorem State.setPotx_genSeen (s : State) (gp : Nat) (x : PotX) : (s.setPotx gp x).genSeen = s.genSeen := rfl
@[simp] theorem State.setPotx_fseqIn (s : State) (gp : Nat) (x : PotX) : (s.setPotx gp x).fseqIn = s.fseqIn := rfl
@[simp] theorem State.setPotx_hdlData (s : State) (gp : Nat) (x : PotX) : (s.setPotx gp x).hdlData = s.hdlData := rfl
@[simp] theorem State.setPotx_fseqOut (s : State) (gp : Nat) (x : PotX) : (s.setPotx gp x).fseqOut = s.fseqOut := rfl
@[simp] theorem State.setPotx_fabUnreach (s : State) (gp : Nat) (x : PotX) : (s.setPotx gp x).fabUnreach = s.fabUnreach := rfl
@[simp] theorem State.setPotx_pkgUnreach (s : State) (gp : Nat) (x : PotX) : (s.setPotx gp x).pkgUnreach = s.pkgUnreach := rfl
@[simp] theorem State.setPotx_partGen (s : State) (gp : Nat) (x : PotX) : (s.setPotx gp x).partGen = s.partGen := rfl
@[simp] theorem State.setPotx_canes (s : State) (gp : Nat) (x : PotX) : (s.setPotx gp x).canes = s.canes := rfl
@[simp] theorem State.setPotx_inbox (s : State) (gp : Nat) (x : PotX) : (s.setPotx gp x).inbox = s.inbox := rfl
@[simp] theorem State.setPotx_potOff (s : State) (gp : Nat) (x : PotX) : (s.setPotx gp x).potOff = s.potOff := rfl
@[simp] theorem State.setPotx_pkgExcl (s : State) (gp : Nat) (x : PotX) : (s.setPotx gp x).pkgExcl = s.pkgExcl := rfl
@[simp] theorem State.setPotx_quotaSum (s : State) (gp : Nat) (x : PotX) : (s.setPotx gp x).quotaSum = s.quotaSum := rfl
@[simp] theorem State.setPotx_partSeed (s : State) (gp : Nat) (x : PotX) : (s.setPotx gp x).partSeed = s.partSeed := rfl
@[simp] theorem State.setPotx_power (s : State) (gp : Nat) (x : PotX) : (s.setPotx gp x).power = s.power := rfl
@[simp] theorem State.setPotx_load (s : State) (gp : Nat) (x : PotX) : (s.setPotx gp x).load = s.load := rfl
@[simp] theorem State.setPotx_imgDigest (s : State) (gp : Nat) (x : PotX) : (s.setPotx gp x).imgDigest = s.imgDigest := rfl
@[simp] theorem State.setPotx_keys (s : State) (gp : Nat) (x : PotX) : (s.setPotx gp x).keys = s.keys := rfl
@[simp] theorem State.setPotx_keyMin (s : State) (gp : Nat) (x : PotX) : (s.setPotx gp x).keyMin = s.keyMin := rfl
@[simp] theorem State.setPotx_keyCounter (s : State) (gp : Nat) (x : PotX) : (s.setPotx gp x).keyCounter = s.keyCounter := rfl
@[simp] theorem State.setPotx_banks (s : State) (gp : Nat) (x : PotX) : (s.setPotx gp x).banks = s.banks := rfl
@[simp] theorem State.setPotx_activeBank (s : State) (gp : Nat) (x : PotX) : (s.setPotx gp x).activeBank = s.activeBank := rfl
@[simp] theorem State.setPotx_altBanks (s : State) (gp : Nat) (x : PotX) : (s.setPotx gp x).altBanks = s.altBanks := rfl
@[simp] theorem State.setPotx_s8Wait (s : State) (gp : Nat) (x : PotX) : (s.setPotx gp x).s8Wait = s.s8Wait := rfl
@[simp] theorem State.setPotx_minSvn (s : State) (gp : Nat) (x : PotX) : (s.setPotx gp x).minSvn = s.minSvn := rfl
@[simp] theorem State.setPotx_fwPieces (s : State) (gp : Nat) (x : PotX) : (s.setPotx gp x).fwPieces = s.fwPieces := rfl
@[simp] theorem State.setPotx_ledger (s : State) (gp : Nat) (x : PotX) : (s.setPotx gp x).ledger = s.ledger := rfl
@[simp] theorem State.setPotx_restart (s : State) (gp : Nat) (x : PotX) : (s.setPotx gp x).restart = s.restart := rfl
@[simp] theorem State.setPotx_svRestarts (s : State) (gp : Nat) (x : PotX) : (s.setPotx gp x).svRestarts = s.svRestarts := rfl
@[simp] theorem State.setPotx_ready (s : State) (gp : Nat) (x : PotX) : (s.setPotx gp x).ready = s.ready := rfl
@[simp] theorem State.setPotx_wdFlag (s : State) (gp : Nat) (x : PotX) : (s.setPotx gp x).wdFlag = s.wdFlag := rfl
@[simp] theorem State.setPotx_wasReady (s : State) (gp : Nat) (x : PotX) : (s.setPotx gp x).wasReady = s.wasReady := rfl
@[simp] theorem State.setPotx_graceAt (s : State) (gp : Nat) (x : PotX) : (s.setPotx gp x).graceAt = s.graceAt := rfl
@[simp] theorem State.setPotx_pldmEvents (s : State) (gp : Nat) (x : PotX) : (s.setPotx gp x).pldmEvents = s.pldmEvents := rfl
@[simp] theorem State.setPotx_locWait (s : State) (gp : Nat) (x : PotX) : (s.setPotx gp x).locWait = s.locWait := rfl
@[simp] theorem State.setPotx_rackCap (s : State) (gp : Nat) (x : PotX) : (s.setPotx gp x).rackCap = s.rackCap := rfl
@[simp] theorem State.setPotx_fabCap (s : State) (gp : Nat) (x : PotX) : (s.setPotx gp x).fabCap = s.fabCap := rfl
@[simp] theorem State.setPotx_dies (s : State) (gp : Nat) (x : PotX) : (s.setPotx gp x).dies = s.dies := rfl
@[simp] theorem State.setPotx_inletHigh (s : State) (gp : Nat) (x : PotX) : (s.setPotx gp x).inletHigh = s.inletHigh := rfl
@[simp] theorem State.setPotx_vinOut (s : State) (gp : Nat) (x : PotX) : (s.setPotx gp x).vinOut = s.vinOut := rfl
@[simp] theorem State.setPotx_flowLow (s : State) (gp : Nat) (x : PotX) : (s.setPotx gp x).flowLow = s.flowLow := rfl
@[simp] theorem State.setPotx_swOpen (s : State) (gp : Nat) (x : PotX) : (s.setPotx gp x).swOpen = s.swOpen := rfl
@[simp] theorem State.setPotx_mbox (s : State) (gp : Nat) (x : PotX) : (s.setPotx gp x).mbox = s.mbox := rfl
@[simp] theorem State.setPotx_queues (s : State) (gp : Nat) (x : PotX) : (s.setPotx gp x).queues = s.queues := rfl
@[simp] theorem State.setPotx_msixTab (s : State) (gp : Nat) (x : PotX) : (s.setPotx gp x).msixTab = s.msixTab := rfl
@[simp] theorem State.setPotx_msixPend (s : State) (gp : Nat) (x : PotX) : (s.setPotx gp x).msixPend = s.msixPend := rfl

@[simp] theorem State.withPending_pkgEnds (s : State) (q : List Instr) : (s.withPending q).pkgEnds = s.pkgEnds := rfl
@[simp] theorem State.withPending_tierErr (s : State) (q : List Instr) : (s.withPending q).tierErr = s.tierErr := rfl
@[simp] theorem State.withPending_tierWb (s : State) (q : List Instr) : (s.withPending q).tierWb = s.tierWb := rfl
@[simp] theorem State.withPending_tierSpares (s : State) (q : List Instr) : (s.withPending q).tierSpares = s.tierSpares := rfl
@[simp] theorem State.withPending_scrubPos (s : State) (q : List Instr) : (s.withPending q).scrubPos = s.scrubPos := rfl
@[simp] theorem State.withPending_fabWait (s : State) (q : List Instr) : (s.withPending q).fabWait = s.fabWait := rfl
@[simp] theorem State.withPending_barSrc (s : State) (q : List Instr) : (s.withPending q).barSrc = s.barSrc := rfl
@[simp] theorem State.withPending_timeX (s : State) (q : List Instr) : (s.withPending q).timeX = s.timeX := rfl
@[simp] theorem State.withPending_rings (s : State) (q : List Instr) : (s.withPending q).rings = s.rings := rfl
@[simp] theorem State.withPending_freeCtr (s : State) (q : List Instr) : (s.withPending q).freeCtr = s.freeCtr := rfl
@[simp] theorem State.withPending_timeNs (s : State) (q : List Instr) : (s.withPending q).timeNs = s.timeNs := rfl
@[simp] theorem State.withPending_pastNs (s : State) (q : List Instr) : (s.withPending q).pastNs = s.pastNs := rfl
@[simp] theorem State.withPending_finBuf (s : State) (q : List Instr) : (s.withPending q).finBuf = s.finBuf := rfl
@[simp] theorem State.withPending_regs (s : State) (q : List Instr) : (s.withPending q).regs = s.regs := rfl
@[simp] theorem State.withPending_capt (s : State) (q : List Instr) : (s.withPending q).capt = s.capt := rfl
@[simp] theorem State.withPending_heldLo (s : State) (q : List Instr) : (s.withPending q).heldLo = s.heldLo := rfl
@[simp] theorem State.withPending_mem (s : State) (q : List Instr) : (s.withPending q).mem = s.mem := rfl
@[simp] theorem State.withPending_poison (s : State) (q : List Instr) : (s.withPending q).poison = s.poison := rfl
@[simp] theorem State.withPending_tags (s : State) (q : List Instr) : (s.withPending q).tags = s.tags := rfl
@[simp] theorem State.withPending_sregs (s : State) (q : List Instr) : (s.withPending q).sregs = s.sregs := rfl
@[simp] theorem State.withPending_walkRam (s : State) (q : List Instr) : (s.withPending q).walkRam = s.walkRam := rfl
@[simp] theorem State.withPending_seqs (s : State) (q : List Instr) : (s.withPending q).seqs = s.seqs := rfl
@[simp] theorem State.withPending_logical (s : State) (q : List Instr) : (s.withPending q).logical = s.logical := rfl
@[simp] theorem State.withPending_prng (s : State) (q : List Instr) : (s.withPending q).prng = s.prng := rfl
@[simp] theorem State.withPending_owner (s : State) (q : List Instr) : (s.withPending q).owner = s.owner := rfl
@[simp] theorem State.withPending_devRing (s : State) (q : List Instr) : (s.withPending q).devRing = s.devRing := rfl
@[simp] theorem State.withPending_devSeq (s : State) (q : List Instr) : (s.withPending q).devSeq = s.devSeq := rfl
@[simp] theorem State.withPending_ringReady (s : State) (q : List Instr) : (s.withPending q).ringReady = s.ringReady := rfl
@[simp] theorem State.withPending_heldRecs (s : State) (q : List Instr) : (s.withPending q).heldRecs = s.heldRecs := rfl
@[simp] theorem State.withPending_repeats (s : State) (q : List Instr) : (s.withPending q).repeats = s.repeats := rfl
@[simp] theorem State.withPending_ringOvf (s : State) (q : List Instr) : (s.withPending q).ringOvf = s.ringOvf := rfl
@[simp] theorem State.withPending_hostMem (s : State) (q : List Instr) : (s.withPending q).hostMem = s.hostMem := rfl
@[simp] theorem State.withPending_outbox (s : State) (q : List Instr) : (s.withPending q).outbox = s.outbox := rfl
@[simp] theorem State.withPending_readData (s : State) (q : List Instr) : (s.withPending q).readData = s.readData := rfl
@[simp] theorem State.withPending_waits (s : State) (q : List Instr) : (s.withPending q).waits = s.waits := rfl
@[simp] theorem State.withPending_writeback (s : State) (q : List Instr) : (s.withPending q).writeback = s.writeback := rfl
@[simp] theorem State.withPending_cells (s : State) (q : List Instr) : (s.withPending q).cells = s.cells := rfl
@[simp] theorem State.withPending_accs (s : State) (q : List Instr) : (s.withPending q).accs = s.accs := rfl
@[simp] theorem State.withPending_gated (s : State) (q : List Instr) : (s.withPending q).gated = s.gated := rfl
@[simp] theorem State.withPending_poolBuf (s : State) (q : List Instr) : (s.withPending q).poolBuf = s.poolBuf := rfl
@[simp] theorem State.withPending_metaRam (s : State) (q : List Instr) : (s.withPending q).metaRam = s.metaRam := rfl
@[simp] theorem State.withPending_pots (s : State) (q : List Instr) : (s.withPending q).pots = s.pots := rfl
@[simp] theorem State.withPending_sketch (s : State) (q : List Instr) : (s.withPending q).sketch = s.sketch := rfl
@[simp] theorem State.withPending_pars (s : State) (q : List Instr) : (s.withPending q).pars = s.pars := rfl
@[simp] theorem State.withPending_jackAcc (s : State) (q : List Instr) : (s.withPending q).jackAcc = s.jackAcc := rfl
@[simp] theorem State.withPending_jacks (s : State) (q : List Instr) : (s.withPending q).jacks = s.jacks := rfl
@[simp] theorem State.withPending_xfers (s : State) (q : List Instr) : (s.withPending q).xfers = s.xfers := rfl
@[simp] theorem State.withPending_nextXfer (s : State) (q : List Instr) : (s.withPending q).nextXfer = s.nextXfer := rfl
@[simp] theorem State.withPending_buckets (s : State) (q : List Instr) : (s.withPending q).buckets = s.buckets := rfl
@[simp] theorem State.withPending_trackPtr (s : State) (q : List Instr) : (s.withPending q).trackPtr = s.trackPtr := rfl
@[simp] theorem State.withPending_kibRem (s : State) (q : List Instr) : (s.withPending q).kibRem = s.kibRem := rfl
@[simp] theorem State.withPending_remoteWait (s : State) (q : List Instr) : (s.withPending q).remoteWait = s.remoteWait := rfl
@[simp] theorem State.withPending_pqOut (s : State) (q : List Instr) : (s.withPending q).pqOut = s.pqOut := rfl
@[simp] theorem State.withPending_pqIn (s : State) (q : List Instr) : (s.withPending q).pqIn = s.pqIn := rfl
@[simp] theorem State.withPending_producers (s : State) (q : List Instr) : (s.withPending q).producers = s.producers := rfl
@[simp] theorem State.withPending_ringPos (s : State) (q : List Instr) : (s.withPending q).ringPos = s.ringPos := rfl
@[simp] theorem State.withPending_tierPoison (s : State) (q : List Instr) : (s.withPending q).tierPoison = s.tierPoison := rfl
@[simp] theorem State.withPending_clockOff (s : State) (q : List Instr) : (s.withPending q).clockOff = s.clockOff := rfl
@[simp] theorem State.withPending_slowClock (s : State) (q : List Instr) : (s.withPending q).slowClock = s.slowClock := rfl
@[simp] theorem State.withPending_cycleCtr (s : State) (q : List Instr) : (s.withPending q).cycleCtr = s.cycleCtr := rfl
@[simp] theorem State.withPending_longSaid (s : State) (q : List Instr) : (s.withPending q).longSaid = s.longSaid := rfl
@[simp] theorem State.withPending_bcGroups (s : State) (q : List Instr) : (s.withPending q).bcGroups = s.bcGroups := rfl
@[simp] theorem State.withPending_txns (s : State) (q : List Instr) : (s.withPending q).txns = s.txns := rfl
@[simp] theorem State.withPending_rtidQ (s : State) (q : List Instr) : (s.withPending q).rtidQ = s.rtidQ := rfl
@[simp] theorem State.withPending_cache (s : State) (q : List Instr) : (s.withPending q).cache = s.cache := rfl
@[simp] theorem State.withPending_genSeen (s : State) (q : List Instr) : (s.withPending q).genSeen = s.genSeen := rfl
@[simp] theorem State.withPending_fseqIn (s : State) (q : List Instr) : (s.withPending q).fseqIn = s.fseqIn := rfl
@[simp] theorem State.withPending_hdlData (s : State) (q : List Instr) : (s.withPending q).hdlData = s.hdlData := rfl
@[simp] theorem State.withPending_fseqOut (s : State) (q : List Instr) : (s.withPending q).fseqOut = s.fseqOut := rfl
@[simp] theorem State.withPending_fabUnreach (s : State) (q : List Instr) : (s.withPending q).fabUnreach = s.fabUnreach := rfl
@[simp] theorem State.withPending_pkgUnreach (s : State) (q : List Instr) : (s.withPending q).pkgUnreach = s.pkgUnreach := rfl
@[simp] theorem State.withPending_partGen (s : State) (q : List Instr) : (s.withPending q).partGen = s.partGen := rfl
@[simp] theorem State.withPending_canes (s : State) (q : List Instr) : (s.withPending q).canes = s.canes := rfl
@[simp] theorem State.withPending_inbox (s : State) (q : List Instr) : (s.withPending q).inbox = s.inbox := rfl
@[simp] theorem State.withPending_potOff (s : State) (q : List Instr) : (s.withPending q).potOff = s.potOff := rfl
@[simp] theorem State.withPending_pkgExcl (s : State) (q : List Instr) : (s.withPending q).pkgExcl = s.pkgExcl := rfl
@[simp] theorem State.withPending_quotaSum (s : State) (q : List Instr) : (s.withPending q).quotaSum = s.quotaSum := rfl
@[simp] theorem State.withPending_partSeed (s : State) (q : List Instr) : (s.withPending q).partSeed = s.partSeed := rfl
@[simp] theorem State.withPending_power (s : State) (q : List Instr) : (s.withPending q).power = s.power := rfl
@[simp] theorem State.withPending_load (s : State) (q : List Instr) : (s.withPending q).load = s.load := rfl
@[simp] theorem State.withPending_imgDigest (s : State) (q : List Instr) : (s.withPending q).imgDigest = s.imgDigest := rfl
@[simp] theorem State.withPending_keys (s : State) (q : List Instr) : (s.withPending q).keys = s.keys := rfl
@[simp] theorem State.withPending_keyMin (s : State) (q : List Instr) : (s.withPending q).keyMin = s.keyMin := rfl
@[simp] theorem State.withPending_keyCounter (s : State) (q : List Instr) : (s.withPending q).keyCounter = s.keyCounter := rfl
@[simp] theorem State.withPending_banks (s : State) (q : List Instr) : (s.withPending q).banks = s.banks := rfl
@[simp] theorem State.withPending_activeBank (s : State) (q : List Instr) : (s.withPending q).activeBank = s.activeBank := rfl
@[simp] theorem State.withPending_altBanks (s : State) (q : List Instr) : (s.withPending q).altBanks = s.altBanks := rfl
@[simp] theorem State.withPending_s8Wait (s : State) (q : List Instr) : (s.withPending q).s8Wait = s.s8Wait := rfl
@[simp] theorem State.withPending_minSvn (s : State) (q : List Instr) : (s.withPending q).minSvn = s.minSvn := rfl
@[simp] theorem State.withPending_fwPieces (s : State) (q : List Instr) : (s.withPending q).fwPieces = s.fwPieces := rfl
@[simp] theorem State.withPending_ledger (s : State) (q : List Instr) : (s.withPending q).ledger = s.ledger := rfl
@[simp] theorem State.withPending_restart (s : State) (q : List Instr) : (s.withPending q).restart = s.restart := rfl
@[simp] theorem State.withPending_svRestarts (s : State) (q : List Instr) : (s.withPending q).svRestarts = s.svRestarts := rfl
@[simp] theorem State.withPending_ready (s : State) (q : List Instr) : (s.withPending q).ready = s.ready := rfl
@[simp] theorem State.withPending_wdFlag (s : State) (q : List Instr) : (s.withPending q).wdFlag = s.wdFlag := rfl
@[simp] theorem State.withPending_wasReady (s : State) (q : List Instr) : (s.withPending q).wasReady = s.wasReady := rfl
@[simp] theorem State.withPending_graceAt (s : State) (q : List Instr) : (s.withPending q).graceAt = s.graceAt := rfl
@[simp] theorem State.withPending_pldmEvents (s : State) (q : List Instr) : (s.withPending q).pldmEvents = s.pldmEvents := rfl
@[simp] theorem State.withPending_locWait (s : State) (q : List Instr) : (s.withPending q).locWait = s.locWait := rfl
@[simp] theorem State.withPending_rackCap (s : State) (q : List Instr) : (s.withPending q).rackCap = s.rackCap := rfl
@[simp] theorem State.withPending_fabCap (s : State) (q : List Instr) : (s.withPending q).fabCap = s.fabCap := rfl
@[simp] theorem State.withPending_dies (s : State) (q : List Instr) : (s.withPending q).dies = s.dies := rfl
@[simp] theorem State.withPending_inletHigh (s : State) (q : List Instr) : (s.withPending q).inletHigh = s.inletHigh := rfl
@[simp] theorem State.withPending_vinOut (s : State) (q : List Instr) : (s.withPending q).vinOut = s.vinOut := rfl
@[simp] theorem State.withPending_flowLow (s : State) (q : List Instr) : (s.withPending q).flowLow = s.flowLow := rfl
@[simp] theorem State.withPending_swOpen (s : State) (q : List Instr) : (s.withPending q).swOpen = s.swOpen := rfl
@[simp] theorem State.withPending_mbox (s : State) (q : List Instr) : (s.withPending q).mbox = s.mbox := rfl
@[simp] theorem State.withPending_queues (s : State) (q : List Instr) : (s.withPending q).queues = s.queues := rfl
@[simp] theorem State.withPending_msixTab (s : State) (q : List Instr) : (s.withPending q).msixTab = s.msixTab := rfl
@[simp] theorem State.withPending_msixPend (s : State) (q : List Instr) : (s.withPending q).msixPend = s.msixPend := rfl

theorem State.setSreg_eq (s : State) (gb r : Nat) (v : DWord) (h : r % 32 ≠ 0) :
    s.setSreg gb r v = { s with sregs := s.sregs.put 0#64 (32 * gb + r % 32) v } := by simp [State.setSreg, h]

/-! ### The register file -/

theorem Field.key_ne (f g : Field) (i j i' j' : Nat) (h : f.base ≠ g.base) : f.key i j ≠ g.key i' j' := by
  simp only [Field.key]; omega

theorem Field.key_ne_inst (f g : Field) (i j i' j' : Nat) (h : i % 1048576 ≠ i' % 1048576) : f.key i j ≠ g.key i' j' := by
  simp only [Field.key]; omega

theorem Field.key_ne_entry (f g : Field) (i j i' j' : Nat) (h : j % 1048576 ≠ j' % 1048576) : f.key i j ≠ g.key i' j' := by
  simp only [Field.key]; omega

/-- A field written reads as the value cut to its width. -/
@[simp] theorem State.rd_wr_same (s : State) (f : Field) (i v j : Nat) : (s.wr f i v j).rd f i j = v % 2 ^ f.w :=
  SMap.get_put_same _ _ _ _

/-- A write leaves every other field, and every other instance and entry. -/
theorem State.rd_wr_other (s : State) (f g : Field) (i v j i' j' : Nat) (h : f.key i j ≠ g.key i' j') :
    (s.wr f i v j).rd g i' j' = s.rd g i' j' := by
  exact SMap.get_put_any _ _ _ _ _ _ h

theorem State.rd_wr_field (s : State) (f g : Field) (i v j i' j' : Nat) (h : f.base ≠ g.base) :
    (s.wr f i v j).rd g i' j' = s.rd g i' j' := s.rd_wr_other f g i v j i' j' (Field.key_ne f g i j i' j' h)

theorem State.rd_wr_inst (s : State) (f g : Field) (i v j i' j' : Nat) (h : i % 1048576 ≠ i' % 1048576) :
    (s.wr f i v j).rd g i' j' = s.rd g i' j' := s.rd_wr_other f g i v j i' j' (Field.key_ne_inst f g i j i' j' h)

@[simp] theorem State.on_flag_same (s : State) (f : Field) (i : Nat) (b : Bool) (j : Nat) (h : 0 < f.w) :
    (s.flag f i b j).on f i j = b := by
  have : 2 ≤ 2 ^ f.w := by
    calc 2 = 2 ^ 1 := rfl
      _ ≤ 2 ^ f.w := Nat.pow_le_pow_right (by omega) h
  cases b
  · simp [State.on, State.flag]
  · have : 1 % 2 ^ f.w = 1 := Nat.mod_eq_of_lt (by omega)
    simp [State.on, State.flag, this]

@[simp] theorem State.seq_setSeq (s : State) (gb : Nat) (q : Seq) : (s.setSeq gb q).seq gb = q := SMap.get_put_same _ _ _ _

@[simp] theorem State.seqState_setSeqState (s : State) (gb : Nat) (t : SeqState) : (s.setSeqState gb t).seqState gb = t := by
  simp only [State.seqState, State.setSeqState, State.rd_wr_same]
  cases t <;> rfl

/-! ### Records and faults -/

@[simp] theorem State.noteRepeat_pending (s : State) (k : Nat) (r : FaultRec) (w : Bool) : (s.noteRepeat k r w).pending = s.pending := by
  simp only [State.noteRepeat]; split <;> rfl
@[simp] theorem State.toDevRing_pending (s : State) (r : FaultRec) : (s.toDevRing r).pending = s.pending := by
  simp only [State.toDevRing]; split <;> simp
@[simp] theorem State.hostStore_pending (s : State) (a : Nat) (bs : List Byte) : (s.hostStore a bs).pending = s.pending := by
  induction bs generalizing s a with
  | nil => rfl
  | cons b r ih => simp [State.hostStore, ih]
@[simp] theorem State.toFnRing_pending (s : State) (r : FaultRec) (fn : Nat) : (s.toFnRing r fn).pending = s.pending := by
  simp only [State.toFnRing]; split
  · simp
  · split <;> simp [State.bump]
@[simp] theorem State.toFnRings_pending (s : State) (r : FaultRec) (fns : List Nat) : (s.toFnRings r fns).pending = s.pending := by
  induction fns generalizing s with
  | nil => rfl
  | cons a l ih => simp [State.toFnRings, ih]
@[simp] theorem State.record_pending (s : State) (r : FaultRec) (fns : List Nat) : (s.record r fns).pending = s.pending := by
  simp only [State.record]; split <;> split <;> (try split) <;> simp [State.bump]
@[simp] theorem State.noteFault_pending (s : State) (gb u c : Nat) : (s.noteFault gb u c).pending = s.pending := by
  simp only [State.noteFault]; split <;> split <;> split <;> simp
@[simp] theorem State.benchReport_pending (s : State) (gb u c i : Nat) (d : Bool) : (s.benchReport gb u c i d).pending = s.pending := by
  simp [State.benchReport]
@[simp] theorem State.devReport_pending (s : State) (a c i k : Nat) (d : Bool) : (s.devReport a c i k d).pending = s.pending := by
  simp [State.devReport]
@[simp] theorem State.raise_pending (s : State) (gb u c pc it i : Nat) (d : Bool) : (s.raise gb u c pc it i d).pending = s.pending := by
  simp only [State.raise, State.setHold]; split <;> split <;> simp
@[simp] theorem State.noteRepeat_mem (s : State) (k : Nat) (r : FaultRec) (w : Bool) : (s.noteRepeat k r w).mem = s.mem := by
  simp only [State.noteRepeat]; split <;> rfl
@[simp] theorem State.toDevRing_mem (s : State) (r : FaultRec) : (s.toDevRing r).mem = s.mem := by
  simp only [State.toDevRing]; split <;> simp
@[simp] theorem State.hostStore_mem (s : State) (a : Nat) (bs : List Byte) : (s.hostStore a bs).mem = s.mem := by
  induction bs generalizing s a with
  | nil => rfl
  | cons b r ih => simp [State.hostStore, ih]
@[simp] theorem State.toFnRing_mem (s : State) (r : FaultRec) (fn : Nat) : (s.toFnRing r fn).mem = s.mem := by
  simp only [State.toFnRing]; split
  · simp
  · split <;> simp [State.bump]
@[simp] theorem State.toFnRings_mem (s : State) (r : FaultRec) (fns : List Nat) : (s.toFnRings r fns).mem = s.mem := by
  induction fns generalizing s with
  | nil => rfl
  | cons a l ih => simp [State.toFnRings, ih]
@[simp] theorem State.record_mem (s : State) (r : FaultRec) (fns : List Nat) : (s.record r fns).mem = s.mem := by
  simp only [State.record]; split <;> split <;> (try split) <;> simp [State.bump]
@[simp] theorem State.noteFault_mem (s : State) (gb u c : Nat) : (s.noteFault gb u c).mem = s.mem := by
  simp only [State.noteFault]; split <;> split <;> split <;> simp
@[simp] theorem State.benchReport_mem (s : State) (gb u c i : Nat) (d : Bool) : (s.benchReport gb u c i d).mem = s.mem := by
  simp [State.benchReport]
@[simp] theorem State.devReport_mem (s : State) (a c i k : Nat) (d : Bool) : (s.devReport a c i k d).mem = s.mem := by
  simp [State.devReport]
@[simp] theorem State.raise_mem (s : State) (gb u c pc it i : Nat) (d : Bool) : (s.raise gb u c pc it i d).mem = s.mem := by
  simp only [State.raise, State.setHold]; split <;> split <;> simp
@[simp] theorem State.noteRepeat_poison (s : State) (k : Nat) (r : FaultRec) (w : Bool) : (s.noteRepeat k r w).poison = s.poison := by
  simp only [State.noteRepeat]; split <;> rfl
@[simp] theorem State.toDevRing_poison (s : State) (r : FaultRec) : (s.toDevRing r).poison = s.poison := by
  simp only [State.toDevRing]; split <;> simp
@[simp] theorem State.hostStore_poison (s : State) (a : Nat) (bs : List Byte) : (s.hostStore a bs).poison = s.poison := by
  induction bs generalizing s a with
  | nil => rfl
  | cons b r ih => simp [State.hostStore, ih]
@[simp] theorem State.toFnRing_poison (s : State) (r : FaultRec) (fn : Nat) : (s.toFnRing r fn).poison = s.poison := by
  simp only [State.toFnRing]; split
  · simp
  · split <;> simp [State.bump]
@[simp] theorem State.toFnRings_poison (s : State) (r : FaultRec) (fns : List Nat) : (s.toFnRings r fns).poison = s.poison := by
  induction fns generalizing s with
  | nil => rfl
  | cons a l ih => simp [State.toFnRings, ih]
@[simp] theorem State.record_poison (s : State) (r : FaultRec) (fns : List Nat) : (s.record r fns).poison = s.poison := by
  simp only [State.record]; split <;> split <;> (try split) <;> simp [State.bump]
@[simp] theorem State.noteFault_poison (s : State) (gb u c : Nat) : (s.noteFault gb u c).poison = s.poison := by
  simp only [State.noteFault]; split <;> split <;> split <;> simp
@[simp] theorem State.benchReport_poison (s : State) (gb u c i : Nat) (d : Bool) : (s.benchReport gb u c i d).poison = s.poison := by
  simp [State.benchReport]
@[simp] theorem State.devReport_poison (s : State) (a c i k : Nat) (d : Bool) : (s.devReport a c i k d).poison = s.poison := by
  simp [State.devReport]
@[simp] theorem State.raise_poison (s : State) (gb u c pc it i : Nat) (d : Bool) : (s.raise gb u c pc it i d).poison = s.poison := by
  simp only [State.raise, State.setHold]; split <;> split <;> simp
@[simp] theorem State.noteRepeat_tags (s : State) (k : Nat) (r : FaultRec) (w : Bool) : (s.noteRepeat k r w).tags = s.tags := by
  simp only [State.noteRepeat]; split <;> rfl
@[simp] theorem State.toDevRing_tags (s : State) (r : FaultRec) : (s.toDevRing r).tags = s.tags := by
  simp only [State.toDevRing]; split <;> simp
@[simp] theorem State.hostStore_tags (s : State) (a : Nat) (bs : List Byte) : (s.hostStore a bs).tags = s.tags := by
  induction bs generalizing s a with
  | nil => rfl
  | cons b r ih => simp [State.hostStore, ih]
@[simp] theorem State.toFnRing_tags (s : State) (r : FaultRec) (fn : Nat) : (s.toFnRing r fn).tags = s.tags := by
  simp only [State.toFnRing]; split
  · simp
  · split <;> simp [State.bump]
@[simp] theorem State.toFnRings_tags (s : State) (r : FaultRec) (fns : List Nat) : (s.toFnRings r fns).tags = s.tags := by
  induction fns generalizing s with
  | nil => rfl
  | cons a l ih => simp [State.toFnRings, ih]
@[simp] theorem State.record_tags (s : State) (r : FaultRec) (fns : List Nat) : (s.record r fns).tags = s.tags := by
  simp only [State.record]; split <;> split <;> (try split) <;> simp [State.bump]
@[simp] theorem State.noteFault_tags (s : State) (gb u c : Nat) : (s.noteFault gb u c).tags = s.tags := by
  simp only [State.noteFault]; split <;> split <;> split <;> simp
@[simp] theorem State.benchReport_tags (s : State) (gb u c i : Nat) (d : Bool) : (s.benchReport gb u c i d).tags = s.tags := by
  simp [State.benchReport]
@[simp] theorem State.devReport_tags (s : State) (a c i k : Nat) (d : Bool) : (s.devReport a c i k d).tags = s.tags := by
  simp [State.devReport]
@[simp] theorem State.raise_tags (s : State) (gb u c pc it i : Nat) (d : Bool) : (s.raise gb u c pc it i d).tags = s.tags := by
  simp only [State.raise, State.setHold]; split <;> split <;> simp
@[simp] theorem State.noteRepeat_sregs (s : State) (k : Nat) (r : FaultRec) (w : Bool) : (s.noteRepeat k r w).sregs = s.sregs := by
  simp only [State.noteRepeat]; split <;> rfl
@[simp] theorem State.toDevRing_sregs (s : State) (r : FaultRec) : (s.toDevRing r).sregs = s.sregs := by
  simp only [State.toDevRing]; split <;> simp
@[simp] theorem State.hostStore_sregs (s : State) (a : Nat) (bs : List Byte) : (s.hostStore a bs).sregs = s.sregs := by
  induction bs generalizing s a with
  | nil => rfl
  | cons b r ih => simp [State.hostStore, ih]
@[simp] theorem State.toFnRing_sregs (s : State) (r : FaultRec) (fn : Nat) : (s.toFnRing r fn).sregs = s.sregs := by
  simp only [State.toFnRing]; split
  · simp
  · split <;> simp [State.bump]
@[simp] theorem State.toFnRings_sregs (s : State) (r : FaultRec) (fns : List Nat) : (s.toFnRings r fns).sregs = s.sregs := by
  induction fns generalizing s with
  | nil => rfl
  | cons a l ih => simp [State.toFnRings, ih]
@[simp] theorem State.record_sregs (s : State) (r : FaultRec) (fns : List Nat) : (s.record r fns).sregs = s.sregs := by
  simp only [State.record]; split <;> split <;> (try split) <;> simp [State.bump]
@[simp] theorem State.noteFault_sregs (s : State) (gb u c : Nat) : (s.noteFault gb u c).sregs = s.sregs := by
  simp only [State.noteFault]; split <;> split <;> split <;> simp
@[simp] theorem State.benchReport_sregs (s : State) (gb u c i : Nat) (d : Bool) : (s.benchReport gb u c i d).sregs = s.sregs := by
  simp [State.benchReport]
@[simp] theorem State.devReport_sregs (s : State) (a c i k : Nat) (d : Bool) : (s.devReport a c i k d).sregs = s.sregs := by
  simp [State.devReport]
@[simp] theorem State.raise_sregs (s : State) (gb u c pc it i : Nat) (d : Bool) : (s.raise gb u c pc it i d).sregs = s.sregs := by
  simp only [State.raise, State.setHold]; split <;> split <;> simp
@[simp] theorem State.noteRepeat_walkRam (s : State) (k : Nat) (r : FaultRec) (w : Bool) : (s.noteRepeat k r w).walkRam = s.walkRam := by
  simp only [State.noteRepeat]; split <;> rfl
@[simp] theorem State.toDevRing_walkRam (s : State) (r : FaultRec) : (s.toDevRing r).walkRam = s.walkRam := by
  simp only [State.toDevRing]; split <;> simp
@[simp] theorem State.hostStore_walkRam (s : State) (a : Nat) (bs : List Byte) : (s.hostStore a bs).walkRam = s.walkRam := by
  induction bs generalizing s a with
  | nil => rfl
  | cons b r ih => simp [State.hostStore, ih]
@[simp] theorem State.toFnRing_walkRam (s : State) (r : FaultRec) (fn : Nat) : (s.toFnRing r fn).walkRam = s.walkRam := by
  simp only [State.toFnRing]; split
  · simp
  · split <;> simp [State.bump]
@[simp] theorem State.toFnRings_walkRam (s : State) (r : FaultRec) (fns : List Nat) : (s.toFnRings r fns).walkRam = s.walkRam := by
  induction fns generalizing s with
  | nil => rfl
  | cons a l ih => simp [State.toFnRings, ih]
@[simp] theorem State.record_walkRam (s : State) (r : FaultRec) (fns : List Nat) : (s.record r fns).walkRam = s.walkRam := by
  simp only [State.record]; split <;> split <;> (try split) <;> simp [State.bump]
@[simp] theorem State.noteFault_walkRam (s : State) (gb u c : Nat) : (s.noteFault gb u c).walkRam = s.walkRam := by
  simp only [State.noteFault]; split <;> split <;> split <;> simp
@[simp] theorem State.benchReport_walkRam (s : State) (gb u c i : Nat) (d : Bool) : (s.benchReport gb u c i d).walkRam = s.walkRam := by
  simp [State.benchReport]
@[simp] theorem State.devReport_walkRam (s : State) (a c i k : Nat) (d : Bool) : (s.devReport a c i k d).walkRam = s.walkRam := by
  simp [State.devReport]
@[simp] theorem State.raise_walkRam (s : State) (gb u c pc it i : Nat) (d : Bool) : (s.raise gb u c pc it i d).walkRam = s.walkRam := by
  simp only [State.raise, State.setHold]; split <;> split <;> simp
@[simp] theorem State.noteRepeat_seqs (s : State) (k : Nat) (r : FaultRec) (w : Bool) : (s.noteRepeat k r w).seqs = s.seqs := by
  simp only [State.noteRepeat]; split <;> rfl
@[simp] theorem State.toDevRing_seqs (s : State) (r : FaultRec) : (s.toDevRing r).seqs = s.seqs := by
  simp only [State.toDevRing]; split <;> simp
@[simp] theorem State.hostStore_seqs (s : State) (a : Nat) (bs : List Byte) : (s.hostStore a bs).seqs = s.seqs := by
  induction bs generalizing s a with
  | nil => rfl
  | cons b r ih => simp [State.hostStore, ih]
@[simp] theorem State.toFnRing_seqs (s : State) (r : FaultRec) (fn : Nat) : (s.toFnRing r fn).seqs = s.seqs := by
  simp only [State.toFnRing]; split
  · simp
  · split <;> simp [State.bump]
@[simp] theorem State.toFnRings_seqs (s : State) (r : FaultRec) (fns : List Nat) : (s.toFnRings r fns).seqs = s.seqs := by
  induction fns generalizing s with
  | nil => rfl
  | cons a l ih => simp [State.toFnRings, ih]
@[simp] theorem State.record_seqs (s : State) (r : FaultRec) (fns : List Nat) : (s.record r fns).seqs = s.seqs := by
  simp only [State.record]; split <;> split <;> (try split) <;> simp [State.bump]
@[simp] theorem State.noteFault_seqs (s : State) (gb u c : Nat) : (s.noteFault gb u c).seqs = s.seqs := by
  simp only [State.noteFault]; split <;> split <;> split <;> simp
@[simp] theorem State.benchReport_seqs (s : State) (gb u c i : Nat) (d : Bool) : (s.benchReport gb u c i d).seqs = s.seqs := by
  simp [State.benchReport]
@[simp] theorem State.devReport_seqs (s : State) (a c i k : Nat) (d : Bool) : (s.devReport a c i k d).seqs = s.seqs := by
  simp [State.devReport]
@[simp] theorem State.raise_seqs (s : State) (gb u c pc it i : Nat) (d : Bool) : (s.raise gb u c pc it i d).seqs = s.seqs := by
  simp only [State.raise, State.setHold]; split <;> split <;> simp
@[simp] theorem State.noteRepeat_prng (s : State) (k : Nat) (r : FaultRec) (w : Bool) : (s.noteRepeat k r w).prng = s.prng := by
  simp only [State.noteRepeat]; split <;> rfl
@[simp] theorem State.toDevRing_prng (s : State) (r : FaultRec) : (s.toDevRing r).prng = s.prng := by
  simp only [State.toDevRing]; split <;> simp
@[simp] theorem State.hostStore_prng (s : State) (a : Nat) (bs : List Byte) : (s.hostStore a bs).prng = s.prng := by
  induction bs generalizing s a with
  | nil => rfl
  | cons b r ih => simp [State.hostStore, ih]
@[simp] theorem State.toFnRing_prng (s : State) (r : FaultRec) (fn : Nat) : (s.toFnRing r fn).prng = s.prng := by
  simp only [State.toFnRing]; split
  · simp
  · split <;> simp [State.bump]
@[simp] theorem State.toFnRings_prng (s : State) (r : FaultRec) (fns : List Nat) : (s.toFnRings r fns).prng = s.prng := by
  induction fns generalizing s with
  | nil => rfl
  | cons a l ih => simp [State.toFnRings, ih]
@[simp] theorem State.record_prng (s : State) (r : FaultRec) (fns : List Nat) : (s.record r fns).prng = s.prng := by
  simp only [State.record]; split <;> split <;> (try split) <;> simp [State.bump]
@[simp] theorem State.noteFault_prng (s : State) (gb u c : Nat) : (s.noteFault gb u c).prng = s.prng := by
  simp only [State.noteFault]; split <;> split <;> split <;> simp
@[simp] theorem State.benchReport_prng (s : State) (gb u c i : Nat) (d : Bool) : (s.benchReport gb u c i d).prng = s.prng := by
  simp [State.benchReport]
@[simp] theorem State.devReport_prng (s : State) (a c i k : Nat) (d : Bool) : (s.devReport a c i k d).prng = s.prng := by
  simp [State.devReport]
@[simp] theorem State.raise_prng (s : State) (gb u c pc it i : Nat) (d : Bool) : (s.raise gb u c pc it i d).prng = s.prng := by
  simp only [State.raise, State.setHold]; split <;> split <;> simp
@[simp] theorem State.noteRepeat_owner (s : State) (k : Nat) (r : FaultRec) (w : Bool) : (s.noteRepeat k r w).owner = s.owner := by
  simp only [State.noteRepeat]; split <;> rfl
@[simp] theorem State.toDevRing_owner (s : State) (r : FaultRec) : (s.toDevRing r).owner = s.owner := by
  simp only [State.toDevRing]; split <;> simp
@[simp] theorem State.hostStore_owner (s : State) (a : Nat) (bs : List Byte) : (s.hostStore a bs).owner = s.owner := by
  induction bs generalizing s a with
  | nil => rfl
  | cons b r ih => simp [State.hostStore, ih]
@[simp] theorem State.toFnRing_owner (s : State) (r : FaultRec) (fn : Nat) : (s.toFnRing r fn).owner = s.owner := by
  simp only [State.toFnRing]; split
  · simp
  · split <;> simp [State.bump]
@[simp] theorem State.toFnRings_owner (s : State) (r : FaultRec) (fns : List Nat) : (s.toFnRings r fns).owner = s.owner := by
  induction fns generalizing s with
  | nil => rfl
  | cons a l ih => simp [State.toFnRings, ih]
@[simp] theorem State.record_owner (s : State) (r : FaultRec) (fns : List Nat) : (s.record r fns).owner = s.owner := by
  simp only [State.record]; split <;> split <;> (try split) <;> simp [State.bump]
@[simp] theorem State.noteFault_owner (s : State) (gb u c : Nat) : (s.noteFault gb u c).owner = s.owner := by
  simp only [State.noteFault]; split <;> split <;> split <;> simp
@[simp] theorem State.benchReport_owner (s : State) (gb u c i : Nat) (d : Bool) : (s.benchReport gb u c i d).owner = s.owner := by
  simp [State.benchReport]
@[simp] theorem State.devReport_owner (s : State) (a c i k : Nat) (d : Bool) : (s.devReport a c i k d).owner = s.owner := by
  simp [State.devReport]
@[simp] theorem State.raise_owner (s : State) (gb u c pc it i : Nat) (d : Bool) : (s.raise gb u c pc it i d).owner = s.owner := by
  simp only [State.raise, State.setHold]; split <;> split <;> simp
@[simp] theorem State.noteRepeat_cells (s : State) (k : Nat) (r : FaultRec) (w : Bool) : (s.noteRepeat k r w).cells = s.cells := by
  simp only [State.noteRepeat]; split <;> rfl
@[simp] theorem State.toDevRing_cells (s : State) (r : FaultRec) : (s.toDevRing r).cells = s.cells := by
  simp only [State.toDevRing]; split <;> simp
@[simp] theorem State.hostStore_cells (s : State) (a : Nat) (bs : List Byte) : (s.hostStore a bs).cells = s.cells := by
  induction bs generalizing s a with
  | nil => rfl
  | cons b r ih => simp [State.hostStore, ih]
@[simp] theorem State.toFnRing_cells (s : State) (r : FaultRec) (fn : Nat) : (s.toFnRing r fn).cells = s.cells := by
  simp only [State.toFnRing]; split
  · simp
  · split <;> simp [State.bump]
@[simp] theorem State.toFnRings_cells (s : State) (r : FaultRec) (fns : List Nat) : (s.toFnRings r fns).cells = s.cells := by
  induction fns generalizing s with
  | nil => rfl
  | cons a l ih => simp [State.toFnRings, ih]
@[simp] theorem State.record_cells (s : State) (r : FaultRec) (fns : List Nat) : (s.record r fns).cells = s.cells := by
  simp only [State.record]; split <;> split <;> (try split) <;> simp [State.bump]
@[simp] theorem State.noteFault_cells (s : State) (gb u c : Nat) : (s.noteFault gb u c).cells = s.cells := by
  simp only [State.noteFault]; split <;> split <;> split <;> simp
@[simp] theorem State.benchReport_cells (s : State) (gb u c i : Nat) (d : Bool) : (s.benchReport gb u c i d).cells = s.cells := by
  simp [State.benchReport]
@[simp] theorem State.devReport_cells (s : State) (a c i k : Nat) (d : Bool) : (s.devReport a c i k d).cells = s.cells := by
  simp [State.devReport]
@[simp] theorem State.raise_cells (s : State) (gb u c pc it i : Nat) (d : Bool) : (s.raise gb u c pc it i d).cells = s.cells := by
  simp only [State.raise, State.setHold]; split <;> split <;> simp
@[simp] theorem State.noteRepeat_accs (s : State) (k : Nat) (r : FaultRec) (w : Bool) : (s.noteRepeat k r w).accs = s.accs := by
  simp only [State.noteRepeat]; split <;> rfl
@[simp] theorem State.toDevRing_accs (s : State) (r : FaultRec) : (s.toDevRing r).accs = s.accs := by
  simp only [State.toDevRing]; split <;> simp
@[simp] theorem State.hostStore_accs (s : State) (a : Nat) (bs : List Byte) : (s.hostStore a bs).accs = s.accs := by
  induction bs generalizing s a with
  | nil => rfl
  | cons b r ih => simp [State.hostStore, ih]
@[simp] theorem State.toFnRing_accs (s : State) (r : FaultRec) (fn : Nat) : (s.toFnRing r fn).accs = s.accs := by
  simp only [State.toFnRing]; split
  · simp
  · split <;> simp [State.bump]
@[simp] theorem State.toFnRings_accs (s : State) (r : FaultRec) (fns : List Nat) : (s.toFnRings r fns).accs = s.accs := by
  induction fns generalizing s with
  | nil => rfl
  | cons a l ih => simp [State.toFnRings, ih]
@[simp] theorem State.record_accs (s : State) (r : FaultRec) (fns : List Nat) : (s.record r fns).accs = s.accs := by
  simp only [State.record]; split <;> split <;> (try split) <;> simp [State.bump]
@[simp] theorem State.noteFault_accs (s : State) (gb u c : Nat) : (s.noteFault gb u c).accs = s.accs := by
  simp only [State.noteFault]; split <;> split <;> split <;> simp
@[simp] theorem State.benchReport_accs (s : State) (gb u c i : Nat) (d : Bool) : (s.benchReport gb u c i d).accs = s.accs := by
  simp [State.benchReport]
@[simp] theorem State.devReport_accs (s : State) (a c i k : Nat) (d : Bool) : (s.devReport a c i k d).accs = s.accs := by
  simp [State.devReport]
@[simp] theorem State.raise_accs (s : State) (gb u c pc it i : Nat) (d : Bool) : (s.raise gb u c pc it i d).accs = s.accs := by
  simp only [State.raise, State.setHold]; split <;> split <;> simp
@[simp] theorem State.noteRepeat_gated (s : State) (k : Nat) (r : FaultRec) (w : Bool) : (s.noteRepeat k r w).gated = s.gated := by
  simp only [State.noteRepeat]; split <;> rfl
@[simp] theorem State.toDevRing_gated (s : State) (r : FaultRec) : (s.toDevRing r).gated = s.gated := by
  simp only [State.toDevRing]; split <;> simp
@[simp] theorem State.hostStore_gated (s : State) (a : Nat) (bs : List Byte) : (s.hostStore a bs).gated = s.gated := by
  induction bs generalizing s a with
  | nil => rfl
  | cons b r ih => simp [State.hostStore, ih]
@[simp] theorem State.toFnRing_gated (s : State) (r : FaultRec) (fn : Nat) : (s.toFnRing r fn).gated = s.gated := by
  simp only [State.toFnRing]; split
  · simp
  · split <;> simp [State.bump]
@[simp] theorem State.toFnRings_gated (s : State) (r : FaultRec) (fns : List Nat) : (s.toFnRings r fns).gated = s.gated := by
  induction fns generalizing s with
  | nil => rfl
  | cons a l ih => simp [State.toFnRings, ih]
@[simp] theorem State.record_gated (s : State) (r : FaultRec) (fns : List Nat) : (s.record r fns).gated = s.gated := by
  simp only [State.record]; split <;> split <;> (try split) <;> simp [State.bump]
@[simp] theorem State.noteFault_gated (s : State) (gb u c : Nat) : (s.noteFault gb u c).gated = s.gated := by
  simp only [State.noteFault]; split <;> split <;> split <;> simp
@[simp] theorem State.benchReport_gated (s : State) (gb u c i : Nat) (d : Bool) : (s.benchReport gb u c i d).gated = s.gated := by
  simp [State.benchReport]
@[simp] theorem State.devReport_gated (s : State) (a c i k : Nat) (d : Bool) : (s.devReport a c i k d).gated = s.gated := by
  simp [State.devReport]
@[simp] theorem State.raise_gated (s : State) (gb u c pc it i : Nat) (d : Bool) : (s.raise gb u c pc it i d).gated = s.gated := by
  simp only [State.raise, State.setHold]; split <;> split <;> simp
@[simp] theorem State.noteRepeat_poolBuf (s : State) (k : Nat) (r : FaultRec) (w : Bool) : (s.noteRepeat k r w).poolBuf = s.poolBuf := by
  simp only [State.noteRepeat]; split <;> rfl
@[simp] theorem State.toDevRing_poolBuf (s : State) (r : FaultRec) : (s.toDevRing r).poolBuf = s.poolBuf := by
  simp only [State.toDevRing]; split <;> simp
@[simp] theorem State.hostStore_poolBuf (s : State) (a : Nat) (bs : List Byte) : (s.hostStore a bs).poolBuf = s.poolBuf := by
  induction bs generalizing s a with
  | nil => rfl
  | cons b r ih => simp [State.hostStore, ih]
@[simp] theorem State.toFnRing_poolBuf (s : State) (r : FaultRec) (fn : Nat) : (s.toFnRing r fn).poolBuf = s.poolBuf := by
  simp only [State.toFnRing]; split
  · simp
  · split <;> simp [State.bump]
@[simp] theorem State.toFnRings_poolBuf (s : State) (r : FaultRec) (fns : List Nat) : (s.toFnRings r fns).poolBuf = s.poolBuf := by
  induction fns generalizing s with
  | nil => rfl
  | cons a l ih => simp [State.toFnRings, ih]
@[simp] theorem State.record_poolBuf (s : State) (r : FaultRec) (fns : List Nat) : (s.record r fns).poolBuf = s.poolBuf := by
  simp only [State.record]; split <;> split <;> (try split) <;> simp [State.bump]
@[simp] theorem State.noteFault_poolBuf (s : State) (gb u c : Nat) : (s.noteFault gb u c).poolBuf = s.poolBuf := by
  simp only [State.noteFault]; split <;> split <;> split <;> simp
@[simp] theorem State.benchReport_poolBuf (s : State) (gb u c i : Nat) (d : Bool) : (s.benchReport gb u c i d).poolBuf = s.poolBuf := by
  simp [State.benchReport]
@[simp] theorem State.devReport_poolBuf (s : State) (a c i k : Nat) (d : Bool) : (s.devReport a c i k d).poolBuf = s.poolBuf := by
  simp [State.devReport]
@[simp] theorem State.raise_poolBuf (s : State) (gb u c pc it i : Nat) (d : Bool) : (s.raise gb u c pc it i d).poolBuf = s.poolBuf := by
  simp only [State.raise, State.setHold]; split <;> split <;> simp
@[simp] theorem State.noteRepeat_metaRam (s : State) (k : Nat) (r : FaultRec) (w : Bool) : (s.noteRepeat k r w).metaRam = s.metaRam := by
  simp only [State.noteRepeat]; split <;> rfl
@[simp] theorem State.toDevRing_metaRam (s : State) (r : FaultRec) : (s.toDevRing r).metaRam = s.metaRam := by
  simp only [State.toDevRing]; split <;> simp
@[simp] theorem State.hostStore_metaRam (s : State) (a : Nat) (bs : List Byte) : (s.hostStore a bs).metaRam = s.metaRam := by
  induction bs generalizing s a with
  | nil => rfl
  | cons b r ih => simp [State.hostStore, ih]
@[simp] theorem State.toFnRing_metaRam (s : State) (r : FaultRec) (fn : Nat) : (s.toFnRing r fn).metaRam = s.metaRam := by
  simp only [State.toFnRing]; split
  · simp
  · split <;> simp [State.bump]
@[simp] theorem State.toFnRings_metaRam (s : State) (r : FaultRec) (fns : List Nat) : (s.toFnRings r fns).metaRam = s.metaRam := by
  induction fns generalizing s with
  | nil => rfl
  | cons a l ih => simp [State.toFnRings, ih]
@[simp] theorem State.record_metaRam (s : State) (r : FaultRec) (fns : List Nat) : (s.record r fns).metaRam = s.metaRam := by
  simp only [State.record]; split <;> split <;> (try split) <;> simp [State.bump]
@[simp] theorem State.noteFault_metaRam (s : State) (gb u c : Nat) : (s.noteFault gb u c).metaRam = s.metaRam := by
  simp only [State.noteFault]; split <;> split <;> split <;> simp
@[simp] theorem State.benchReport_metaRam (s : State) (gb u c i : Nat) (d : Bool) : (s.benchReport gb u c i d).metaRam = s.metaRam := by
  simp [State.benchReport]
@[simp] theorem State.devReport_metaRam (s : State) (a c i k : Nat) (d : Bool) : (s.devReport a c i k d).metaRam = s.metaRam := by
  simp [State.devReport]
@[simp] theorem State.raise_metaRam (s : State) (gb u c pc it i : Nat) (d : Bool) : (s.raise gb u c pc it i d).metaRam = s.metaRam := by
  simp only [State.raise, State.setHold]; split <;> split <;> simp
@[simp] theorem State.noteRepeat_pots (s : State) (k : Nat) (r : FaultRec) (w : Bool) : (s.noteRepeat k r w).pots = s.pots := by
  simp only [State.noteRepeat]; split <;> rfl
@[simp] theorem State.toDevRing_pots (s : State) (r : FaultRec) : (s.toDevRing r).pots = s.pots := by
  simp only [State.toDevRing]; split <;> simp
@[simp] theorem State.hostStore_pots (s : State) (a : Nat) (bs : List Byte) : (s.hostStore a bs).pots = s.pots := by
  induction bs generalizing s a with
  | nil => rfl
  | cons b r ih => simp [State.hostStore, ih]
@[simp] theorem State.toFnRing_pots (s : State) (r : FaultRec) (fn : Nat) : (s.toFnRing r fn).pots = s.pots := by
  simp only [State.toFnRing]; split
  · simp
  · split <;> simp [State.bump]
@[simp] theorem State.toFnRings_pots (s : State) (r : FaultRec) (fns : List Nat) : (s.toFnRings r fns).pots = s.pots := by
  induction fns generalizing s with
  | nil => rfl
  | cons a l ih => simp [State.toFnRings, ih]
@[simp] theorem State.record_pots (s : State) (r : FaultRec) (fns : List Nat) : (s.record r fns).pots = s.pots := by
  simp only [State.record]; split <;> split <;> (try split) <;> simp [State.bump]
@[simp] theorem State.noteFault_pots (s : State) (gb u c : Nat) : (s.noteFault gb u c).pots = s.pots := by
  simp only [State.noteFault]; split <;> split <;> split <;> simp
@[simp] theorem State.benchReport_pots (s : State) (gb u c i : Nat) (d : Bool) : (s.benchReport gb u c i d).pots = s.pots := by
  simp [State.benchReport]
@[simp] theorem State.devReport_pots (s : State) (a c i k : Nat) (d : Bool) : (s.devReport a c i k d).pots = s.pots := by
  simp [State.devReport]
@[simp] theorem State.raise_pots (s : State) (gb u c pc it i : Nat) (d : Bool) : (s.raise gb u c pc it i d).pots = s.pots := by
  simp only [State.raise, State.setHold]; split <;> split <;> simp
@[simp] theorem State.noteRepeat_xfers (s : State) (k : Nat) (r : FaultRec) (w : Bool) : (s.noteRepeat k r w).xfers = s.xfers := by
  simp only [State.noteRepeat]; split <;> rfl
@[simp] theorem State.toDevRing_xfers (s : State) (r : FaultRec) : (s.toDevRing r).xfers = s.xfers := by
  simp only [State.toDevRing]; split <;> simp
@[simp] theorem State.hostStore_xfers (s : State) (a : Nat) (bs : List Byte) : (s.hostStore a bs).xfers = s.xfers := by
  induction bs generalizing s a with
  | nil => rfl
  | cons b r ih => simp [State.hostStore, ih]
@[simp] theorem State.toFnRing_xfers (s : State) (r : FaultRec) (fn : Nat) : (s.toFnRing r fn).xfers = s.xfers := by
  simp only [State.toFnRing]; split
  · simp
  · split <;> simp [State.bump]
@[simp] theorem State.toFnRings_xfers (s : State) (r : FaultRec) (fns : List Nat) : (s.toFnRings r fns).xfers = s.xfers := by
  induction fns generalizing s with
  | nil => rfl
  | cons a l ih => simp [State.toFnRings, ih]
@[simp] theorem State.record_xfers (s : State) (r : FaultRec) (fns : List Nat) : (s.record r fns).xfers = s.xfers := by
  simp only [State.record]; split <;> split <;> (try split) <;> simp [State.bump]
@[simp] theorem State.noteFault_xfers (s : State) (gb u c : Nat) : (s.noteFault gb u c).xfers = s.xfers := by
  simp only [State.noteFault]; split <;> split <;> split <;> simp
@[simp] theorem State.benchReport_xfers (s : State) (gb u c i : Nat) (d : Bool) : (s.benchReport gb u c i d).xfers = s.xfers := by
  simp [State.benchReport]
@[simp] theorem State.devReport_xfers (s : State) (a c i k : Nat) (d : Bool) : (s.devReport a c i k d).xfers = s.xfers := by
  simp [State.devReport]
@[simp] theorem State.raise_xfers (s : State) (gb u c pc it i : Nat) (d : Bool) : (s.raise gb u c pc it i d).xfers = s.xfers := by
  simp only [State.raise, State.setHold]; split <;> split <;> simp
@[simp] theorem State.noteRepeat_outbox (s : State) (k : Nat) (r : FaultRec) (w : Bool) : (s.noteRepeat k r w).outbox = s.outbox := by
  simp only [State.noteRepeat]; split <;> rfl
@[simp] theorem State.toDevRing_outbox (s : State) (r : FaultRec) : (s.toDevRing r).outbox = s.outbox := by
  simp only [State.toDevRing]; split <;> simp
@[simp] theorem State.hostStore_outbox (s : State) (a : Nat) (bs : List Byte) : (s.hostStore a bs).outbox = s.outbox := by
  induction bs generalizing s a with
  | nil => rfl
  | cons b r ih => simp [State.hostStore, ih]
@[simp] theorem State.toFnRing_outbox (s : State) (r : FaultRec) (fn : Nat) : (s.toFnRing r fn).outbox = s.outbox := by
  simp only [State.toFnRing]; split
  · simp
  · split <;> simp [State.bump]
@[simp] theorem State.toFnRings_outbox (s : State) (r : FaultRec) (fns : List Nat) : (s.toFnRings r fns).outbox = s.outbox := by
  induction fns generalizing s with
  | nil => rfl
  | cons a l ih => simp [State.toFnRings, ih]
@[simp] theorem State.record_outbox (s : State) (r : FaultRec) (fns : List Nat) : (s.record r fns).outbox = s.outbox := by
  simp only [State.record]; split <;> split <;> (try split) <;> simp [State.bump]
@[simp] theorem State.noteFault_outbox (s : State) (gb u c : Nat) : (s.noteFault gb u c).outbox = s.outbox := by
  simp only [State.noteFault]; split <;> split <;> split <;> simp
@[simp] theorem State.benchReport_outbox (s : State) (gb u c i : Nat) (d : Bool) : (s.benchReport gb u c i d).outbox = s.outbox := by
  simp [State.benchReport]
@[simp] theorem State.devReport_outbox (s : State) (a c i k : Nat) (d : Bool) : (s.devReport a c i k d).outbox = s.outbox := by
  simp [State.devReport]
@[simp] theorem State.raise_outbox (s : State) (gb u c pc it i : Nat) (d : Bool) : (s.raise gb u c pc it i d).outbox = s.outbox := by
  simp only [State.raise, State.setHold]; split <;> split <;> simp
@[simp] theorem State.noteRepeat_timeNs (s : State) (k : Nat) (r : FaultRec) (w : Bool) : (s.noteRepeat k r w).timeNs = s.timeNs := by
  simp only [State.noteRepeat]; split <;> rfl
@[simp] theorem State.toDevRing_timeNs (s : State) (r : FaultRec) : (s.toDevRing r).timeNs = s.timeNs := by
  simp only [State.toDevRing]; split <;> simp
@[simp] theorem State.hostStore_timeNs (s : State) (a : Nat) (bs : List Byte) : (s.hostStore a bs).timeNs = s.timeNs := by
  induction bs generalizing s a with
  | nil => rfl
  | cons b r ih => simp [State.hostStore, ih]
@[simp] theorem State.toFnRing_timeNs (s : State) (r : FaultRec) (fn : Nat) : (s.toFnRing r fn).timeNs = s.timeNs := by
  simp only [State.toFnRing]; split
  · simp
  · split <;> simp [State.bump]
@[simp] theorem State.toFnRings_timeNs (s : State) (r : FaultRec) (fns : List Nat) : (s.toFnRings r fns).timeNs = s.timeNs := by
  induction fns generalizing s with
  | nil => rfl
  | cons a l ih => simp [State.toFnRings, ih]
@[simp] theorem State.record_timeNs (s : State) (r : FaultRec) (fns : List Nat) : (s.record r fns).timeNs = s.timeNs := by
  simp only [State.record]; split <;> split <;> (try split) <;> simp [State.bump]
@[simp] theorem State.noteFault_timeNs (s : State) (gb u c : Nat) : (s.noteFault gb u c).timeNs = s.timeNs := by
  simp only [State.noteFault]; split <;> split <;> split <;> simp
@[simp] theorem State.benchReport_timeNs (s : State) (gb u c i : Nat) (d : Bool) : (s.benchReport gb u c i d).timeNs = s.timeNs := by
  simp [State.benchReport]
@[simp] theorem State.devReport_timeNs (s : State) (a c i k : Nat) (d : Bool) : (s.devReport a c i k d).timeNs = s.timeNs := by
  simp [State.devReport]
@[simp] theorem State.raise_timeNs (s : State) (gb u c pc it i : Nat) (d : Bool) : (s.raise gb u c pc it i d).timeNs = s.timeNs := by
  simp only [State.raise, State.setHold]; split <;> split <;> simp
@[simp] theorem State.noteRepeat_clockOff (s : State) (k : Nat) (r : FaultRec) (w : Bool) : (s.noteRepeat k r w).clockOff = s.clockOff := by
  simp only [State.noteRepeat]; split <;> rfl
@[simp] theorem State.toDevRing_clockOff (s : State) (r : FaultRec) : (s.toDevRing r).clockOff = s.clockOff := by
  simp only [State.toDevRing]; split <;> simp
@[simp] theorem State.hostStore_clockOff (s : State) (a : Nat) (bs : List Byte) : (s.hostStore a bs).clockOff = s.clockOff := by
  induction bs generalizing s a with
  | nil => rfl
  | cons b r ih => simp [State.hostStore, ih]
@[simp] theorem State.toFnRing_clockOff (s : State) (r : FaultRec) (fn : Nat) : (s.toFnRing r fn).clockOff = s.clockOff := by
  simp only [State.toFnRing]; split
  · simp
  · split <;> simp [State.bump]
@[simp] theorem State.toFnRings_clockOff (s : State) (r : FaultRec) (fns : List Nat) : (s.toFnRings r fns).clockOff = s.clockOff := by
  induction fns generalizing s with
  | nil => rfl
  | cons a l ih => simp [State.toFnRings, ih]
@[simp] theorem State.record_clockOff (s : State) (r : FaultRec) (fns : List Nat) : (s.record r fns).clockOff = s.clockOff := by
  simp only [State.record]; split <;> split <;> (try split) <;> simp [State.bump]
@[simp] theorem State.noteFault_clockOff (s : State) (gb u c : Nat) : (s.noteFault gb u c).clockOff = s.clockOff := by
  simp only [State.noteFault]; split <;> split <;> split <;> simp
@[simp] theorem State.benchReport_clockOff (s : State) (gb u c i : Nat) (d : Bool) : (s.benchReport gb u c i d).clockOff = s.clockOff := by
  simp [State.benchReport]
@[simp] theorem State.devReport_clockOff (s : State) (a c i k : Nat) (d : Bool) : (s.devReport a c i k d).clockOff = s.clockOff := by
  simp [State.devReport]
@[simp] theorem State.raise_clockOff (s : State) (gb u c pc it i : Nat) (d : Bool) : (s.raise gb u c pc it i d).clockOff = s.clockOff := by
  simp only [State.raise, State.setHold]; split <;> split <;> simp
@[simp] theorem State.noteRepeat_freeCtr (s : State) (k : Nat) (r : FaultRec) (w : Bool) : (s.noteRepeat k r w).freeCtr = s.freeCtr := by
  simp only [State.noteRepeat]; split <;> rfl
@[simp] theorem State.toDevRing_freeCtr (s : State) (r : FaultRec) : (s.toDevRing r).freeCtr = s.freeCtr := by
  simp only [State.toDevRing]; split <;> simp
@[simp] theorem State.hostStore_freeCtr (s : State) (a : Nat) (bs : List Byte) : (s.hostStore a bs).freeCtr = s.freeCtr := by
  induction bs generalizing s a with
  | nil => rfl
  | cons b r ih => simp [State.hostStore, ih]
@[simp] theorem State.toFnRing_freeCtr (s : State) (r : FaultRec) (fn : Nat) : (s.toFnRing r fn).freeCtr = s.freeCtr := by
  simp only [State.toFnRing]; split
  · simp
  · split <;> simp [State.bump]
@[simp] theorem State.toFnRings_freeCtr (s : State) (r : FaultRec) (fns : List Nat) : (s.toFnRings r fns).freeCtr = s.freeCtr := by
  induction fns generalizing s with
  | nil => rfl
  | cons a l ih => simp [State.toFnRings, ih]
@[simp] theorem State.record_freeCtr (s : State) (r : FaultRec) (fns : List Nat) : (s.record r fns).freeCtr = s.freeCtr := by
  simp only [State.record]; split <;> split <;> (try split) <;> simp [State.bump]
@[simp] theorem State.noteFault_freeCtr (s : State) (gb u c : Nat) : (s.noteFault gb u c).freeCtr = s.freeCtr := by
  simp only [State.noteFault]; split <;> split <;> split <;> simp
@[simp] theorem State.benchReport_freeCtr (s : State) (gb u c i : Nat) (d : Bool) : (s.benchReport gb u c i d).freeCtr = s.freeCtr := by
  simp [State.benchReport]
@[simp] theorem State.devReport_freeCtr (s : State) (a c i k : Nat) (d : Bool) : (s.devReport a c i k d).freeCtr = s.freeCtr := by
  simp [State.devReport]
@[simp] theorem State.raise_freeCtr (s : State) (gb u c pc it i : Nat) (d : Bool) : (s.raise gb u c pc it i d).freeCtr = s.freeCtr := by
  simp only [State.raise, State.setHold]; split <;> split <;> simp

end Sys2Proof.Machine
end

