-- ==== Sys2Proof/Laws/Units.lean ====
section
/-! SUPPORT. What the shared operations on a scratchpad and its tags can do: each lemma says it once, for the proofs that meet the
operation inside an instruction or an access from outside. -/

namespace Sys2Proof.Machine

open Sys2Proof

/-- A command whose units the device has answers its effect. -/
theorem okIf_next (p : Bool) (s : State) (h : p = true) : okIf p s = .next s := by simp [okIf, h]

/-! ### Tags -/

@[simp] theorem State.fillTags_mem (s : State) (gb first : Nat) (v : Bool) (n : Nat) : (s.fillTags gb first v n).mem = s.mem := by
  induction n with
  | zero => rfl
  | succ n ih => simp [State.fillTags, ih]
@[simp] theorem State.fillTags_sregs (s : State) (gb first : Nat) (v : Bool) (n : Nat) : (s.fillTags gb first v n).sregs = s.sregs := by
  induction n with
  | zero => rfl
  | succ n ih => simp [State.fillTags, ih]

/-- Setting tags, and a region's tag action, touch no byte and no scalar register. -/
@[simp] theorem State.setTags_mem (s : State) (gb first : Nat) (v : Bool) (n : Nat) : (s.setTags gb first v n).mem = s.mem := by
  simp only [State.setTags]; split <;> simp [State.progress]
@[simp] theorem State.setTags_sregs (s : State) (gb first : Nat) (v : Bool) (n : Nat) : (s.setTags gb first v n).sregs = s.sregs := by
  simp only [State.setTags]; split <;> simp [State.progress]
@[simp] theorem State.regionTags_mem (s : State) (gb : Nat) (r : Region) : (s.regionTags gb r).mem = s.mem := by
  simp only [State.regionTags]; repeat' split
  all_goals simp
@[simp] theorem State.regionTags_sregs (s : State) (gb : Nat) (r : Region) : (s.regionTags gb r).sregs = s.sregs := by
  simp only [State.regionTags]; repeat' split
  all_goals simp

/-- Where no region's tags block, waiting for them is over at once. -/
theorem awaitTags_free (gb : Nat) (rs : List Region) (s : State) (h : rs.findSome? (s.regionWait gb) = none) :
    (awaitTags gb rs).run s = (.ok (), s) := by
  simp only [awaitTags, bind, ExceptT.run, ExceptT.bind, ExceptT.mk, StateT.bind, ExceptT.bindCont, get, getThe, MonadStateOf.get,
    liftM, monadLift, MonadLift.monadLift, ExceptT.lift, StateT.get, pure, Functor.map, StateT.map, h]
  rfl

/-! ### Scratchpad bytes and their protection -/

@[simp] theorem State.eccRead_mem (s : State) (gb : Nat) (ecc : List (Nat × Ecc)) (g : Nat) : (s.eccRead gb ecc g).1.mem = s.mem := by
  simp only [State.eccRead, State.setPoison]
  repeat' split
  all_goals simp [State.bump]

@[simp] theorem State.writeGranule_mem (s : State) (gb : Nat) (ecc : List (Nat × Ecc)) (lo len g : Nat) :
    (s.writeGranule gb ecc lo len g).mem = s.mem := by
  simp only [State.writeGranule]
  repeat' split
  all_goals simp

@[simp] theorem State.writeGranules_mem (s : State) (gb : Nat) (ecc : List (Nat × Ecc)) (lo len : Nat) (gs : List Nat) :
    (gs.foldl (fun t g => t.writeGranule gb ecc lo len g) s).mem = s.mem := by
  induction gs generalizing s with
  | nil => rfl
  | cons g r ih => simp [ih]

/-- A write into a scratchpad stores its bytes and no other byte of the device's memory. -/
theorem State.byte_spadWrite_in (s : State) (gb : Nat) (ecc : List (Nat × Ecc)) (lo k : Nat) (bs : List Byte) (hk : k < bs.length) :
    (s.spadWrite gb ecc lo bs).byte (spadBase gb + lo + k) = bs[k] :=
  State.byte_storeBytes_in _ _ k bs hk
theorem State.byte_spadWrite_other (s : State) (gb : Nat) (ecc : List (Nat × Ecc)) (lo c : Nat) (bs : List Byte)
    (hc : c < spadBase gb + lo ∨ spadBase gb + lo + bs.length ≤ c) : (s.spadWrite gb ecc lo bs).byte c = s.byte c := by
  rw [State.spadWrite, State.byte_storeBytes_other _ _ c bs hc]
  exact congrArg (SMap.get 0#8 c) (State.writeGranules_mem _ _ _ _ _ _)

/-- A write from outside does the same; its tag action and its count touch no byte. -/
theorem State.byte_remoteWrite_in (s : State) (gb : Nat) (ecc : List (Nat × Ecc)) (off k act : Nat) (bs : List Byte) (hk : k < bs.length) :
    (s.remoteWrite gb ecc off bs act).byte (spadBase gb + off + k) = bs[k] := by
  rw [← State.byte_spadWrite_in s gb ecc off k bs hk]
  simp [State.remoteWrite, State.byte, State.bump]
theorem State.byte_remoteWrite_other (s : State) (gb : Nat) (ecc : List (Nat × Ecc)) (off c act : Nat) (bs : List Byte)
    (hc : c < spadBase gb + off ∨ spadBase gb + off + bs.length ≤ c) : (s.remoteWrite gb ecc off bs act).byte c = s.byte c := by
  rw [← State.byte_spadWrite_other s gb ecc off c bs hc]
  simp [State.remoteWrite, State.byte, State.bump]

end Sys2Proof.Machine
end

