-- ==== Sys2Proof/Tests/Slice0.lean ====
section
/-! SUPPORT. The model's own tests: values of the spec's worked examples, a command that each well-formedness check refuses, and for
each statement of Certificates/Slice0/Obligations.lean a state and operands that meet its hypotheses. -/

namespace Sys2Proof.Tests

open Sys2Proof Sys2Proof.Machine

set_option Elab.async false

/-! ### Helpers -/

/-- Bench 0 in RUN with `w` as its next instruction. -/
def prog (w : DWord) : State := (State.reset.setSeqState 0 .run).storeNum (imemBase 0) 8 w.toNat

/-- An instruction word with opcode `op` and the low bits `low`. -/
def word (op low : Nat) : DWord := BitVec.ofNat 64 (op * 2 ^ 56 + low)

/-- A window entry of a word, issued to its unit. -/
def entry (w va vb : DWord) : Entry :=
  { id := 0, pc := 0, word := w, va := va, vb := vb, vc := 0#64, vd := 0#64, vbk := 0#64, vbn := 0#64, phase := .issued }

/-- Bench 0 of a state in RUN with the entries `es` in its window. -/
def holding (s : State) (es : List Entry) : State := (s.setSeqState 0 .run).setSeq 0 { window := es, nextId := es.length }

/-- The state that a command answers, reset where it answers none. -/
def after (i : Instr) (s : State) : State :=
  match exec i s with
  | .next t => t
  | _ => State.reset

/-- A word of the fields given as their lowest bit and value. -/
def bits64 (fs : List (Nat × Nat)) : DWord := BitVec.ofNat 64 ((fs.map (fun p => p.2 * 2 ^ p.1)).sum)

/-- The checks `a` pass in `s` and change nothing. -/
def passes (a : Act Unit) (s : State) : Bool :=
  match a.run s with
  | (.ok (), t) => decide (t = s)
  | _ => false

theorem passes_run (a : Act Unit) (s : State) (h : passes a s = true) : a.run s = (.ok (), s) := by
  unfold passes at h
  split at h
  · rename_i t heq
    rw [heq, of_decide_eq_true h]
  · cases h

/-- A transfer between bench 0 and an address, requested. -/
def xfer (k : XKind) (ext : Nat) : Xfer :=
  { id := 3, gb := 0, kind := k, tgt := 0, cls := 0, ext := ext, len := 64, rtag := 0, pieces := [], data := List.replicate 64 7#8,
    phase := .requested }

/-- This device, located and on time, runs partition 15 with tag 7: bench 0 and the first GiB of tier A. -/
def fab : State :=
  let s := (((({ State.reset with owner := State.reset.owner.put 0 0 16 } : State).flag Reg.PART_WIN_VALID 0 true 127).flag
    Reg.PART_WIN_WRITE 0 true 127).flag Reg.DEV_LOCATION_VALID 0 true).flag Reg.FAB_TIME_CFG_VALID 0 true
  let s := ((s.flag Reg.PART_CFG_VALID 0 true 15).wr Reg.PART_CFG_FAB_TAG 0 7 15).wr Reg.PART_STATUS_STATE 0 2 15
  { s with genSeen := s.genSeen.put 0 3584 2 }

/-! ### Witnesses: the sequencer -/

theorem witness_StepRunsFront : (State.reset.withPending [.coolantInletHigh 0 0]).pending = [.coolantInletHigh 0 0] := rfl

theorem witness_CommandsStopOnlyForAbsentUnits :
    (Instr.nop 2559 none).wf = true ∧ (Instr.nop 2560 none).wf = false := by decide +kernel

theorem witness_ScalarInstructionsWriteTheirRegister :
    (prog (word 0x08 0)).takes 0 (word 0x08 0) = true ∧
    (prog (word 0x09 5)).takes 0 (word 0x09 5) = true ∧
    (prog (word 0x0A 7)).takes 0 (word 0x0A 7) = true ∧
    (prog (word 0x0A (2 ^ 52))).takes 0 (word 0x0A (2 ^ 52)) = true ∧
    (prog (word 0x0B 0)).takes 0 (word 0x0B 0) = true ∧
    opc (word 0x0A 7) = 0x0A ∧ fld (word 0x0A 7) 55 52 = 0 ∧ fld (word 0x0A (2 ^ 52)) 55 52 = 1 := by decide +kernel

theorem witness_RegisterZeroIsHardWired : (State.reset.setSreg 2559 31 5#64).sreg 2559 31 = 5#64 ∧ State.reset.sreg 0 31 = 0#64 := by
  decide +kernel

/-- Bench 0 with loop register 7 innermost, at pass `idx` of two, its body from 1 to 3. -/
def looping (idx : Nat) : State :=
  State.reset.setSeq 0 { stack := [7], loops := (({} : Seq).loops).set 7 { active := true, trip := 2, idx := idx, start := 1, fin := 3 } }

theorem witness_SequentialDispatchFollowsTheLoops :
    (State.reset.seq 0).stack = [] ∧ ((looping 0).seq 0).stack = [7] ∧ ((looping 0).seq 0).loops.length = 8 ∧
    (((looping 0).seq 0).loops.getD 7 {}).fin = 3 ∧ ((looping 0).advance 0 3).pc 0 = 1 ∧ ((looping 0).advance 0 2).pc 0 = 3 ∧
    (((looping 1).seq 0).loops.getD 7 {}).trip ≤ (((looping 1).seq 0).loops.getD 7 {}).idx + 1 ∧
    ((looping 1).advance 0 3).pc 0 = 4 ∧ (State.reset.seq 0).loops.length = 8 := by decide +kernel

theorem witness_ControlFlowInstructionsSetThePc :
    (prog (word 0 0)).takes 0 (word 0 0) = true ∧
    (prog (word 0x02 4095)).takes 0 (word 0x02 4095) = true ∧
    (prog (word 0x03 0)).takes 0 (word 0x03 0) = true ∧
    (prog (word 0x03 (2 ^ 52))).takes 0 (word 0x03 (2 ^ 52)) = true ∧
    (prog (word 0x04 (2 ^ 26 + 3))).takes 0 (word 0x04 (2 ^ 26 + 3)) = true ∧
    (prog (word 0x04 (2 ^ 52 + 2 ^ 26))).takes 0 (word 0x04 (2 ^ 52 + 2 ^ 26)) = true ∧
    (prog (word 0x01 0)).takes 0 (word 0x01 0) = true ∧
    condOp (fld (word 0x03 0) 55 52) 0#64 0#64 = true ∧ condOp (fld (word 0x03 (2 ^ 52)) 55 52) 0#64 0#64 = false ∧
    fld (word 0x04 (2 ^ 52 + 2 ^ 26)) 52 52 = 1 ∧ ((prog (word 0x01 0)).seq 0).window = [] ∧
    ((prog (word 0x05 (2 ^ 26))).wr Reg.SEQ_WALK_DIR_LEN 0 2).takes 0 (word 0x05 (2 ^ 26)) = true := by decide +kernel

theorem witness_DispatchChecksRaiseInOrder :
    (let s := prog (word 0xFF 0); s.mayDispatch 0 (s.instr 0 (s.pc 0)) = true ∧ (s.seq 0).past = false ∧
      decodeFault s 0 (s.pc 0) (s.instr 0 (s.pc 0)) = some 0x0601) ∧
    (let s := (prog 0#64).setPc 0 4096; s.mayDispatch 0 (s.instr 0 (s.pc 0)) = true ∧ (s.seq 0).past = true) := by decide +kernel

theorem witness_ScalarAndBranchFrame :
    (∀ l ∈ ((prog 0#64).seq 0).loops, l.walk = false) ∧ exec (.nop 0 none) (prog 0#64) = .next (after (.nop 0 none) (prog 0#64)) ∧
    (prog (word 0x01 0)).takes 0 (word 0x01 0) = true ∧
    (prog (word 0x02 9)).takes 0 (word 0x02 9) = true ∧
    (prog (word 0x03 0)).takes 0 (word 0x03 0) = true ∧
    (prog (word 0x08 (2 ^ 47))).takes 0 (word 0x08 (2 ^ 47)) = true ∧
    (prog (word 0x09 (2 ^ 47))).takes 0 (word 0x09 (2 ^ 47)) = true ∧
    (prog (word 0x0A (2 ^ 47))).takes 0 (word 0x0A (2 ^ 47)) = true ∧
    (prog (word 0x0B (2 ^ 47))).takes 0 (word 0x0B (2 ^ 47)) = true := by
  refine ⟨by decide +kernel, rfl, by decide +kernel⟩

/-- Bench 2,559 in FAULT with nothing in flight. -/
def faulted : State := (State.reset.setSeqState 2559 .fault).setSeq 2559 { window := [{ entry 0#64 0#64 0#64 with phase := .faulted }] }

theorem witness_SequencerCommandsChangeTheState :
    State.reset.mayCommand 1 2559 = true ∧ State.reset.stopped 2559 = true ∧ State.reset.mayCommand 2 2559 = false ∧
    (State.reset.setSeqState 2559 .run).seqState 2559 = .run ∧ (State.reset.setSeqState 2559 .run).stopped 2559 = false ∧
    (State.reset.setSeqState 2559 .drain).seqState 2559 = .drain ∧ (State.reset.seq 2559).window = [] ∧
    faulted.seqState 2559 = .fault ∧ (faulted.seq 2559).drained = true ∧ faulted.mayCommand 1 2559 = true ∧
    (after (.resumeReissue 2559 1) faulted).seqState 2559 = .run ∧ (after (.resumeSkip 2559 1) faulted).seqState 2559 = .run ∧
    (after (.abort 2559 1) faulted).seqState 2559 = .halted := by decide +kernel

theorem witness_HaltedStates : State.reset.halted 2559 = true ∧ faulted.halted 2559 = true ∧
    (State.reset.setSeqState 2559 .run).halted 2559 = false := by decide +kernel

/-- Bench 0 with context 3 of its barriers waiting in epoch 7. -/
def waiting : State :=
  (((State.reset.setSeqState 0 .run).wr Reg.SEQ_BAR_ARRIVE_EPOCH 0 7 3).flag Reg.SEQ_BAR_INFO_OUTSTANDING 0 true 3).flag
    Reg.SEQ_BAR_INFO_WAITING 0 true 3

theorem witness_BarrierArrivalAndRelease :
    (prog (word 0x38 0)).takes 0 (word 0x38 0) = true ∧ (prog (word 0x38 0)).on Reg.SEQ_BAR_INFO_OUTSTANDING 0 0 = false ∧
    (prog (word 0x39 0)).takes 0 (word 0x39 0) = true ∧ opc (entry (word 0x38 0) 1#64 0#64).word = 0x38 ∧
    (let s := (prog (word 0x39 3)).flag Reg.SEQ_BAR_INFO_OUTSTANDING 0 true 3;
      s.takes 0 (word 0x39 3) = true ∧ s.on Reg.SEQ_BAR_INFO_OUTSTANDING 0 3 = true) ∧
    waiting.on Reg.SEQ_BAR_INFO_OUTSTANDING 0 3 = true ∧ waiting.applying (waiting.partOf 0) = false ∧
    ((waiting.wr Reg.BATCH_STATUS_STATE 0 5).wr Reg.PART_STATUS_STATE 0 1 255).applying (waiting.partOf 0) = true ∧ waiting.barrierWait 0 = true ∧
    (2 ^ 31 < (6 + 2 ^ 32 - waiting.rd Reg.SEQ_BAR_ARRIVE_EPOCH 0 3 % 2 ^ 32) % 2 ^ 32) ∧
    (let s := waiting.wr Reg.SEQ_CFG_BAR_LIMIT 0 1; s.rd Reg.SEQ_CFG_BAR_LIMIT 0 * 2 ^ 20 < 2 ^ 20 + 1 ∧ s.barrierWait 0 = true ∧
      (s.seq 0).barLong = false ∧ (after (.seqBarLong 0 (2 ^ 20 + 1)) s).rd Reg.SEQ_STATUS_LAST_FAULT 0 = 0x060A) ∧
    State.reset.mayCommand 1 0 = true ∧ State.reset.stopped 0 = true ∧ State.reset.rd Reg.SEQ_BAR_SEL_CTX 0 < 4 := by
  decide +kernel

theorem witness_WindowEntersIssuesAndRetires :
    (prog (word 0x21 0)).takes 0 (word 0x21 0) = true ∧ opc (word 0x21 0) ∈ windowedOps ∧
    (let e := { entry (word 0x31 0) 0#64 0#64 with phase := .waiting }; let s := holding State.reset [e];
      (s.seq 0).oldest 20 (fun e => e.phase == .waiting) = some e ∧ s.accepts 0 20 = true ∧ isE e.word = false ∧
      bkSel e.word = 0 ∧ bnSel e.word = 0 ∧ s.scoreHold 0 (s.viewed 0 e) = none) ∧
    (let e := { entry (word 0x31 0) 0#64 0#64 with phase := .done };
      ((holding State.reset [e]).seq 0).oldest 20 (fun e => e.phase == .done) = some e) := by decide +kernel

theorem witness_SubstreamWritesNeedAHaltedBench :
    State.reset.reachesBench 2 2559 = true ∧ State.reset.halted 2559 = true ∧ State.reset.rd Reg.BENCH_PRNG_SEL_SUBSTREAM 2559 < 17 ∧
    17 ≤ (State.reset.wr Reg.BENCH_PRNG_SEL_SUBSTREAM 2559 31).rd Reg.BENCH_PRNG_SEL_SUBSTREAM 2559 ∧
    (State.reset.setSeqState 0 .run).halted 0 = false ∧ isAccessor 1 = true ∧
    (State.reset.setSeqState 0 .run).reached 1 (.loc 0x200002000C4) = .reg ⟨.bench, 0, 0xC4, none, 0x200002000C4⟩ ∧
    (dieOfAddr 0x200002000C4).filter (State.reset.setSeqState 0 .run).cutOff = none ∧
    after (.registerWrite 1 (.loc 0x200002000C4) 9) (State.reset.setSeqState 0 .run) =
      (State.reset.setSeqState 0 .run).benchReport 0 22 0x0630 0 := by decide +kernel

theorem witness_ScalarRegisterWriteOverThePath :
    (let s := State.reset.wr Reg.SEQ_SREG_SEL_REG 2559 31; s.reachesBench 2 2559 = true ∧ s.halted 2559 = true ∧
      s.rd Reg.SEQ_SREG_SEL_REG 2559 = 31 ∧ (after (.seqSregHiWrite 2559 2 1) s).sreg 2559 31 = 0x100000000#64 ∧
      (after (.seqSregHiWrite 2559 2 1) (s.setSeqState 2559 .run)).sreg 2559 31 = 0#64) ∧
    State.reset.rd Reg.SEQ_SREG_SEL_REG 2559 = 0 ∧ (State.reset.setSeqState 2559 .run).halted 2559 = false := by decide +kernel

/-! ### Witnesses: the scratchpad -/

theorem witness_ScalarLoadsAndStoresMoveEightBytes :
    (let e := entry (word 0x0C (31 * 2 ^ 51 + 0x7FF8)) 360448#64 0#64
     let s := (holding State.reset [e]).storeNum (spadBase 0 + 393208) 8 77
     s.executes 0 18 e = true ∧ e.clean = true ∧ e.scalarAddr = 393208 ∧ s.sound 0 e.scalarAddr 8 = true ∧
     s.lets 0 [⟨e.scalarAddr, 8, false, tagIn e.word⟩] = true ∧ (after (.ld 0 {}) s).sreg 0 31 = 77#64) ∧
    (let e := entry (word 0x0D 8) 0#64 9#64
     let s := holding State.reset [e]
     s.executes 0 18 e = true ∧ e.clean = true ∧ e.scalarAddr = 8 ∧ s.lets 0 [⟨e.scalarAddr, 8, true, tagOut e.word⟩] = true ∧
     (after (.st 0 {}) s).num (spadBase 0 + 8) 8 = 9) ∧
    (let e := entry (word 0x0C 1) 393208#64 0#64
     let s := holding State.reset [e]
     s.executes 0 18 e = true ∧ e.clean = true ∧ 393208 < e.scalarAddr ∧ (after (.ld 0 {}) s).seqState 0 = .fault) ∧
    (let e := entry (word 0x0D 4) 0#64 0#64
     let s := holding State.reset [e]
     s.executes 0 18 e = true ∧ e.clean = true ∧ e.scalarAddr % 8 ≠ 0 ∧
     (after (.st 0 {}) s).rd Reg.SEQ_STATUS_LAST_FAULT 0 = 0x060C) := by decide +kernel

theorem witness_FillAndCopyStoreTheirRegions :
    (let e := entry (word 0x20 0) 12287#64 0x04030201#64
     let s := holding State.reset [e]
     s.executes 0 18 e = true ∧ e.clean = true ∧ e.empty = false ∧ s.lets 0 [e.fillRegion] = true ∧
     (after (.fill 0 {}) s).num (spadBase 0 + 32 * 12287 + 28) 4 = 0x04030201) ∧
    (let e := { entry (word 0x20 0) 0#64 1#64 with remK := some 0 }
     let s := holding State.reset [e]
     s.executes 0 18 e = true ∧ e.clean = true ∧ e.empty = true ∧ s.lets 0 [e.fillRegion] = true ∧
     (after (.fill 0 {}) s).rd Reg.SEQ_EMPTY_CNT_COUNT 0 = 1) ∧
    (let e := entry (word 0x21 (4 * 2 ^ 32)) 0#64 1#64
     let s := (holding State.reset [e]).storeNum (spadBase 0 + 96) 1 5
     s.executes 0 18 e = true ∧ e.clean = true ∧ e.empty = false ∧ s.lets 0 [e.copySrc, e.copyDst] = true ∧
     tagSelf [e.copySrc, e.copyDst] = false ∧ s.sound 0 e.copySrc.lo e.copySrc.len = true ∧
     (after (.copy 0 {}) s).byte (spadBase 0 + 128) = 5#8) := by decide +kernel

theorem witness_TagCommandsSetTheirSlots :
    (let e := entry (word 0x22 (383 * 2 ^ 42 + 2 ^ 32)) 0#64 0#64
     let s := holding State.reset [e]
     s.executes 0 18 e = true ∧ opc e.word = 0x22 ∧ e.tagFirst + fld e.word 41 33 ≤ 383 ∧ (after (.tagset 0) s).tag 0 383 = true ∧
     (after (.tagset 0) s).tag 0 382 = false) ∧
    (after (.spadTagCtrlGo 2559 1 true 511 380) State.reset).tag 2559 383 = true ∧
    (let s := State.reset.setWait 2559 21 (some (2, 383))
     s.waits.get none (32 * 2559 + 21) = some (2, 383) ∧ s.tag 2559 383 = false) ∧
    (let s := (State.reset.setWait 0 0 (some (1, 0))).setTags 0 0 true 1
     s.waits.get none 0 = some (1, 0) ∧ s.tag 0 0 = true) := by decide +kernel

/-- Bench 0 has asked, with benches 0 and 1 of partition 15 and bench 2 of none. -/
def asked (k : XKind) (ext : Nat) : State :=
  { State.reset with xfers := [xfer k ext], owner := (State.reset.owner.put 0 0 16).put 0 1 16 }

/-- The last 64 bytes of the scratchpad of bench 1, and the first of bench 2. -/
def far : Nat := 0x20000400000 + 0x5FFC0
def foreign : Nat := 0x20000800000

theorem witness_RemoteAccessesAreServedHeldOrRefused :
    (asked .get far).xfer 3 = some (xfer .get far) ∧ placeOf far = .spad 1 0x5FFC0 ∧ placeOf foreign = .spad 2 0 ∧
    (asked .get foreign).refuses 0 2 = true ∧ ((asked .get foreign).remoteWait.get [] 2).length ≤ 8 ∧ (asked .put far).refuses 0 1 = false ∧
    (asked .put far).remoteBlocks 1 0x5FFC0 (xfer .put far) = false ∧ (asked .get far).sound 1 0x5FFC0 64 = true ∧
    (asked .get far).remoteBlocks 1 0x5FFC0 { xfer .get far with rtag := 1 } = true ∧
    (after (.remoteWrite 1 3 []) (asked .put far)).bytes (spadBase 1 + 0x5FFC0) 64 = List.replicate 64 7#8 ∧
    ((after (.remoteRead 2 3 []) (asked .get foreign)).xfer 3).map Xfer.resp = some (some .denied) ∧
    (after (.remoteWaitProceed 1 []) { asked .put far with remoteWait := (asked .put far).remoteWait.put [] 1 [3] }).bytes
      (spadBase 1 + 0x5FFC0) 64 = List.replicate 64 7#8 := by decide +kernel

/-! ### Witnesses: the pots -/

/-- A signed pass of `rgs` row groups over W5 weights in A4, EB 127, its input at granule 1 and its scale at granule 2. -/
def pass (rgs : Nat) : Entry :=
  { entry (word 0x10 0) 0#64 0#64 with
    desc := [bits64 [(59, 5), (56, 3), (55, 1), (40, 127), (29, rgs)], bits64 [(50, 1), (36, 2)], 0#64, 0#64] }

/-- Pot 0 of bench 0 holds W5 weights, that of row 0 and output 0 being 3; input element 0 is 2 at scale 128. -/
def passState (e : Entry) : State :=
  (((((holding State.reset [e]).flag Reg.POT_CFG_VALID 0 true).wr Reg.POT_CFG_WFMT 0 5).setRow 0 0 3).storeNum (spadBase 0 + 32) 1 2).storeNum
    (spadBase 0 + 64) 1 128

theorem witness_ForwardPassOfOneDenseRowGroup :
    (passState (pass 1)).potRuns 0 0 (pass 1) = true ∧ quietEnv {} = true ∧ WFmt.ofNum ((pass 1).pass 0).wfmt = some .w5 ∧
    ((pass 1).pass 0).rgCount = 1 ∧ ((passState (pass 1)).potx 0).cls 0 = 0 ∧
    passes (passChecks 0 0 (pass 1) ((pass 1).pass 0)) (passState (pass 1)) = true ∧
    (passState (pass 1)).lets 0 (((pass 1).pass 0).regions ((passState (pass 1)).potx 0) .w5 (pass 1).word) = true ∧
    (∀ r ∈ ((pass 1).pass 0).regions ((passState (pass 1)).potx 0) .w5 (pass 1).word, (passState (pass 1)).sound 0 r.lo r.len = true) ∧
    ((pass 1).pass 0).scaleFault [128] = none ∧ (passState (pass 1)).num (spadBase 0 + 64) 1 = 128 ∧
    (after (.potPass 0 0 {}) (passState (pass 1))).accs.get 0 0 = 12 := by decide +kernel

/-- The same pot with every row group void. -/
def voidState : State := (passState (pass 32)).setClasses 0 0 32 3

theorem witness_PassOverVoidRowGroupsStartsAChain :
    voidState.potRuns 0 0 (pass 32) = true ∧ passes (passChecks 0 0 (pass 32) ((pass 32).pass 0)) voidState = true ∧
    (∀ g, g < 32 → (voidState.potx 0).cls g = 3) ∧
    ((after (.potPass 0 0 {}) voidState).potx 0).chain = some { eb := 127, mode := 0, wfmt := 5 } := by decide +kernel

/-- A plain load of row 1,023 in W5 from granule 1. -/
def load1 : Entry := entry (word 0x12 (5 * 2 ^ 48 + 1023 * 2 ^ 38 + 2 ^ 27)) 1#64 0#64

/-- A tiled load of every row from granule 1. -/
def loadT : Entry := entry (word 0x12 (12 * 2 ^ 52 + 1024 * 2 ^ 27)) 1#64 0#64

/-- A tile header of 32 void row groups of a W4 image, at granule 1. -/
def tileState : State :=
  ((holding State.reset [loadT]).wr Reg.POT_CFG_ROLE 12 2).storeNum (spadBase 0 + 32) 16 (0xD5 * 2 ^ 56 + 3 * 2 ^ 54 + 32 * 2 ^ 40)

theorem witness_PotLoadsWriteTheirRows :
    (let s := (((holding State.reset [load1]).wr Reg.POT_CFG_WFMT 0 5)).storeNum (spadBase 0 + 32) 1 3
     s.potRuns 0 0 load1 = true ∧ load1.load.tierA = false ∧ tiledPot (s.rd Reg.POT_CFG_ROLE 0) 0 = false ∧
     loadChecks s 0 load1.load false (s.rd Reg.POT_CFG_ROLE 0) = none ∧ WFmt.ofNum load1.load.wfmt = some .w5 ∧
     s.lets 0 (load1.load.region load1.word (128 * load1.load.rows)) = true ∧ s.sound 0 load1.load.src 128 = true ∧
     (after (.potLoad 0 0 {}) s).row 0 1023 = 3) ∧
    tileState.potRuns 0 12 loadT = true ∧ tiledPot (tileState.rd Reg.POT_CFG_ROLE 12) 12 = true ∧
    loadChecks tileState 12 loadT.load true 2 = none ∧ loadT.load.rows = 1024 ∧ loadT.load.rowFirst = 0 ∧
    tileState.lets 0 (loadT.load.region loadT.word 16) = true ∧ tileState.sound 0 32 16 = true ∧
    (let h := TileHdr.ofBytes (tileState.bytes (spadBase 0 + 32) 16)
     h.cls = 3 ∧ h.rgCount = 32 ∧ h.crc = 0 ∧ hdrFault tileState 12 2 loadT.load h 0 none 0 = none) ∧
    (tileState.potx 12).classes.length = 32 := by decide +kernel

/-- A sweep of row 1,023 of WB weights to tier A from address 128 on. -/
def sweep1 : Entry :=
  { entry (word 0x11 0) 0#64 0#64 with desc := [bits64 [(51, 1023), (40, 1), (34, 4)], 0#64, bits64 [(32, 1)], 0#64] }

/-- Bench 0 of partition 15, window 7 of which is the first GiB of tier A, with WB weights in pot 0. -/
def sweepState (e : Entry) : State :=
  ((({ holding State.reset [e] with owner := State.reset.owner.put 0 0 16 } : State).flag Reg.PART_WIN_VALID 0 true 127).flag
    Reg.PART_WIN_WRITE 0 true 127).flag Reg.POT_CFG_VALID 0 true |>.wr Reg.POT_CFG_WFMT 0 4

theorem witness_UpdateSweepRewritesItsRow :
    (let s := sweepState sweep1
     s.potRuns 0 0 sweep1 = true ∧ sweep1.upd.op = 0 ∧ updDescBad sweep1 = false ∧ sweep1.upd.rows = 1 ∧ sweep1.upd.rowFirst = 1023 ∧
     sweep1.upd.rnd = false ∧ sweep1.upd.deltaEn = false ∧ sweep1.upd.resIn = false ∧ sweep1.upd.resOut = false ∧ sweep1.upd.wfmt = 4 ∧
     WFmt.ofNum 4 = some .wb ∧ s.on Reg.POT_CFG_VALID 0 = true ∧ s.rd Reg.POT_CFG_WFMT 0 = 4 ∧
     s.tierOk 0 (128 + 128 * 1023) 128 true = true ∧ s.emitHeld 0 = 0 ∧ s.xfers = [] ∧
     (after (.updateSweep 0 0 {}) s).rd Reg.POT_UPD_STATUS_NEXT_ROW 0 = 1024) := by decide +kernel

/-- A working load of row 1,023 of W5 weights from A5 elements at granule 1, scales at 100, the exponent table at 200. -/
def work1 : Entry :=
  { entry (word 0x11 0) 0#64 0#64 with
    desc := [bits64 [(62, 1), (51, 1023), (40, 1), (34, 5), (31, 4), (30, 1)], bits64 [(50, 1), (36, 100), (8, 200)], 0#64, 0#64] }

/-- Pot 0 is a working pot, and element 0 is -1. -/
def workState : State := (((holding State.reset [work1]).wr Reg.POT_CFG_ROLE 0 1).wr Reg.POT_CFG_WFMT 0 5).storeNum (spadBase 0 + 32) 1 31

theorem witness_WorkingLoadStoresItsElements :
    workState.potRuns 0 0 work1 = true ∧ work1.upd.op = 1 ∧ updDescBad work1 = false ∧ WFmt.ofNum work1.upd.wfmt = some .w5 ∧
    work1.upd.rows = 1 ∧ work1.upd.rowFirst = 1023 ∧ work1.upd.align = false ∧ work1.upd.asign = true ∧ work1.upd.a ≤ WFmt.w5.cols ∧
    workState.lets 0 (work1.upd.workRegions .w5 work1.word) = true ∧ tagSelf (work1.upd.workRegions .w5 work1.word) = false ∧
    workState.sound 0 32 (7 * 20) = true ∧ workState.sound 0 3200 7 = true ∧
    (∀ b, b < 7 → workState.byte (spadBase 0 + 3200 + b) ≠ 255#8) ∧
    (after (.workingLoad 0 0 {}) workState).row 0 1023 % 32 = 31 := by decide +kernel

/-- Pot 11 of bench 2,559 with what it holds beside its registers. -/
def potWith (x : PotX) : State := State.reset.setPotx (potIx 2559 11) x

/-- The same state with die 15 in its window of voltage and point. -/
def inWindow (x : PotX) : State :=
  (((potWith x).wr Reg.PWR_DIE_STATUS_POINT 0 4 15).wr Reg.VR_RAIL_VSENSE 0 775 15).flag Reg.POT_CFG_VALID (potIx 2559 11) true

theorem witness_SlicesAndReloadsOfAPot :
    16 ≤ ((potWith { stormCount := 16 }).potx (potIx 2559 11)).stormCount ∧
    (potWith {}).on Reg.POT_INTEG_RETIRED (potIx 2559 11) = false ∧ ((potWith {}).potx (potIx 2559 11)).want = none ∧
    ((potWith {}).potx (potIx 2559 11)).overdue = false ∧ (potWith {}).rd Reg.POT_ST_INFO_AGE (potIx 2559 11) ≤ 600 ∧
    ((potWith {}).seq 2559).busy 11 = false ∧ ((potWith { want := some .inService }).potx (potIx 2559 11)).want.isSome = true ∧
    (inWindow { want := some .targeted }).potIdle 2559 11 = true ∧ (inWindow { want := some .targeted }).windowOk 15 = true ∧
    ((inWindow { want := some .inService }).potx (potIx 2559 11)).want = some .inService ∧
    (inWindow { want := some .inService }).on Reg.POT_CFG_VALID (potIx 2559 11) = true ∧
    ((inWindow { metaDue := true }).potx (potIx 2559 11)).metaDue = true ∧ ((inWindow { metaDue := true }).potx (potIx 2559 11)).want = none ∧
    (potWith { want := some .inService }).windowOk 15 = false ∧
    (after (.inServiceSlice 2559 11 [] false false 0) (potWith { want := some .inService })).rd Reg.POT_STATUS_LAST_FAULT (potIx 2559 11)
      = 0x0145 := by decide +kernel

/-- Pot 0 of bench 0 in partition 15 with a reload due, its shadow at address 0. -/
def dueState : State :=
  ((({ State.reset with owner := State.reset.owner.put 0 0 16 } : State).flag Reg.PART_WIN_VALID 0 true 127).wr Reg.POT_CFG_WFMT 0 5).setPotx
    0 { reload := true }

/-- An emission of pot 11 of bench 0. -/
def emission : Xfer :=
  { id := 9, gb := 0, kind := .emit, tgt := 0, cls := 0, ext := 131071, len := 128, rtag := 0,
    pieces := [], data := [], phase := .requested, pot := 11 }

theorem witness_ShadowReloadsAndFailedEmissions :
    (dueState.potx 0).reload = true ∧ tiledPot (dueState.rd Reg.POT_CFG_ROLE 0) 0 = false ∧ dueState.tierPoison = [] ∧
    WFmt.ofNum (dueState.rd Reg.POT_CFG_WFMT 0) = some .w5 ∧
    (∀ r, r < 1024 → dueState.tierOk 0 (128 * r) 128 false = true ∧ dueState.tierState (ctlOf (128 * r)) ≠ 3) ∧
    (let s := { State.reset with xfers := [emission] }
     s.xfers.find? (fun y => y.id == 9 && decide (y.kind = .emit)) = some emission ∧
     emission.emitted = [(11, 131071, 1)] ∧ 128 * s.rd Reg.POT_SHADOW_ADDR (potIx 0 11) < 131071 + 1 ∧
     131071 < 128 * s.rd Reg.POT_SHADOW_ADDR (potIx 0 11) + 131072 ∧
     (after (.emissionWriteFail 9) s).rd Reg.POT_STATUS_LAST_FAULT (potIx 0 11) = 0x0163) ∧ dueState.clockStopped 0 = false := by
  decide +kernel

/-! ### Witnesses: the parison -/

/-- A comparison of 128 rows, window 3, threshold 1, for pots 0 and 15, its packed input at granule 1. -/
def cmp1 : Entry :=
  { entry (word 0x18 0) 0#64 0#64 with desc := [bits64 [(60, 3), (52, 1), (32, 127), (16, 0x8001)], bits64 [(50, 1)], 0#64, 0#64] }

/-- Bench 0 calibrated and settled, pair 255 of the window's row 127 being 1, and the input of that row 1. -/
def cmpState : State :=
  ((((holding State.reset [cmp1]).flag Reg.PAR_STATUS_CAL_VALID 0 true).wr Reg.PAR_STATUS_SETTLE_LEFT 0 0).setParx 0
    { prev := some (1, 3) }).storeNum (spadBase 0 + 32 + 31) 1 64 |> fun s =>
  { s with sketch := s.sketch.put 0 (512 * 0 + 511) (BitVec.ofNat 528 (2 ^ 510)) }

theorem witness_CompareGivesTheIdealMask :
    cmpState.executes 0 16 cmp1 = true ∧ cmp1.clean = true ∧ cmp1.empty = false ∧ (cmp1.par 0).op = 0 ∧
    (cmp1.par 0).store = false ∧ (cmp1.par 0).discard = false ∧ passes (parChecks cmp1 (cmp1.par 0)) cmpState = true ∧
    cmpState.lets 0 ((cmp1.par 0).regions cmp1.word) = true ∧ cmpState.sound 0 32 (cmp1.par 0).inLen = true ∧
    (∀ i, i < 128 → ((cmp1.par 0).code (cmpState.bytes (spadBase 0 + 32) (cmp1.par 0).inLen) i).isSome = true) ∧
    (cmpState.parx 0).calDue = false ∧ (cmpState.parx 0).record = none ∧ (cmpState.parx 0).prev = some ((cmp1.par 0).theta, (cmp1.par 0).win) ∧
    (cmpState.parx 0).dead = [] ∧ cmpState.rd Reg.PAR_STATUS_SETTLE_LEFT 0 = 0 ∧ cmpState.on Reg.PAR_STATUS_CAL_VALID 0 = true ∧
    cmpState.on Reg.PAR_STATUS_CAL_STALE 0 = false ∧ cmpState.on Reg.PAR_TRIM_BAD 0 264 = false ∧ cmpState.on Reg.PAR_TRIM_BAD 0 265 = false ∧
    (cmpState.potx (potIx 0 15)).mask = none := by decide +kernel

/-- A load of sketch row 511 from granule 1, and a calibration. -/
def sketch1 : Entry :=
  { entry (word 0x18 0) 0#64 0#64 with desc := [bits64 [(62, 1)], bits64 [(27, 511), (4, 1)], 0#64, 0#64] }
def calNow : Entry := { entry (word 0x18 0) 0#64 0#64 with desc := [bits64 [(62, 2)], 0#64, 0#64, 0#64] }

theorem witness_SketchLoadsAndCalibrations :
    (let s := holding State.reset [sketch1]
     s.executes 0 16 sketch1 = true ∧ sketch1.clean = true ∧ (sketch1.par 0).op = 1 ∧ passes (parChecks sketch1 (sketch1.par 0)) s = true ∧
     s.lets 0 ((sketch1.par 0).regions sketch1.word) = true ∧ s.sound 0 32 64 = true ∧ (sketch1.par 0).loadCount = 1 ∧
     sketchReserved (s.num (spadBase 0 + 32) 64) = false) ∧
    (let s := holding State.reset [calNow]
     s.executes 0 16 calNow = true ∧ calNow.clean = true ∧ (calNow.par 0).op = 2 ∧ passes (parChecks calNow (calNow.par 0)) s = true) ∧
    State.reset.suspectCal 2559 { trims := [5, -31, 30] } = false ∧
    (∀ m, m < 266 → badPair { trims := [5, -31, 30] } m = false) ∧
    ((State.reset.setParx 2559 { calDue := true }).parx 2559).calDue = true ∧
    ((State.reset.setParx 2559 { calDue := true }).parx 2559).computed = none := by decide +kernel

theorem witness_ParisonEventsAndDelivery :
    (let s := State.reset.setParx 2559 { record := some ({ live := 1#256 }, 0x8001) }
     (s.parx 2559).record = some ({ live := 1#256 }, 0x8001) ∧ (∀ p, p < 16 → (s.potx (potIx 2559 p)).mask = none)) ∧
    10 * max 10 (State.reset.rd Reg.PAR_CFG_CAL_PERIOD 0) ≤ (State.reset.parx 0).calAge + 1000000 ∧
    4 * max 1 (State.reset.rd Reg.PAR_CFG_CAL_DTEMP 0) ≤ (((1000 : Nat) : Int) - State.reset.rd Reg.PAR_CAL_INFO_TEMP 0).natAbs ∧
    ((((State.reset.rd Reg.PAR_CAL_INFO_TEMP 0 : Nat) : Int)) - State.reset.rd Reg.PAR_CAL_INFO_TEMP 0).natAbs <
      4 * max 1 (State.reset.rd Reg.PAR_CFG_CAL_DTEMP 0) := by decide +kernel

/-! ### Witnesses: the jack -/

/-- A VEC of `rows` rows of `len` elements: operands at granules 1 and 100, scales at 600, output at 300 and 700. -/
def vec (vop vtype len rows mxfmt imm : Nat) : Entry :=
  { entry (word 0x1C 0) 0#64 0#64 with
    desc := [bits64 [(60, 1), (25, vop), (21, 7), (18, vtype), (15, mxfmt)], bits64 [(50, 1), (36, 600), (22, 300), (8, 700)],
      bits64 [(50, 100)], bits64 [(52, len - 1), (44, rows - 1), (12, imm)]] }

/-- Bench 0 holds the instruction, with words 1.0, 2.0, 3.0 at granule 1, 5.0 at granule 100 and the scale 6 at granule 600. -/
def vecState (e : Entry) : State :=
  ((((holding State.reset [e]).storeNum (spadBase 0 + 32) 12 0x40400000400000003F800000).storeNum (spadBase 0 + 3200) 4 0x40A00000).storeNum
    (spadBase 0 + 19200) 1 6)

/-- The premises `jackRuns` and `vecReady` for such an instruction. -/
def vecRuns (e : Entry) : Bool :=
  (vecState e).jackRuns 0 e && (e.jack 0).op == 1 && passes (jackChecks 0 e (e.jack 0)) (vecState e) &&
  (vecState e).lets 0 ((e.jack 0).vecIn e.word ++ (e.jack 0).vecOut e.word) &&
  ((e.jack 0).vecIn e.word).all (fun r => (vecState e).sound 0 r.lo r.len)

theorem vecRuns_vecReady (e : Entry) (h : vecRuns e = true) :
    (vecState e).jackRuns 0 e = true ∧ (vecState e).vecReady 0 e (e.jack 0) := by
  simp only [vecRuns, Bool.and_eq_true, beq_iff_eq, List.all_eq_true] at h
  exact ⟨h.1.1.1.1, rfl, h.1.1.1.2, passes_run _ _ h.1.1.2, h.1.2, h.2⟩

/-- An INT8 MM of one row and one tile: row at granule 1, its scale at 2, tile at 100, its scales at 140, output at 300. -/
def mm1 : Entry :=
  { entry (word 0x1C 0) 0#64 0#64 with
    desc := [bits64 [(58, 1), (57, 1), (45, 127)], bits64 [(50, 1), (36, 2), (22, 300)], bits64 [(50, 100), (36, 140)], 0#64] }

/-- Its row begins with -1, its tile with 3; the row's scale and every column's are 127. -/
def mmState : State :=
  ((((holding State.reset [mm1]).storeNum (spadBase 0 + 32) 1 255).storeNum (spadBase 0 + 64) 1 127).storeNum (spadBase 0 + 3200) 1 3).storeBytes
    (spadBase 0 + 4480) (List.replicate 32 127#8)

theorem witness_MmOfOneRowMultipliesByItsTile :
    mmState.executes 0 17 mm1 = true ∧ mm1.clean = true ∧ (mmState.jackx 0).retired = false ∧ (mm1.jack 0).op = 0 ∧
    passes (jackChecks 0 mm1 (mm1.jack 0)) mmState = true ∧ (mm1.jack 0).bf = false ∧ (mm1.jack 0).m = 1 ∧ (mm1.jack 0).kt = 1 ∧
    (mm1.jack 0).reuse = false ∧ (mm1.jack 0).cont = false ∧ (mm1.jack 0).outfmt = 0 ∧
    mmState.lets 0 ((mm1.jack 0).ins mm1.word ++ (mm1.jack 0).outs mm1.word) = true ∧
    (∀ r ∈ (mm1.jack 0).ins mm1.word, mmState.sound 0 r.lo r.len = true) ∧ mmState.num (spadBase 0 + 64) 1 = 127 ∧
    (∀ n, n < 32 → mmState.num (spadBase 0 + 4480 + n) 1 = 127) ∧ (mm1.jack 0).eb = 127 ∧
    (let s := (State.reset.wr Reg.VR_RAIL_VSENSE 0 775 15); s.windowOk 15 = true ∧ s.current 2559 17 = none) := by decide +kernel

theorem witness_ElementwiseVectorOperations :
    vecRuns (vec 0 0 3 1 0 0) = true ∧ vecRuns (vec 1 0 3 1 0 0) = true ∧ vecRuns (vec 2 0 3 1 0 0) = true ∧
    vecRuns (vec 3 0 3 1 0 0x40000000) = true ∧ vecRuns (vec 4 0 3 1 0 0x40000000) = true ∧ vecRuns (vec 5 0 3 1 0 0) = true ∧
    vecRuns (vec 6 0 3 1 0 0) = true ∧ vecRuns (vec 7 0 3 1 0 0) = true ∧ vecRuns (vec 0 2 3 1 0 0) = true ∧
    vecRuns (vec 1 2 3 1 0 0) = true ∧ vecRuns (vec 2 2 3 1 0 0) = true ∧ ((vec 2 2 3 1 0 0).jack 0).vrows = 1 ∧
    ((vec 2 2 3 1 0 0).jack 0).bcast = false := by decide +kernel

theorem witness_RowVectorOperations :
    vecRuns (vec 8 0 3 1 0 0) = true ∧ vecRuns (vec 9 0 3 1 0 0) = true ∧ vecRuns (vec 10 0 3 1 0 0) = true ∧
    vecRuns (vec 13 0 32 32 0 0) = true ∧ vecRuns (vec 12 2 3 1 0 254) = true ∧ ((vec 12 2 3 1 0 254).jack 0).imm.toNat % 256 ≠ 255 := by
  decide +kernel

theorem witness_BlockVectorOperations :
    vecRuns (vec 11 0 32 1 0 0) = true ∧ vecRuns (vec 14 0 32 1 1 0) = true ∧ vecRuns (vec 15 1 32 1 1 0) = true ∧
    ((vec 15 1 32 1 1 0).jack 0).rnd = false ∧ (vecState (vec 14 0 32 1 1 0)).num (spadBase 0 + 19200) 1 = 6 ∧
    32 * ((vec 11 0 32 1 0 0).jack 0).outAddr.toNat + 32 ≤ 32 * ((vec 11 0 32 1 0 0).jack 0).oscale.toNat := by decide +kernel

/-! ### Witnesses: DMA and the tiers -/

/-- A DMA instruction of one row of 1 KiB between the last slot and address 0 of tier A. -/
def dma (op : Nat) : Entry :=
  { entry (word 0x28 0) 0#64 0#64 with desc := [bits64 [(61, op), (26, 31), (12, 12256)], 0#64, 0#64, 0#64] }

/-- Bench 0 of partition 15, whose window 7 is the first GiB of tier A. -/
def dmaState (e : Entry) : State :=
  (({ holding State.reset [e] with owner := State.reset.owner.put 0 0 16 } : State).flag Reg.PART_WIN_VALID 0 true 127).flag
    Reg.PART_WIN_WRITE 0 true 127

def dmaReady (op : Nat) : Bool :=
  let e := dma op
  let s := dmaState e
  s.dmaFresh 0 == some e && !s.held 0 19 && e.clean && !e.dmaBad && e.dma.op == op && e.dma.rows == 1 && e.dma.rowLen == 32 &&
  !e.dma.walk && s.xfers.isEmpty

theorem witness_DmaInstructionsBecomeTransfers :
    dmaReady 0 = true ∧ dmaReady 1 = true ∧ dmaReady 2 = true ∧ passes (dmaChecks 0 (dma 0)) (dmaState (dma 0)) = true ∧
    passes (dmaChecks 0 (dma 1)) (dmaState (dma 1)) = true ∧ (dma 0).dma.ext % 1024 + 32 * 32 ≤ 1024 ∧
    32 * (dma 0).dma.spad % 1024 + 32 * 32 ≤ 1024 ∧
    (after (.dmaGet 0 {}) (dmaState (dma 0))).xfers.map Xfer.len = [1024] := by decide +kernel

/-- A transfer of bench 0 in a phase, with an answer, of one piece. -/
def staged (k : XKind) (tgt : Nat) (ph : XPhase) (r : Option XResp) (again : Bool) : Xfer :=
  { id := 3, gb := 0, kind := k, tgt := tgt, cls := 0, ext := 0, len := 32, rtag := 0, pieces := [{ entry := some 0, spad := 32, off := 0, len := 32, act := 0, tile := 0 }],
    data := List.replicate 32 7#8, phase := ph, retried := again, resp := r }

def withXfer (x : Xfer) : State := { (dmaState (dma 0)).wr Reg.DMA_CFG_QUOTA 0 1 |>.wr Reg.DMA_CFG_CAP 0 1 with xfers := [x] }

theorem witness_TransfersPassTheirStages :
    (withXfer (staged .get 0 .merging none false)).xfer 3 = some (staged .get 0 .merging none false) ∧
    (withXfer (staged .get 0 .queued none false)).asks (staged .get 0 .queued none false) = true ∧
    (withXfer (staged .get 0 .queued none false)).buckets.get 0 ((withXfer (staged .get 0 .queued none false)).bucketKey
      (staged .get 0 .queued none false)) < 32 ∧ (withXfer (staged .get 0 .queued none false)).rd Reg.DMA_CFG_QUOTA 0 = 1 ∧
    (withXfer (staged .get 0 .queued none false)).rd Reg.DMA_CFG_CAP 0 = 1 ∧
    ((((withXfer (staged .get 0 .requested (some (.data [])) false)).xfers.filter (fun y => y.gb == 0 && y.phase == .staged)).map
      Xfer.len).sum + 32 ≤ 8192) ∧
    ((staged .get 0 .staged none false).pieces.map Piece.len = [(staged .get 0 .staged none false).data.length]) ∧
    (withXfer (staged .get 2 .requested none true)).xfer 3 = some (staged .get 2 .requested none true) ∧
    ((withXfer (staged .get 2 .requested none true)).seq 0).window.find? (fun e => e.id == 0) = some (dma 0) ∧
    (after (.mergeTimeout 3) (withXfer (staged .get 0 .merging none false))).xfer 3 = some (staged .get 0 .queued none false) ∧
    (after (.trackerGrant 0 []) (withXfer (staged .get 0 .queued none false))).xfer 3 = some (staged .get 0 .held none false) ∧
    (after (.inboundTransferArrival 3 {}) (withXfer (staged .get 0 .requested (some (.data [])) false))).xfer 3 =
      some { staged .get 0 .staged none false with data := [] } ∧
    (after (.transferComplete 3 []) (withXfer (staged .get 0 .staged none false))).num (spadBase 0 + 32) 1 = 7 ∧
    (after (.transferComplete 3 []) (withXfer (staged .put 0 .requested (some .ack) false))).xfer 3 = none ∧
    (after (.transferTimeout 3) (withXfer (staged .get 2 .requested none false))).xfer 3 = some (staged .get 2 .held none true) ∧
    (after (.transferTimeout 3) (withXfer (staged .get 2 .requested none true))).seqState 0 = .fault := by decide +kernel

theorem witness_TierCommandsServeTheirBlocks :
    (let x := staged .get 0 .requested none false
     let s := withXfer x
     s.xfer 3 = some x ∧ x.atTier = true ∧ s.tierPoison = [] ∧ (∀ p ∈ tierPieces x.ext x.len, s.tierState (ctlOf p.1) ≠ 3) ∧
     (after (.tierRead 3 []) s).xfer 3 = some { x with resp := some (.data (List.replicate 32 0#8)) }) ∧
    (let x := staged .put 0 .requested none false
     let s := withXfer x
     s.xfer 3 = some x ∧ x.atTier = true ∧ x.len = x.data.length ∧
     (after (.tierWrite 3 [] []) s).bytes 0 32 = List.replicate 32 7#8) ∧
    (∀ c, c < 12 → State.reset.tierState (ctlOf (scrubAddr c 0)) ≠ 3 ∧ State.reset.tierPoison.get false (scrubAddr c 0 / 64) = false) ∧
    (after (.scrubRead 11 (some .lasting) false) State.reset).tierPoison.get false (scrubAddr 11 0 / 64) = true ∧
    (after (.tierTargetLoss 31) State.reset).rd Reg.MEMB_STATUS_STATE 3 5 = 3 := by decide +kernel

/-! ### Witnesses: punty ports and waits -/

/-- The handle of slots 382 and 383, from bench 0 of this device. -/
def hdl : Handle := { device := 0, bench := 0, first := 382, count := 1, sq := 0, empty := false, user := 5 }

theorem witness_PuntyInstructionsMoveHandles :
    (let e := entry (word 0x30 0) 0#64 hdl.word
     let s := ((holding State.reset [e]).flag Reg.PQ_OUT_ROUTE_VALID 0 true).wr Reg.PQ_OUT_CREDIT_HSLOTS 0 1
     e.frontRange = false ∧ e.bad = none ∧ tagOut e.word = 0 ∧ s.executes 0 21 e = true ∧ tagIn e.word ≠ 3 ∧
     s.on Reg.PQ_OUT_ROUTE_VALID 0 = true ∧ e.empty = false ∧ (Handle.ofWord e.vb).count = s.rd Reg.PQ_OUT_CREDIT_HSLOTS 0 ∧
     (Handle.ofWord e.vb).first + (Handle.ofWord e.vb).count = 383 ∧ s.outPort 0 = [] ∧
     ((after (.pqPut 0 {}) s).outPort 0).map OutHandle.word = [hdl.word]) ∧
    (let e := entry (word 0x31 (31 * 2 ^ 47)) 0#64 0#64
     let s := (holding State.reset [e]).setIn 0 { queue := [hdl.word], owned := [hdl.word] }
     s.executes 0 20 e = true ∧ tagIn e.word = 0 ∧ (s.inPort 0).queue = [hdl.word] ∧ (after (.pqGet 0 {}) s).sreg 0 31 = hdl.word ∧
     (after (.pqGet 0 {}) (holding State.reset [e])).waitOf 0 20 = some (5, 0)) ∧
    (let e := entry (word 0x32 0) 0#64 hdl.word
     let s := ((holding State.reset [e]).setIn 0 { owned := [hdl.word] }).setTags 0 383 true 1
     s.executes 0 20 e = true ∧ tagIn e.word = 0 ∧ (s.inPort 0).owned = [e.vb] ∧ (after (.pqRel 0 {}) s).tag 0 383 = false ∧
     (after (.pqRel 0 {}) s).outbox = [.credit 0 0]) := by decide +kernel

/-- Bench 0 with one handle in its out-port, at a stage, routed to bench 1. -/
def sending (stage : Nat) : State :=
  (State.reset.setOut 0 [{ word := hdl.word, act := 0, pc := 0, stage := stage }]).wr Reg.PQ_OUT_ROUTE_BENCH 0 1

/-- Bench 1 with bench 0 as producer 15, its sub-ring at slot 380. -/
def receiving : State :=
  let s := (State.reset.flag Reg.PQ_IN_PROD_VALID 1 true 15).wr Reg.PQ_IN_PROD_BASE 1 380 15
  { s with producers := s.producers.put 0 31 1 }

theorem witness_HandlesTravelBetweenPorts :
    ((sending 1).outPort 0).map OutHandle.stage = [1] ∧ (sending 1).rd Reg.PQ_OUT_ROUTE_DEVICE 0 = (sending 1).devId ∧
    (sending 1).held 0 21 = false ∧
    ((sending 1).outPort 0).all (fun h => ((sending 1).regionWait 0 h.region).isNone) = true ∧
    (sending 1).sound 0 (1024 * 382) hdl.len = true ∧ (sending 0).rd Reg.PQ_OUT_CREDIT_CREDIT 0 = 0 ∧
    (after (.pqHandleSend 0 {}) (sending 0)).waitOf 0 21 = some (4, 0) ∧
    ((after (.pqDeliveryAck 0 0 false) (sending 2)).outPort 0) = [] ∧
    (receiving.inPort 1).waiting = [] ∧ receiving.producerOf 1 (Handle.ofWord hdl.word).device (Handle.ofWord hdl.word).bench = some 15 ∧
    (Handle.ofWord hdl.word).sq = receiving.rd Reg.PQ_IN_PROD_EXPECT 1 15 ∧
    receiving.regionWait 1 ⟨1024 * 380, 2048, true, 1⟩ = none ∧
    ((after (.pqHandleArrival 1 hdl.word [9#8] []) receiving).inPort 1).queue = [({ hdl with first := 380 } : Handle).word] ∧
    (after (.pqHandleArrival 1 hdl.word [9#8] []) receiving).rd Reg.PQ_IN_PROD_EXPECT 1 15 = 1 ∧
    128 ≤ ((Handle.ofWord hdl.word).sq + 256 - (receiving.wr Reg.PQ_IN_PROD_EXPECT 1 128 15).rd Reg.PQ_IN_PROD_EXPECT 1 15) % 256 ∧
    State.reset.rd Reg.PQ_OUT_CREDIT_ALLOT 0 < 128 := by decide +kernel

/-- Bench 0 of partition 15, stuck in a PQ_GET. -/
def stuck : State :=
  (({ State.reset with owner := State.reset.owner.put 0 0 16 } : State).setWait 0 20 (some (5, 0))).flag Reg.BENCH_WAIT_STATUS_STUCK 0 true

theorem witness_WaitsAreDetected :
    (stuck.firstWait 0).isSome = true ∧ stuck.deadlocked 15 = true ∧ State.reset.deadlocked 15 = false ∧
    (after (.deadlockDetect 15) stuck).seqState 0 = .fault ∧
    (let s := stuck.wr Reg.PQ_IN_PROD_VALID 0 1 0
     let t := { s with producers := s.producers.put 0 0 (4096 * 5 + 1) }
     t.waitsOutside 0 20 = true ∧ [20, 21].find? (fun u => t.waitsOutside 0 u && !t.saidLong 0 u) = some 20 ∧
     (after (.pqRemoteLong 0) t).rd Reg.PQ_STATUS_LAST_FAULT 0 = 0x0807) ∧
    (let s := State.reset.setWait 2559 21 (some (11, 0))
     (List.range 22).find? (fun u => (s.unitWait 2559 u).map Prod.fst == some 11 && !s.saidLong 2559 u) = some 21) ∧
    [20, 21].find? (fun u => State.reset.waitsOutside 0 u && !State.reset.saidLong 0 u) = none := by decide +kernel

/-! ### Witnesses: register paths and accesses from outside -/

theorem witness_RegisterPathReadsAndWrites :
    State.reset.cutOff 15 = false ∧ State.reset.rd Reg.BENCH_PRNG_SEL_SUBSTREAM 2559 < 17 ∧
    (let s := State.reset.wr Reg.SEQ_EMPTY_CNT_COUNT 2559 7
     (after (.rcCounterRead 1 (.loc (spadBase 2559 + 0x200C40))) s).readData = 7 ∧
     (after (.rcCounterRead 1 (.loc (spadBase 2559 + 0x200C40))) s).rd Reg.SEQ_EMPTY_CNT_COUNT 2559 = 0) ∧
    (after (.registerWrite 1 (.loc (spadBase 2559 + 0x200300)) 0x1A05) State.reset).rd Reg.PAR_CFG_CAL_DTEMP 2559 = 10 ∧
    isAccessor 32 = true ∧ State.reset.reached 32 (.loc 0x7FFFFFFFFFF) = .unmapped := by decide +kernel

theorem witness_GuardedFieldsStandAgainstOtherAgents :
    (let l : RegLoc := ⟨.pwr, 0, 0x4, none, 0x7F000004004⟩
     isAccessor 1 = true ∧ State.reset.reached 1 (.loc 0x7F000004004) = .reg l ∧ Reg.PWR_CAP_CAP_W ∈ l.fields ∧
     Reg.PWR_CAP_CAP_W.acc = .rwg ∧
     (after (.registerWrite 1 (.loc 0x7F000004004) 0) State.reset).rd Reg.PWR_CAP_CAP_W 0 = 2800) := by decide +kernel

theorem witness_BenchWindowWritesFromOutside :
    State.reset.cutOff (2559 / 160) = false ∧ State.reset.clockOff.get false 2559 = false ∧ State.reset.stopped 2559 = true ∧
    (State.reset.setSeqState 2559 .run).stopped 2559 = false ∧
    State.reset.cutOff 15 = false ∧ (after (.imemWrite 1 2559 0x7FFC [1#8, 2#8, 3#8, 4#8]) State.reset).num (imemBase 2559 + 0x7FFC) 4 = 0x04030201 ∧
    (∀ b, b < 160 → State.reset.clockOff.get false (160 * 15 + b) = false) ∧
    (let s := { State.reset with owner := State.reset.owner.put 0 2559 16 }
     s.partOf 2559 = 15 ∧ s.rd Reg.BOOT_STATUS_MODE 0 ≠ 2 ∧ s.rd Reg.PART_STATUS_STATE 0 (s.partOf 2559) ≠ 1 ∧ s.sound 2559 0x5FFFF 1 = true ∧
     (after (.hostBarAccess 0 2 (spadBase 2559 - 0x20000000000 + 0x5FFFF) 1 (some [9#8]) []) s).byte (spadBase 2559 + 0x5FFFF) = 9#8) ∧
    (let s := { State.reset with clockOff := State.reset.clockOff.put false 2559 true }
     s.clockStopped 2559 = true ∧
     (after (.hostReadStoppedTimeout 0 (spadBase 2559 - 0x20000000000) false) s).outbox = [.hostAbort 0]) ∧
    State.reset.on Reg.DEV_LOCATION_VALID 0 = false ∧ (after (.devLocationWrite 0 511) State.reset).devId = 511 ∧
    (after (.devLocationWrite 0 511) State.reset).on Reg.DEV_LOCATION_VALID 0 = true := by decide +kernel

theorem witness_ReservedAndReadOnlyDeviceOffsets :
    (after (.rcCounterRead 2 (.loc (0x7F000000000 + 0xFF))) State.reset).readData = 0 ∧
    after (.registerWrite 0 (.loc (0x7F000000000 + 0x44)) 9) State.reset = State.reset ∧
    after (.registerWrite 17 (.page (0x8000 + 0x44)) 9) State.reset = State.reset := by decide +kernel

/-! ### Witnesses: package links and canes -/

/-- Die 15's west link in a state, and its end. -/
def pkg (st fails : Nat) : State :=
  ((State.reset.wr Reg.PKG_LINK_STATUS_STATE 15 st 3).wr Reg.PKG_LINK_STATUS_STATE 14 st 1).wr Reg.PKG_LINK_STATUS_FAILS 15 fails 3

theorem witness_NetworkCommandsActOnTheirLinks :
    hasEdge 15 3 = true ∧ beside 15 3 = 14 ∧ farEdge 3 = 1 ∧ (pkg 1 0).rd Reg.PKG_LINK_STATUS_STATE 15 3 = 1 ∧
    ((pkg 1 0).pkgEnd 15 3).expected = 0 ∧ ((pkg 1 0).pkgEnd 14 1).buffer.length < 256 ∧
    ((after (.pkgFlitReceive 15 3 {} true) (pkg 1 0)).pkgEnd 15 3).expected = 1 ∧
    (((pkg 1 0).setPkg 15 3 { buffer := [{ sq := 1023 }] }).pkgEnd 15 3).buffer = [{ sq := 1023 }] ∧
    ((after (.pkgAckTimeout 15 3) ((pkg 1 0).setPkg 15 3 { buffer := [{ sq := 1023 }] })).pkgEnd 15 3).judged = some 1023 ∧
    (after (.pkgAckTimeout 15 3) ((pkg 1 0).setPkg 15 3 { buffer := [{ sq := 1023 }], judged := some 1023 })).rd
      Reg.PKG_LINK_STATUS_STATE 14 1 = 2 ∧
    (after (.pkgRetrainEnd 15 3 true) (pkg 2 0)).rd Reg.PKG_LINK_STATUS_STATE 14 1 = 1 ∧
    (after (.pkgRetrainEnd 15 3 false) (pkg 2 2)).rd Reg.PKG_LINK_STATUS_STATE 15 3 = 3 ∧
    (let s := (State.reset.flag Reg.NOC_BAR_CFG_HOME 15 true 255).wr Reg.NOC_BAR_CFG_MEMBERS 15 2 255
     s.on Reg.NOC_BAR_CFG_HOME 15 255 = true ∧ (s.groupPart 255).any s.applying = false ∧ s.rd Reg.NOC_BAR_EPOCH_EXPECT 15 255 = 0 ∧
     s.rd Reg.NOC_BAR_CFG_ARRIVED 15 255 + 1 < s.rd Reg.NOC_BAR_CFG_MEMBERS 15 255 ∧
     (after (.barArrivalHome 15 255 0) (after (.barArrivalHome 15 255 0) s)).outbox = [.release 255 0]) := by decide +kernel

/-- Cane 35 in a state. -/
def cane (st : Nat) (x : CaneX) : State := (State.reset.wr Reg.CANE_STATUS_STATE 3 st 8).setCane 35 x

theorem witness_CaneFlitsReplaysAndLanes :
    (cane 3 {}).caneState 35 = 3 ∧ flitOk { ch := 8, chA := 9, chB := 1 } true 0 = true ∧
    (∀ q ∈ [(9, 0), (1, 0)], ((cane 3 {}).cane 35).seen.getD q.1 0 = q.2 ∧ ((cane 3 {}).cane 35).credit.getD q.1 0 ≤ fullCredit.getD q.1 0) ∧
    ((after (.caneFlitReceive 35 { ch := 8, chA := 9, chB := 1 } true 0 {}) (cane 3 {})).cane 35).expected = 1 ∧
    ((after (.caneReplayTimeout 35) (cane 3 { buffer := [{}] })).cane 35).judged = some 4095 ∧
    (after (.lossOfSignal 35) (cane 3 {})).caneState 35 = 4 ∧ (after (.leaveFlit 35 true) (cane 3 {})).caneState 35 = 7 ∧
    (cane 3 {}).crd Reg.CANE_CFG_LANE_TH 35 < 32 ∧
    (let s := (cane 3 { hot := [7] }).cwr Reg.CANE_LANES_GOOD 35 255
     7 ∈ (s.cane 35).hot ∧ s.crd Reg.CANE_LANES_GOOD 35 = 255 ∧ s.minLanes 35 ≤ laneCount (255 - 2 ^ 7) ∧
     2 ^ s.crd Reg.CANE_CFG_LANE_TH 35 < [0, 0, 0, 0, 0, 0, 0, 2 ^ 40].getD 7 0 ∧
     (after (.laneErrorWindow 35 [0, 0, 0, 0, 0, 0, 0, 2 ^ 40] 0) s).caneState 35 = 4) := by decide +kernel

theorem witness_CaneTrainingAndControl :
    (let s := (cane 1 {}).flag Reg.DEV_LOCATION_VALID 0 true
     let tr : TrainTry := { ok := true, good := 255, partner := { device := 511, located := true } }
     s.caneState 35 = 1 ∧ s.crd Reg.CANE_STATUS_FAILS 35 = 0 ∧ s.minLanes 35 ≤ laneCount 255 ∧ s.crd Reg.CANE_EXPECT_VALID 35 = 0 ∧
     s.on Reg.DEV_LOCATION_VALID 0 = true ∧ (after (.caneTraining 35 [tr]) s).caneState 35 = 3 ∧
     (after (.caneTraining 35 [{}, {}, {}]) s).caneState 35 = 5) ∧
    (let s := (cane 4 { former := 3 }).cwr Reg.CANE_LANES_GOOD 35 255
     s.minLanes 35 ≤ laneCount (255 &&& s.crd Reg.CANE_LANES_GOOD 35) ∧
     (after (.retrainEpisode 35 { ok := true } []) s).caneState 35 = 3) ∧
    (let s := ((cane 5 {}).wr Reg.MOD_STATUS_CBL_PRSNT 0 15).cwr Reg.CANE_CFG_AUTO_RETRY 35 1
     s.cabled 35 = true ∧ (after (.autoRetry 35) s).caneState 35 = 1) ∧
    (let s := ((cane 3 {}).wr Reg.MOD_STATUS_CBL_PRSNT 0 15).wr Reg.CANE_SEL_CANE 3 8
     s.rd Reg.CANE_SEL_CANE 3 = 8 ∧ s.cabled 35 = true ∧ (after (.train 3 1) s).caneState 35 = 1 ∧
     (after (.park 3 1) s).caneState 35 = 7 ∧ (after (.retrainFull 3 1) s).caneState 35 = 4 ∧
     (after (.retrainFast 3 1) s).caneState 35 = 4 ∧ (after (.cablePresenceChange 3 true) s).caneState 35 = 5 ∧
     (after (.cablePresenceChange 3 false) s).caneState 35 = 1) := by decide +kernel

/-! ### Witnesses: the fabric -/

/-- A request of this device to itself under tag 7. -/
def req (typ addr len : Nat) (payload : List Byte) : FabMsg :=
  { typ := typ, ftag := 7, gen := 1, addr := addr, len := len, payload := payload, tid := 8191 }

/-- The premise `admits` for such requests. -/
theorem fab_admits (typ addr len : Nat) (payload : List Byte) : fab.admits (req typ addr len payload) 15 := by
  have h : fab.devId = 0 ∧ fab.on Reg.DEV_LOCATION_VALID 0 = true ∧ fab.on Reg.FAB_TIME_CFG_VALID 0 = true ∧
      fab.tagPart 7 = some 15 ∧ fab.genSeen.get 0 3584 = 2 ∧ fab.fabTime / 1024 = 0 := by decide +kernel
  refine ⟨h.1.symm, rfl, fun _ => ⟨h.2.1, h.2.2.1⟩, h.2.2.2.1, h.2.2.2.2.1, ?_⟩
  simp [State.tooOld, req, h.2.2.2.2.2]

theorem witness_FabricReadsWritesAndAtomics :
    fab.fabOk 15 0x40000000 8 false = false ∧ fab.fabOk 15 0x3FFFFFF8 8 true = true ∧ fab.fabReach 3 0x3FFFFFF8 = true ∧
    placeOf 0x3FFFFFF8 = .tierA ∧ fab.tierPoison = [] ∧ (∀ q ∈ tierPieces 0x3FFFFFF8 8, fab.tierState (ctlOf q.1) ≠ 3) ∧
    placeOf (spadBase 0 + 0x5FFE0) = .spad 0 0x5FFE0 ∧ fab.fabOk 15 (spadBase 0 + 0x5FFE0) 32 true = true ∧
    fab.fabOk 15 (spadBase 0 + 0x5FFE0) 32 false = true ∧ fab.fabReach 3 (spadBase 0 + 0x5FFE0) = true ∧
    (fab.regionWait 0 ⟨0x5FFE0, 32, false, 0⟩).isNone = true ∧ fab.sound 0 0x5FFE0 32 = true ∧ fab.benchBlocks 0 0x5FFE0 32 0 = false ∧
    placeOf (imemBase 0) = .imem 0 0 ∧ fab.fabOk 15 (imemBase 0) 8 false = true ∧ fab.fabReach 3 (imemBase 0) = true ∧
    fab.cache.get [] 3 = [] ∧ fab.cacheFull (req 2 0 0 []) = false ∧ fab.inWindow 15 0x3FFFFFF8 true = true ∧
    fab.tagPart 6 = none ∧ (after (.put 3 (req 2 0x3FFFFFF8 8 (List.replicate 8 9#8)) true [] []) fab).byte 0x3FFFFFFF = 9#8 ∧
    ((after (.put 3 (req 2 0x3FFFFFF8 8 (List.replicate 8 9#8)) true [] []) fab).cacheHit (req 2 0 0 [])).isSome = true ∧
    (after (.atomic 3 (req 3 0x3FFFFFF8 8 (leBytes 8 5)) true []) fab).num 0x3FFFFFF8 8 = 5 := by decide +kernel

/-- A message of VC3 to bench 0, with FSEQ 0 of source bench 9. -/
def stream (typ fseq : Nat) (payload : List Byte) : FabMsg := { req typ (spadBase 0) 8 payload with aux := 9 * 65536 + fseq }

theorem witness_FabricStreamsBarriersAndManagement :
    fab.hdlBench 15 (stream 4 0 []) = some 0 ∧ fab.fseqIn.get 0 (flowKey (stream 4 0 [])) = fseqOf (stream 4 0 []) ∧
    (fseqOf (stream 4 32767 []) + 65536 - fab.fseqIn.get 0 (flowKey (stream 4 32767 []))) % 65536 = 32767 ∧
    (after (.hdlData 3 (stream 4 0 [7#8]) true) fab).hdlData.get [] (flowKey (stream 4 0 [])) = [7#8] ∧
    (let s := { fab with producers := fab.producers.put 0 0 (4096 * 0 + 9 + 1) }.flag Reg.PQ_IN_PROD_VALID 0 true
     let h : Handle := { device := 0, bench := 9, first := 0, count := 0, sq := 0, empty := false, user := 0 }
     s.producerOf 0 0 9 = some 0 ∧ s.rd Reg.PQ_IN_PROD_EXPECT 0 0 = 0 ∧ s.portReach 3 0 = true ∧
     (s.regionWait 0 ⟨0, 1024, true, 1⟩).isNone = true ∧
     ((after (.hdl 3 (stream 5 0 (leBytes 8 h.word.toNat)) true []) s).inPort 0).queue = [h.word]) ∧
    ((fab.setSeqState 0 .run).seqState 0 = .run ∧ (after (.stop 3 (req 0x0A 0 0 []) true) (fab.setSeqState 0 .run)).seqState 0 ≠ .run) ∧
    (let s := (fab.flag Reg.FAB_BAR_CFG_VALID 0 true 255).wr Reg.FAB_BAR_CFG_D 0 1 255
     s.on Reg.FAB_BAR_CFG_VALID 0 255 = true ∧ s.rd Reg.FAB_BAR_CFG_HOME 0 255 = s.devId ∧ s.rd Reg.FAB_BAR_EPOCH_F 0 255 = 0 ∧
     s.barSrc.get [] 255 = [] ∧ (s.groupPart 255).any s.applying = false ∧ s.rd Reg.FAB_BAR_CFG_D 0 255 = 1 ∧
     (after (.barArrive 3 (req 8 255 0 []) true) s).barSrc.get [] 255 = [0]) ∧
    (let s := (((fab.flag Reg.NOC_BAR_CFG_HOME 15 true 255).flag Reg.NOC_BAR_CFG_SPANS 15 true 255).wr Reg.NOC_BAR_CFG_MEMBERS 15 1 255).wr
       Reg.NOC_BAR_CFG_ARRIVED 15 1 255
     s.homeDie 255 = some 15 ∧ (s.groupPart 255).any s.applying = false ∧ s.on Reg.NOC_BAR_CFG_SPANS 15 255 = true ∧
     s.rd Reg.NOC_BAR_CFG_ARRIVED 15 255 = s.rd Reg.NOC_BAR_CFG_MEMBERS 15 255 ∧ s.rd Reg.NOC_BAR_EPOCH_EXPECT 15 255 = 0 ∧
     (after (.barRelease 3 (req 9 255 0 []) true) s).rd Reg.NOC_BAR_CFG_ARRIVED 15 255 = 0) ∧
    (after (.cap 3 (req 0x0C 0 4 (leBytes 4 5000)) true) fab).fabCap = some 4200 := by decide +kernel

/-- A transaction of TID 8191 to this device. -/
def txn (typ : Nat) (o : TxnOwner) (retried busy : Bool) : Txn := { msg := req typ 0 0 [], owner := o, retried := retried, busy := busy }
def withTxn (x : Txn) : State := { fab with txns := [x] }

/-- A response to it. -/
def resp (status : Nat) (payload : List Byte) : FabMsg := { req 0x18 0 0 payload with status := status }

theorem witness_ResponsesTimeoutsAndTransit :
    fab.txn 8191 = none ∧ (withTxn (txn 2 .mgmt false false)).txn 8191 = some (txn 2 .mgmt false false) ∧ fab.fabWait = [] ∧
    (after (.rsp 3 (resp 0 []) true) (withTxn (txn 2 .mgmt false false))).txn 8191 = none ∧
    (after (.rspData 3 (resp 0 []) true) (withTxn (txn 3 .mgmt false false))).txn 8191 = none ∧
    (after (.mgmtAck 3 (resp 0 []) true) (withTxn (txn 0x0A .mgmt false false))).txn 8191 = none ∧
    (let x := xfer .get 0
     let s := { withTxn (txn 1 (.xfer 3) false false) with xfers := [x] }
     s.xfer 3 = some x ∧ (after (.rspData 3 (resp 0 [7#8]) true) s).xfer 3 = some { x with resp := some (.data [7#8]) }) ∧
    (after (.rsp 3 (resp 1 []) true) (withTxn (txn 2 .mgmt false false))).txn 8191 = some (txn 2 .mgmt false true) ∧
    fab.hop (req 2 0 0 []) (cornerDie 3) none ≠ .unreach ∧
    (after (.busyResend 8191) (withTxn (txn 2 .mgmt false true))).txn 8191 = some (txn 2 .mgmt false false) ∧
    ((after (.fabTimeout 8191) (withTxn (txn 2 .mgmt false false))).txn 8191).map Txn.retried = some true ∧
    (after (.fabTimeout 8191) (withTxn (txn 2 .mgmt true false))).rd Reg.FAB_STATUS_LAST_FAULT 3 = 0x0C01 ∧
    (let s := { fab with cache := fab.cache.put [] 3 [{ src := 0, tid := 8191, tag := 7, resp := none, time := 0 }], timeNs := 2 ^ 30 + 2 ^ 20 }
     (after (.cacheEntryExpiry 3 0 8191) s).cache.get [] 3 = [] ∧
     ((after (.cacheEntryExpiry 3 0 8191) { s with timeNs := 2 ^ 30 + 2 ^ 20 - 1 }).cache.get [] 3).length = 1) ∧
    (let s := fab.wr Reg.CANE_STATUS_STATE 2 3 6
     s.hop { req 2 0 0 [] with dst := 1 } (cornerDie 3) (some 5) = .out 24 0 0 ∧
     ((after (.messageTransit 3 5 { req 2 0 0 [] with dst := 1 }) s).outbox).length = 1) ∧
    0x1F ∉ fabTypes := by decide +kernel

/-- A child of the time tree in an exchange with its parent, device 0, and its clock's registers. -/
def child (x : TimeX) : State := { fab with timeX := { x with complete := false } }

theorem witness_GlobalTimeFollowsTheParent :
    State.reset.on Reg.FAB_TIME_CFG_MASTER 0 = false ∧ parentOf State.reset.devId 511 = some 448 ∧
    (after (.syncPeriod 511 0) State.reset).timeX.parent = 448 ∧
    (child {}).fromParent (req 0x10 0 0 []) true = true ∧ (after (.sync 3 (req 0x10 0 0 []) true 4) (child {})).timeX.t2 = some 4 ∧
    (child { t2 := some 4 }).timeX.t2.isSome = true ∧
    (after (.followUp 3 (req 0x11 0 8 (leBytes 8 9)) true 6) (child { t2 := some 4 })).timeX.t1 = some 9 ∧
    timeOffset 0 2000 0 0 = 1000 ∧ timeOffset 0 2002 0 0 = 1001 ∧
    (after (.delayResp 3 (req 0x13 0 8 (leBytes 8 0)) true false) (child { t1 := some 0, t2 := some 2000, t3 := some 0 })).timeX.slew = 1000 ∧
    (after (.delayResp 3 (req 0x13 0 8 (leBytes 8 0)) true false) (child { t1 := some 0, t2 := some 2002, t3 := some 0 })).fabTime
      = 2 ^ 64 - 1001 ∧
    (req 0x12 0 0 []).src = fab.devId ∧ 16 ≤ (child { missed := 16 }).timeX.missed ∧
    (after .fabTimeLost (child { missed := 16 })).on Reg.FAB_TIME_CFG_VALID 0 = false ∧
    (let s := fab.flag Reg.FAB_TIME_CFG_MASTER 0 true
     s.on Reg.FAB_TIME_CFG_MASTER 0 = true ∧ s.heldLo.get 0 (Reg.FAB_TIME_LO_TIME_LO.key 0 0) < 2 ^ 32 ∧
     (after (.fabTimeHiWrite 2 (2 ^ 32 - 1)) s).fabTime = (2 ^ 32 - 1) * 2 ^ 32) := by decide +kernel

/-- Ring 15 of the partition with two members, of which this device is the only one known, its queue at the last slot of a MiB. -/
def ringState (x : RingX) (slot : List Byte) : State :=
  let s := ((fab.flag Reg.FAB_RING_CFG_VALID 0 true 15).wr Reg.FAB_RING_CFG_N 0 1 15).wr Reg.FAB_RING_PEER_FTAG 0 7 15
  ((s.wr Reg.FAB_RING_Q_BASE 0 256 15).wr Reg.FAB_RING_CFG_HEAD 0 63 15 |>.setRing 15 x).storeBytes (256 * 4096 + 64 * 63) slot

/-- The command of an all-gather of two blocks of BF16 to DST 4,096, and of an atomic. -/
def gather : CollCmd :=
  { op := 2, inF := 16, outF := 16, wire := 0, eb := 0, count := 2, cseq := 5, src := 0, dst := 4096, notify := spadBase 0 + 0x5FFE0, target := 0,
    operands := [], aop := 0 }

def gathering : RingX := { cmd := some gather, cur := some 5 }

theorem witness_CollectiveCommandsRunOnTheirRing :
    (let s := ringState {} [0xC1#8, 3#8]
     s.tagPart (s.rd Reg.FAB_RING_PEER_FTAG 0 15) = some 15 ∧ (s.ringX 15).cmd = none ∧ s.on Reg.FAB_RING_CFG_VALID 0 15 = true ∧
     s.inWindow 15 (s.slotAddr 15) true = true ∧ placeOf (s.slotAddr 15) = .tierA ∧ s.tierState (ctlOf (s.slotAddr 15)) ≠ 3 ∧
     ofBytes ((s.bytes (s.slotAddr 15) 64).take 1) = 0xC1 ∧ (CollCmd.ofBytes (s.bytes (s.slotAddr 15) 64)).op = 3 ∧
     (CollCmd.ofBytes (s.bytes (s.slotAddr 15) 64)).bad (s.ringN 15) = false ∧
     (CollCmd.ofBytes (s.bytes (s.slotAddr 15) 64)).target / 2 ^ 43 % 512 = s.devId ∧
     (after (.collQueuePoll 15) s).txns.length = 1) ∧
    ofBytes (((ringState {} []).bytes ((ringState {} []).slotAddr 15) 64).take 1) ≠ 0xC1 ∧
    (let s := ringState gathering []
     let due := chunkBlocks 2 (s.ringN 15) (gather.due (s.ringN 15) (s.ringPos' 15) 0)
     (List.range 16).find? (fun r => s.on Reg.FAB_RING_CFG_VALID 0 r && s.rd Reg.FAB_RING_PEER_FTAG 0 r == 7 &&
       s.rd Reg.FAB_RING_PEER_PREV 0 r == 0) = some 15 ∧ gather.steps (s.ringN 15) = 1 ∧ due = [0] ∧ 1 ∉ due ∧ serialDist 5 5 = 0 ∧
     fmtBf gather.outF = true ∧ s.inWindow 15 4096 true = true ∧ s.inWindow 15 (4096 + 63) true = true ∧
     (∀ q ∈ tierPieces 4096 64, s.tierState (ctlOf q.1) ≠ 3) ∧
     (after (.coll 3 { req 6 0 64 (List.replicate 64 9#8) with aux := 5 } true) s).byte 4159 = 9#8) ∧
    (let s := ringState { gathering with status := some 0 } [0xC1#8]
     placeOf gather.notify = .spad 0 0x5FFE0 ∧ s.partOf 0 = 15 ∧ s.benchBlocks 0 0x5FFE0 32 1 = false ∧ s.slotAddr 15 % 64 = 0 ∧
     (after (.collComplete 15) s).rd Reg.FAB_RING_CFG_HEAD 0 15 = 0 ∧ (after (.collComplete 15) s).num (s.slotAddr 15) 1 = 0 ∧
     (after (.collComplete 15) s).num (spadBase 0 + 0x5FFE0) 4 = 5) := by decide +kernel

/-! ### Witnesses: batch loads -/

/-- The part code and stepping that an image names, and a batch image of partition 15: PART_PARAMS and one zero entry of BENCH_CFG. -/
def imgHead : List Byte :=
  leBytes 4 0xB47C1A9E ++ leBytes 2 1 ++ leBytes 1 1 ++ leBytes 1 15 ++ leBytes 4 208 ++ leBytes 4 2 ++
  leBytes 2 (State.reset.rd Reg.DEV_ID_PART_CODE 0) ++ leBytes 1 255 ++ leBytes 1 0 ++ leBytes 4 0 ++ leBytes 8 0 ++ leBytes 32 0
def imgBody : List Byte :=
  imgHead ++ (leBytes 2 0x10 ++ leBytes 2 15 ++ leBytes 4 8 ++ leBytes 8 0) ++ (leBytes 2 0x11 ++ leBytes 2 15 ++ leBytes 4 16 ++ leBytes 16 0)
def img : List Byte := imgBody ++ leBytes 4 (crc32c imgBody) ++ leBytes 100 0

/-- The fabric tests' device with a load of partition 15 in a state. -/
def loading (st : Nat) (x : LoadX) : State :=
  { (fab.wr Reg.BATCH_STATUS_STATE 0 st).wr Reg.BATCH_LEN_LEN 0 208 with load := some x, keys := fab.keys.put 0 0 1 }

def partLoad : LoadX := { op := 1, part := 15, fn := 0, mbox := false, bytes := img }

/-- VERIFY passes wherever the signature does. -/
theorem witness_verify (h : ∀ k d g, Config.signatureOk k d g = true) : (loading 2 partLoad).verifyImage 1 15 img = none := by
  unfold State.verifyImage
  simp only [h]
  decide +kernel

theorem witness_BatchLoadsPassTheirStates :
    State.reset.rd Reg.BOOT_STATUS_MODE 0 ≠ 2 ∧ State.reset.rd Reg.BATCH_STATUS_STATE 0 = 0 ∧ fab.on Reg.PART_CFG_VALID 0 15 = true ∧
    (loading 1 partLoad).rd Reg.BATCH_STATUS_STATE 0 ≠ 0 ∧
    (loading 1 partLoad).stageCut img.length = false ∧ img.length = min ((loading 1 partLoad).rd Reg.BATCH_LEN_LEN 0) (2 ^ 27) ∧
    imgCrcOk img = true ∧ imgCrcOk (img.set 20 1#8) = false ∧ (img.set 20 1#8).length = img.length ∧ partLoad.again = false ∧
    (loading 2 partLoad).rd Reg.BATCH_STATUS_STATE 0 = 2 ∧ (loading 2 partLoad).verifyImage 1 15 (img.set 0 0#8) = some (0x0D01, 0) ∧
    (let i := imageOf img [.partParams 0 0 0 0 0, .benchCfg]
     (loading 3 partLoad).rd Reg.BATCH_STATUS_STATE 0 = 3 ∧ (loading 3 partLoad).checkImage 1 15 img i = none ∧
     (loading 3 partLoad).checkImage 1 14 img i = some (0x0D07, 64)) ∧
    (loading 4 partLoad).loadTracked partLoad = false ∧
    (let s := { loading 4 partLoad with xfers := [{ xfer .get 0 with phase := .held }] }
     s.rd Reg.BATCH_STATUS_STATE 0 = 4 ∧ s.loadTracked partLoad = true) ∧
    (loading 5 partLoad).rd Reg.BATCH_STATUS_STATE 0 = 5 ∧ (loading 5 partLoad).rd Reg.PWR_STATUS_MODE 0 ≠ 2 ∧
    (let x := { partLoad with img := some (imageOf img [.partParams 0 0 0 0 0, .benchCfg]) }
     x.img.isSome = true ∧ x.op = 1 ∧ x.part < 16) ∧
    ({ partLoad with op := 2 } : LoadX).img = none := by decide +kernel

/-! ### Witnesses: power, temperature, the module -/

/-- Die 15 with what the power control keeps of it. -/
def dieWith (x : DieX) : State := State.reset.setDie 15 x

theorem witness_CapsAndOperatingPoints :
    State.reset.on Reg.PWR_CAP_FAB_CAP 0 = false ∧ (after (.deviceCap 5000) State.reset).rd Reg.PWR_CAP_CAP_W 0 = 4200 ∧
    (let s := { State.reset with fabCap := some 900 }.flag Reg.PWR_CAP_FAB_CAP 0 true
     s.on Reg.PWR_CAP_FAB_CAP 0 = true ∧ s.fabCap = some 900 ∧ (after (.deviceCap 901) s).rd Reg.PWR_CAP_CAP_W 0 = 900 ∧
     (after (.deviceCap 901) s).rd Reg.PWR_CAP_SOURCE 0 = 2) ∧
    State.reset.rackCap = none ∧ (after (.fallback 100) State.reset).rd Reg.PWR_CAP_CAP_W 0 = 100 ∧
    (after (.fabCap 2) State.reset).on Reg.PWR_CAP_FAB_CAP 0 = false ∧
    (let s := (after (.deviceCap 900) State.reset).wr Reg.PWR_CAP_LEASE_S 0 255
     s.rd Reg.PWR_CAP_LEASE_S 0 ≠ 0 ∧ s.on Reg.PWR_STATUS_MGR_LOST 0 = false ∧ (after .leaseExpiry s).rackCap = none ∧
     (after .leaseExpiry s).rd Reg.PWR_CAP_CAP_W 0 = 2800) ∧
    ((dieWith { change := some 7 }).die 15).change = some 7 ∧ (dieWith { change := some 7 }).dieFenced 15 = false ∧
    15 ∈ State.reset.liveDies ∧ (State.reset.wr Reg.PWR_STATUS_MODE 0 1).rd Reg.PWR_STATUS_MODE 0 = 1 ∧
    (State.reset.wr Reg.VR_PHASES_LOSSES 0 2 15).rd Reg.VR_PHASES_LOSSES 0 15 = 2 ∧
    phaseFails (State.reset.rd Reg.VR_PHASES_OK 0 15) ⟨40001, 480012⟩ = true ∧
    phaseFails (State.reset.rd Reg.VR_PHASES_OK 0 15) ⟨40000, 480000⟩ = false ∧
    (let s := (dieWith { p0Ticks := 200 }).wr Reg.PWR_DIE_STATUS_POINT 0 0 15
     s.point 15 = 0 ∧ 200 ≤ (s.die 15).p0Ticks ∧ (after (.p0ResidencyLimit 15) s).on Reg.PWR_DIE_STATUS_P0_BARRED 0 15 = true) := by
  decide +kernel

theorem witness_TemperatureLimitsAndFences :
    (after (.softThrottle 15 380) State.reset).rd Reg.THERM_STATUS_STATE 0 15 = 1 ∧
    after (.hardThrottle 15 419) State.reset = State.reset.wr Reg.THERM_STATUS_TEMP 0 419 15 ∧
    State.reset.rd Reg.THERM_STATUS_STATE 0 15 = 0 ∧ (after (.hardThrottle 15 420) State.reset).point 15 = 7 ∧
    State.reset.on Reg.THERM_STATUS_TRIP_LATCH 0 24 = false ∧
    (after (.thermalTrip 24 4095) State.reset).rd Reg.THERM_STATUS_STATE 0 24 = 3 ∧
    (State.reset.wr Reg.CANE_STATUS_STATE 3 3 8).caneState 35 = 3 ∧
    (after (.thermalTrip 19 460) (State.reset.wr Reg.CANE_STATUS_STATE 3 3 8)).caneState 35 = 5 ∧
    (let s := State.reset.wr Reg.THERM_STATUS_STATE 0 2 15
     s.rd Reg.THERM_STATUS_STATE 0 15 = 2 ∧ (after (.lehrExit 15 360) s).rd Reg.THERM_STATUS_STATE 0 15 = 0) ∧
    (let s := (State.reset.wr Reg.THERM_SEL_DIE 0 24).flag Reg.THERM_STATUS_TRIP_LATCH 0 true 24
     s.rd Reg.THERM_SEL_DIE 0 = 24 ∧ (s.wr Reg.THERM_STATUS_TEMP 0 360 24).rd Reg.THERM_STATUS_TEMP 0 24 = 360 ∧
     (after (.clearTrip 0) (s.wr Reg.THERM_STATUS_TEMP 0 361 24)).on Reg.THERM_STATUS_TRIP_LATCH 0 24 = true ∧
     (after (.clearTrip 0) (s.wr Reg.THERM_STATUS_TEMP 0 360 24)).on Reg.THERM_STATUS_TRIP_LATCH 0 24 = false) ∧
    (∀ k, k < 8 → sensorBad (List.replicate 8 600) k = false) ∧ (∀ k, k < 8 → sensorBad (List.replicate 8 601) k = true) ∧
    (∀ k, k < 2 → sensorBad [0, 80] k = false) ∧ (∀ k, k < 2 → sensorBad [0, 81] k = true) ∧
    State.reset.inletHigh = false ∧ (after (.coolantInletHigh 161 0) State.reset).rd Reg.THERM_STATUS_LAST_FAULT 0 24 = 0x0E25 ∧
    (after (.telemetryPublish 1 2 []) State.reset).rd Reg.PWR_BAR_WAIT_FRACTION 0 = 512 := by decide +kernel

/-- A device in service, in a state of its withdraw, with bench 0 of partition 15 in RUN. -/
def wd (st : Nat) : State := (fab.wr Reg.FLT_WD_STATUS_STATE 0 st).setSeqState 0 .run

theorem witness_ModuleEventsAndWithdraw :
    (after (.withdrawReq 1) { wd 0 with ready := true }).rd Reg.FLT_WD_STATUS_STATE 0 = 1 ∧
    (after .withdrawForced { wd 0 with ready := true }).seqState 0 ≠ .run ∧
    ({ wd 0 with ready := true }.flag Reg.FLT_WD_STATUS_LATCH 0 true).on Reg.FLT_WD_STATUS_LATCH 0 = true ∧
    (after (.withdrawReq 2) (wd 1)).rd Reg.FLT_WD_STATUS_STATE 0 = 0 ∧
    (after .graceExpiry (wd 1)).rd Reg.FLT_WD_STATUS_STATE 0 = 2 ∧ (wd 1).partOf 0 = 15 ∧
    (wd 1).rd Reg.PART_STATUS_STATE 0 15 = 2 ∧
    (∀ p, p < 16 → State.reset.rd Reg.PART_STATUS_STATE 0 p = 0) ∧ (wd 3).rd Reg.FLT_WD_STATUS_STATE 0 = 3 ∧ (wd 3).txns = [] ∧
    vinOk 4800 = true ∧ vinOk 4799 = false ∧ State.reset.vinOut = false ∧ State.reset.flowLow = false ∧
    (after (.vinOutOfRange 4799) State.reset).rd Reg.MOD_STATUS_LAST_FAULT 0 = 0x1110 ∧
    (after (.coolantFlowLow 299) State.reset).flowLow = true ∧
    (after (.entdaa 127) State.reset).rd Reg.MOD_MGMT_DADDR 0 = 127 ∧ State.reset.on Reg.MOD_STATUS_MGMT_ADDR 0 = false ∧
    ({ State.reset with pldmEvents := [(1, 2)] } : State).pldmEvents = [(1, 2)] := by decide +kernel

/-! ### Witnesses: starts, the mailbox, host queues -/

/-- A start in step `j`. -/
def atS (j : Nat) (wait : Bool) : State := { State.reset.wr Reg.BOOT_STATUS_STEP 0 j with s8Wait := wait }

theorem witness_StartsAndRestarts :
    (State.reset.wr Reg.BOOT_STATUS_MODE 0 3).rd Reg.BOOT_STATUS_MODE 0 = 3 ∧ State.reset.swOpen = false ∧
    (State.reset.flag Reg.BOOT_POLICY_AUTO_RESTART 0 true).on Reg.BOOT_POLICY_AUTO_RESTART 0 = true ∧
    ({ State.reset with restart := some (true, 15) } : State).restart = some (true, 15) ∧ State.reset.rd Reg.FLT_WD_STATUS_STATE 0 ≠ 4 ∧
    (atS 8 true).inS8 = true ∧ (atS 8 true).s8Wait = true ∧ (atS 8 true).on Reg.DEV_LOCATION_VALID 0 = false ∧
    (after (.location 511) (atS 8 true)).devId = 511 ∧ (after .locWaitTimeout (atS 8 true)).s8Wait = false ∧
    (atS 8 false).inS8 = true ∧ (atS 10 false).atStep 10 = true ∧ (atS 0 false).atStep 0 = true ∧
    (after .bootStepLimit (atS 10 false)).rd Reg.BOOT_STEP_OUTCOME 0 10 = 3 ∧
    (let s := ((List.range 36).foldl (fun t c => t.wr Reg.CANE_STATUS_STATE (c / 9) 5 (c % 9)) (atS 8 false))
     ∀ c, c < 36 → s.caneState c ≠ 0 ∧ s.caneState c ≠ 1 ∧ s.caneState c ≠ 4) ∧
    (fab.on Reg.DEV_LOCATION_VALID 0 = true) ∧
    (let s := { State.reset.wr Reg.BOOT_STATUS_MODE 0 1 with svRestarts := [0, 0] }
     s.rd Reg.BOOT_STATUS_MODE 0 = 1 ∧ s.on Reg.BOOT_FW_S_HELD 0 = false ∧
     (after .heartbeatTimeout s).rd Reg.BOOT_STATUS_LAST_FAULT 0 = 0x0F13) := by decide +kernel

/-- A mailbox request of a function. -/
def asking (fn : Nat) (bs : List Byte) : State :=
  { fab.flag Reg.HOST_MBOX_STATUS_BUSY fn true with mbox := fab.mbox.put [] fn bs, keys := fab.keys.put 0 0 1 }

/-- A key command: OP, SLOT, a serial, COUNTER, MIN_VERSION, a key and its signature. -/
def keyCmd (magic op slot serial : Nat) : List Byte :=
  leBytes 2 3 ++ leBytes 6 0 ++ leBytes 4 magic ++ leBytes 1 op ++ leBytes 1 slot ++ leBytes 2 0 ++ leBytes 5 serial ++ leBytes 7 0 ++
  leBytes 4 1 ++ leBytes 4 1 ++ leBytes 96 5 ++ leBytes 96 0

theorem ofBytes_leBytes (k n : Nat) : ofBytes (leBytes k n) = n % 2 ^ (8 * k) := by
  induction k generalizing n with
  | zero => simp [leBytes, ofBytes, Nat.mod_one]
  | succ k ih =>
    simp only [leBytes, ofBytes, ih, BitVec.toNat_ofNat]
    have e : 2 ^ (8 * (k + 1)) = 2 ^ 8 * 2 ^ (8 * k) := by rw [← Nat.pow_add]; congr 1; omega
    rw [e]
    exact Nat.mod_mul.symm

/-- Every key command is allowed that the spec allows wherever its signature passes, whatever this device's serial is. -/
theorem witness_keys (h : ∀ k d g, Config.signatureOk k d g = true) (op : Nat) (ho : op < 3) :
    ((asking 0 (keyCmd 0xB47C4B59 op 7 serialNow)).keyCommon && (asking 0 (keyCmd 0xB47C4B59 op 7 serialNow)).keyAllowed) = true := by
  have h5 : (asking 0 (keyCmd 0xB47C4B59 op 7 serialNow)).keyField 8 5 = serialNow :=
    (ofBytes_leBytes 5 serialNow).trans (Nat.mod_mod _ _)
  rw [State.keyCommon, h5, beq_self_eq_true]
  have hc : op = 0 ∨ op = 1 ∨ op = 2 := by omega
  rcases hc with rfl | rfl | rfl <;>
    (simp only [State.keyAllowed, State.keySigned, h]; decide +kernel)

/-- A firmware image passes wherever its signature does. -/
def fwBody : List Byte :=
  leBytes 4 0xB47CF1A6 ++ leBytes 1 1 ++ leBytes 1 0 ++ leBytes 2 65535 ++ leBytes 4 9 ++ leBytes 4 0 ++
  leBytes 2 (State.reset.rd Reg.DEV_ID_PART_CODE 0) ++ leBytes 1 255 ++ leBytes 45 0
def fw : List Byte := fwBody ++ leBytes 4 (crc32c fwBody) ++ leBytes 100 0

theorem witness_firmware (h : ∀ d g, Config.firmwareOk d g = true) : fab.fwImageOk fw = true := by
  simp only [State.fwImageOk, h]
  decide +kernel

theorem witness_MailboxKeysImagesAndRings :
    fab.load = none ∧ fab.rd Reg.BOOT_STATUS_MODE 0 ≠ 2 ∧ fab.rd Reg.BATCH_STATUS_STATE 0 = 0 ∧
    (asking 16 (leBytes 2 1)).asked 16 1 = true ∧
    ((asking 0 (leBytes 8 2 ++ leBytes 1 15)).asked 0 2 = true ∧ (asking 0 (leBytes 8 2 ++ leBytes 1 15)).askedPart 0 8 = 15 ∧
      (asking 0 (leBytes 8 2 ++ leBytes 1 15)).on Reg.PART_CFG_VALID 0 15 = true) ∧
    ((asking 0 (keyCmd 1 0 7 0)).asked 0 3 = true ∧ (asking 0 (keyCmd 1 0 7 0)).keyOp = 0 ∧ (asking 0 (keyCmd 1 0 7 0)).keyCommon = false) ∧
    (asking 0 (keyCmd 1 1 7 0)).keyOp = 1 ∧ (asking 0 (keyCmd 1 2 7 0)).keyOp = 2 ∧
    ((asking 0 (leBytes 2 6 ++ leBytes 14 0 ++ leBytes 4 168)).asked 0 6 = true ∧
      fw.length = (asking 0 (leBytes 2 6 ++ leBytes 14 0 ++ leBytes 4 168)).mboxField 0 16 4 ∧ fab.fwImageOk (fw.set 0 0#8) = false ∧
      (asking 0 (leBytes 2 6 ++ leBytes 14 0 ++ leBytes 4 168)).stageCut 168 = false ∧
      (after (.fwUpdate (fw.set 0 0#8)) (asking 0 (leBytes 2 6 ++ leBytes 14 0 ++ leBytes 4 168))).rd Reg.HOST_MBOX_STATUS_RESULT 0 = 0x0F10) ∧
    (asking 0 (keyCmd 1 1 7 0)).asked 0 3 = true ∧ (asking 0 (keyCmd 1 2 7 0)).asked 0 3 = true ∧
    (after .keyRevoke (asking 0 (keyCmd 1 1 7 0))).rd Reg.HOST_MBOX_STATUS_RESULT 0 = 0x0F21 ∧
    (let s := asking 0 (leBytes 2 7)
     (((s.ledger[s.mboxField 0 8 4]?).map LedgerEnt.bytes).getD (List.replicate 64 0#8) ++
       (upFrom (s.mboxField 0 12 4) 125).flatMap s.logBytes).length ≤ 4088) ∧
    (after (.telemetrySnapshot 16 [1#8, 2#8]) (asking 16 (leBytes 2 8))).mboxField 16 8 2 = 0x0201 ∧
    State.reset.rd Reg.FLT_RING_HEAD_HEAD 0 16 = State.reset.rd Reg.FLT_RING_TAIL_TAIL 0 16 ∧
    (asking 16 (leBytes 2 4)).asked 16 4 = true ∧ (asking 16 (leBytes 2 5)).asked 16 5 = true ∧ (asking 0 (leBytes 2 7)).asked 0 7 = true ∧
    (asking 16 (leBytes 2 8)).asked 16 8 = true ∧ (State.reset.wr Reg.BOOT_STATUS_MODE 0 2).rd Reg.BOOT_STATUS_MODE 0 = 2 ∧
    ((after (.recoveryFwPiece 119 (List.replicate 48 3#8)) (State.reset.wr Reg.BOOT_STATUS_MODE 0 2)).fwPieces.get 0#8 166 = 3#8) ∧
    (let s := (State.reset.flag Reg.FLT_RING_CFG_ENABLE 0 true 16).wr Reg.FLT_RING_HEAD_HEAD 0 3 16
     s.on Reg.FLT_RING_CFG_ENABLE 0 16 = true ∧ s.rd Reg.FLT_RING_HEAD_HEAD 0 16 ≠ s.rd Reg.FLT_RING_TAIL_TAIL 0 16 ∧
     reachesRing 32 16 = true ∧ (after (.fltRingTailWrite 32 16 3) s).rd Reg.FLT_RING_TAIL_TAIL 0 16 = 3 ∧
     (after (.fltRingTailWrite 32 16 4) s).rd Reg.FLT_RING_TAIL_TAIL 0 16 = 0) := by decide +kernel

/-- Function 0's queue 3 runs; its next command is `c`, after one that runs and one that has ended. -/
def hq (c : HostCmd) : State :=
  let s := ((fab.flag Reg.HOST_LINK_UP 0 true).flag Reg.HOST_Q_CFG_ENABLE 0 true 3).wr Reg.HOST_Q_STATUS_STATE 0 1 3
  let s := ((s.flag Reg.HOST_WIN_CFG_VALID 0 true 7).flag Reg.HOST_WIN_CFG_WRITE 0 true 7).wr Reg.HOST_WIN_LO_BASE_LO 0 5 7
  s.setQueue 0 3 { tail := 15, cmds := [{ c with phase := 1, opcode := 5 }, { c with phase := 2 }, c] }

/-- A command with an opcode, a local address and a length; its host address is the last 32 bytes of window 7. -/
def hc (op loc len : Nat) : HostCmd :=
  { opcode := op, fence := false, noint := false, cid := 9, host := 7 * 2 ^ 61 + 4064, loc := loc, len := len, pc := 77, sel := 0 }

theorem witness_HostQueuesAndTheirCommands :
    (let s := hq (hc 0 0 32)
     s.on Reg.HOST_Q_CFG_ENABLE 0 3 = true ∧ s.qState 0 3 ≠ 2 ∧ s.qSize 0 3 = 256 ∧
     (s.rd Reg.HOST_Q_STATUS_CQ_TAIL 0 3 + 256 - (s.queue 0 3).head) % 256 = 0 ∧ s.on Reg.HOST_Q_CFG_ENABLE 0 0 = false ∧
     s.qState 0 3 = 1 ∧ s.on Reg.HOST_LINK_UP 0 = true ∧ s.rd Reg.HOST_Q_STATUS_SQ_HEAD 0 3 ≠ (s.queue 0 3).tail ∧
     ((s.queue 0 3).cmds.filter (fun c => c.phase == 2)).length < 64 ∧
     (s.queue 0 3).next = some (2, hc 0 0 32) ∧
     (∃ c, (s.queue 0 3).cmds[1]? = some c ∧ (s.judgeCmd 0 c).phase = 2) ∧ s.cqPlace 0 3 = 0 ∧
     SMap.get 0#8 0 (after (.commandCompletion 0 3 1) s).hostMem = 9#8 ∧
     (s.rd Reg.HOST_Q_STATUS_CQ_TAIL 0 3 + 256 - (s.queue 0 3).head) % 256 < (1 + 256 - (s.queue 0 3).head) % 256 ∧ (s.rd Reg.HOST_Q_STATUS_CQ_TAIL 0 3 + 1) % 256 = 1 ∧
     (s.queue 0 3).head ≠ 1) ∧
    (∀ op, op < 7 → ((hq (hc op 0 32)).queue 0 3).next = some (2, hc op 0 32)) ∧
    ((hq (hc 3 0 0)).fnPart 0 = some 15 ∧ (hq (hc 3 0 0)).fnPart 7 = none ∧ (hq (hc 3 0 0)).rd Reg.PART_STATUS_STATE 0 15 = 2 ∧
      (hq (hc 3 0 0)).selects 15 (hc 3 0 0) = some [0] ∧ (hq (hc 3 0 0)).stopped 0 = true ∧
      ((hq (hc 3 0 0)).setSeqState 0 .run).stopped 0 = false ∧ ((hq (hc 6 0 0)).setSeqState 0 .drain).seqState 0 = .drain ∧
      (after (.cmdAbort 0 3) ((hq (hc 6 0 0)).setSeqState 0 .drain)).seqState 0 = .halted ∧
      (((hq (hc 6 0 0)).setSeqState 0 .fault).seq 0).drained = true ∧
      (after (.cmdHalt 0 3) ((hq (hc 4 0 0)).setSeqState 0 .run)).seqState 0 = .drain ∧
      (after (.cmdStart 0 3) (hq (hc 3 0 0))).pc 0 = 77) ∧
    (let c := hc 1 0 32
     (hq c).copyCut 0 = false ∧ (hq c).copyWaits 0 = false ∧ (hq c).tierPoison = [] ∧
     (∀ x ∈ tierPieces 0 32, (hq c).tierState (ctlOf x.1) ≠ 3) ∧ (hq c).hostAddr 0 c.host 32 false = some 24544 ∧
     (hq c).hostAddr 0 c.host 33 false = none ∧
     (hq c).copyOk 15 0 32 true = true ∧ (after (.copyIn 0 3 (some (List.replicate 32 6#8)) [] []) (hq c)).byte 31 = 6#8) ∧
    (let c := hc 1 0x20000000040 32
     placeOf 0x20000000040 = .spad 0 64 ∧ (hq c).copyCut 0x20000000040 = false ∧ (hq c).copyWaits 0x20000000040 = false ∧
     (hq c).copyOk 15 0x20000000040 32 true = true) ∧
    (let c := hc 2 32 32
     (hq c).hostAddr 0 c.host 32 true = some 24544 ∧ (hq c).copyOk 15 32 32 false = true ∧ placeOf 32 = .tierA) ∧
    (let c := hc 2 0x20000000040 32
     let s := (hq c).storeNum (spadBase 0 + 64) 1 77
     s.copyOk 15 0x20000000040 32 false = true ∧ s.sound 0 64 32 = true ∧
     SMap.get 0#8 24544 (after (.copyOut 0 3 false []) s).hostMem = 77#8) := by decide +kernel

/-! ### Ill-formed commands: one for each check -/

/-- Benches 0 to 2,559 (R15). -/
theorem test_wf_refuses_benches :
    ([.nop 2560 none, .ld 2560 {}, .instructionIssue 2560 (.dispatch none) 1, .fill 2560 {}, .tagset 2560, .compare 2560 {} [], .mm 2560 {},
      .vecAdd 2560 {}, .dmaGet 2560 {}, .pqPut 2560 {}, .arrive 2560 none, .start 2560 0, .remoteRead 2560 0 [], .calibration 2560 {},
      .jackSlice 2560 false 0, .seqSregHiWrite 2560 0 0] : List Instr).all (fun i => !i.wf) = true := by decide +kernel

/-- Pots 0 to 15, units 0 to 21, granules, contexts of a bench (R15, R245, R265, R277). -/
theorem test_wf_refuses_units :
    ([.potPass 0 16 {}, .potPass 2560 0 {}, .stReq 0 16, .updateSweep 0 16 {}, .instructionRetire 0 22, .tagWaitRelease 0 22,
      .spadCorrectedWriteback 0 12288, .barrierRelease 0 4 0, .imemWrite 0 0 0x7FFF [1#8, 2#8], .imemWrite 0 2560 0 [],
      .imemWrite 3 0 0 []] : List Instr).all (fun i => !i.wf) = true := by decide +kernel

/-- Dies, mesh nodes, package edges, barrier groups, tier controllers, devices (R15, R356, R361, R364, R395, R411). -/
theorem test_wf_refuses_network :
    ([.trackerGrant 16 [], .meshFlitReceive 16 0 0 none .other, .meshFlitReceive 0 160 0 none .other, .meshFlitReceive 0 0 5 none .other,
      .pkgFlitReceive 0 0 {} true, .pkgAckTimeout 16 1, .barArrivalHome 16 0 0, .barArrivalHome 0 256 0, .scrubRead 12 none false,
      .tierTargetLoss 32, .broadcastWrite (.service 2 0 []) []] : List Instr).all (fun i => !i.wf) = true := by decide +kernel

/-- Canes, port dies, cables, directions, transaction numbers, rings, identities, accessors (R411, R435, R441, R457). -/
theorem test_wf_refuses_fabric :
    ([.caneReplayTimeout 36, .train 4 0, .cablePresenceChange 4 true, .get 4 { typ := 1 } true [], .messageTransit 4 0 { typ := 1 },
      .messageTransit 0 6 { typ := 1 }, .fabTimeout 8192, .syncPeriod 512 0, .collQueuePoll 16, .location 512, .devLocationWrite 0 512,
      .captureRead 3 (.page 0), .registerWrite 15 (.page 0) 0] : List Instr).all (fun i => !i.wf) = true := by decide +kernel

/-- Partitions, functions, queues, entries of 64 bytes, BARs, dies and phases, sensors (R377, R480, R490, R545, R556). -/
theorem test_wf_refuses_control :
    ([.wholeLoad 0 16, .deadlockDetect 16, .pointChangeDone 16, .softThrottle 25 0, .lehrExit 16 0, .phaseTest 16 0 ⟨0, 0⟩ ⟨0, 0⟩,
      .phaseTest 0 12 ⟨0, 0⟩ ⟨0, 0⟩, .sensorIgnored 0 [1, 2], .sensorIgnored 25 [1, 2], .attestation 17, .sqDoorbell 17 0 0,
      .cmdNop 0 4, .sqEntryFetch 0 0 [] true, .hostBarAccess 17 0 0 4 none [], .hostBarAccess 1 4 0 4 none [],
      .hostBarAccess 0 1 0 4 none [], .hostFlr 17, .hostLinkUp 0 5, .hostLinkUp 17 5, .hostLinkUp 16 6, .entdaa 128,
      .setEndpointId 256] : List Instr).all (fun i => !i.wf) = true := by decide +kernel

/-- An ill-formed command stops with its fault, and a well-formed one of the same form runs. -/
theorem test_ill_formed_faults :
    exec (.hostFlr 17) State.reset = .fault .noSuchUnit ∧ exec (.cmdNop 0 4) State.reset = .fault .noSuchUnit ∧
    exec (.cmdNop 16 3) State.reset = .next State.reset ∧ exec (.nop 2560 none) State.reset = .fault .noSuchUnit :=
  ⟨rfl, rfl, rfl, rfl⟩

/-- An empty queue idles; the front of a queue runs on the state with the rest. -/
theorem test_step_runs_the_front :
    step State.reset = .next State.reset ∧
    step (State.reset.withPending [.cmdNop 0 0, .failureRestart]) = exec (.cmdNop 0 0) (State.reset.withPending [.failureRestart]) :=
  ⟨rfl, rfl⟩

theorem witness_EveryStepKeepsTheInvariant :
    State.reset.Inv ∧ ∃ t, step (State.reset.withPending [.deviceCap 3000]) = .next t ∧ t.rd Reg.PWR_CAP_CAP_W 0 = 3000 :=
  ⟨⟨by decide, by decide, (fun _ h => nomatch h), (fun _ h => nomatch h)⟩, _, rfl, by decide +kernel⟩

theorem witness_EveryStepTakesOneCommand : (State.reset.withPending [.deviceCap 3000, .cmdNop 16 3]).safeQueue = true := by decide

/-! ### The spec's worked examples -/

/-- Two rows of a W4 pot: −3 and 7, then 5 and −8, as the outputs 0 and 1 (R58, R134). -/
def w4Rows : State := (State.reset.setRow 0 0 (13 + 16 * 7)).setRow 0 1 (5 + 16 * 8)

/-- R58's example: P = −28; and the outputs of the example of the witness chapter. -/
theorem test_partial_sums :
    w4Rows.psum 0 .w4 0 0 0 32 0 (fun r => [6, -2].getD r 0) = -28 ∧ w4Rows.psum 0 .w4 0 0 0 32 1 (fun r => [6, -2].getD r 0) = 58 := by
  decide +kernel

/-- The row witnesses of that example: 4 and 13 (R126). -/
theorem test_row_witnesses : rowWitness .w4 (w4Rows.row 0 0) 0 = 4 ∧ rowWitness .w4 (w4Rows.row 0 1) 0 = 13 := by decide +kernel

/-- The finish example of R69: acc −224, ew 127, M 192, EB 120, EW 125 give −10; the block −10, 3 becomes −5, 2 at scale 126. -/
theorem test_finish :
    ({ (entry 0#64 0#64 0#64).pass 0 with eb := 120, ew := 125, biasEn := false }).working (-224) 127 192 0 (fun v => (v, false)) = (-10, false) ∧
    quantBlock true 4 125 (fun _ => none) [-10, 3, 0, 0] = ([-5, 2, 0, 0], 126, false) := by decide

/-- R68: 15 by one bit rounds to 8 and is clamped to 7; R70: 3 by one bit rounds up for half of the draws. -/
theorem test_rounding :
    roundElem true 4 1 none 15 = (7, true) ∧ stochastic 3 1 32767 = 2 ∧ stochastic 3 1 32768 = 1 ∧ rne 3 1 = 2 := by decide

/-- The compaction example of R181: bitmap 0b1010 drives elements 1 and 3 on rows 0 and 1; 0b1000 leaves row 1 empty. -/
theorem test_compaction :
    elemAt 1 0xA#64 0 = some 1 ∧ elemAt 1 0xA#64 1 = some 3 ∧ elemAt 1 0x8#64 0 = some 3 ∧ elemAt 1 0x8#64 1 = none := by decide

/-- The parison example: S(5) = 2 for the eight rows of the window (R153). -/
theorem test_sketch_sum :
    (let rows := ([1, 2, 1, 0, 1, 2, 0, 1] : List Nat).mapIdx (fun r v => (r, BitVec.ofNat 528 (v * 2 ^ 10)))
     let s : State := { State.reset with sketch := rows.foldl (fun m p => m.put 0 p.1 p.2) State.reset.sketch }
     s.sketchSum 0 0 5 [1, -1, 0, 1, -1, -1, 1, 0]) = 2 := by decide +kernel

/-- The sweep example of R213: both draws, and RND = 0. -/
theorem test_sweep_weight :
    sweepWeight .w4 3 (-3) 90 119 (some 19489) = ⟨3, 0, false, false, false⟩ ∧
    sweepWeight .w4 3 (-3) 90 119 (some 64512) = ⟨2, 7, false, true, false⟩ ∧
    sweepWeight .w4 3 (-3) 90 119 none = ⟨3, 0, false, false, false⟩ := by decide

/-- The worked encoding of the instruction reference, its fields and its bytes. -/
theorem test_worked_encoding :
    (let w : DWord := 0x103600006813A556#64
     opc w = 0x10 ∧ unitOf w = 3 ∧ regA w = 12 ∧ bkSel w = 13 ∧ bnSel w = 0 ∧ tagIn w = 2 ∧ tagOut w = 1 ∧ fld w 16 16 = 1 ∧
     regB w = 20 ∧ regC w = 21 ∧ regD w = 11) ∧
    leBytes 8 0x103600006813A556 = [0x56#8, 0xA5#8, 0x13#8, 0x68#8, 0x00#8, 0x00#8, 0x36#8, 0x10#8] := by decide

/-- R353: granule 5,000 of bench 37 of die 5, and its pot 3's POT_CFG. -/
theorem test_addresses :
    placeOf 0x20509427100 = .spad 837 160000 ∧ placeOf 0x205096004C0 = .benchReg 837 0x4C0 := by decide

/-- R397's three decodes. -/
theorem test_tier_addresses :
    (stackOf 0x01234567A00 = 6 ∧ stackDie 6 = 13 ∧ stackOffset 0x01234567A00 = 0x2468ACE00 ∧ pseudoChannel 0x01234567A00 = 51) ∧
    (stackOf 0x05A00001000 = 3 ∧ stackDie 3 = 7 ∧ stackOffset 0x05A00001000 = 0x200001000) ∧
    (pkgOf 0x10000003000 = 11 ∧ pkgOffset 0x10000003000 = 0x555555000 ∧ pkgChannel 0x10000003000 = 1) := by decide

/-- R452's example: 23 ns. -/
theorem test_time_offset : timeOffset 1000000000 1000000183 1000050000 1000050137 = 23 := by decide

/-- R473's timeline: a cap of 2,600 W lowers dies 0 to 8 to P3 and the rest to P2. -/
theorem test_controller_points :
    (slowLoop 2600 800000 112 ((List.range 16).map (fun d => Pick.mk d 150000 1 1))).map Pick.pt =
      [3, 3, 3, 3, 3, 3, 3, 3, 3, 2, 2, 2, 2, 2, 2, 2] := by decide +kernel

/-- R475: a cap of 1,000 W over a floor of 668 W gives D = 28 from a full window at 1,418 W. -/
theorem test_duty :
    (let s := (((State.reset.wr Reg.PWR_STATUS_MODE 0 1).wr Reg.PWR_INPUT_FLOOR_W 0 668).wr Reg.PWR_CAP_CAP_W 0 1000).setDuty 64
     (after (.dutyWindow 1418) s).rd Reg.PWR_DIE_STATUS_DUTY 0 7) = 28 := by decide +kernel

/-- R279's table at its edges: a release at the wrap of the epoch releases; an older one counts as stale; one ahead does neither. -/
theorem test_epoch_wrap :
    (let s := (State.reset.wr Reg.SEQ_BAR_ARRIVE_EPOCH 0 0xFFFFFFFF 3).flag Reg.SEQ_BAR_INFO_OUTSTANDING 0 true 3
     (after (.barrierRelease 0 3 0xFFFFFFFF) s).on Reg.SEQ_BAR_INFO_OUTSTANDING 0 3 = false ∧
     (after (.barrierRelease 0 3 0xFFFFFFFE) s).rd Reg.SEQ_BAR_INFO_STALE 0 3 = 1 ∧
     (after (.barrierRelease 0 3 0) s).on Reg.SEQ_BAR_INFO_OUTSTANDING 0 3 = true) := by decide +kernel

end Sys2Proof.Tests
end

/-! ## The register file, the register path and the outcomes of commands

SUPPORT. What a record, a lost access and a write by another agent leave of the register file; where a register access of the
servitor in a bench window ends; and that every command answers or stops as `Instr.wf` says. -/

namespace Sys2Proof

/-- Blocks have different numbers. -/
theorem Blk.num_injective : Function.Injective Blk.num :=
  Function.LeftInverse.injective (g := Blk.ofNat) (fun b => by cases b <;> rfl)

end Sys2Proof

namespace Sys2Proof.Machine

open Sys2Proof

/-! ### Outcomes of commands (R15, R16) -/

theorem okIf_fault (p : Bool) (s : State) (h : p = false) : okIf p s = .fault .noSuchUnit := by simp [okIf, h]

/-- Every command answers its effect where its units exist, and stops otherwise. -/
theorem exec_eq_okIf_wf (i : Instr) (s : State) : ∃ t, exec i s = okIf i.wf t := by
  cases i with
  | broadcastWrite src ecc =>
    cases src with
    | xfer id => exact ⟨s.bcastXfer id ecc, rfl⟩
    | service agent a data => exact ⟨s.bcastService agent a data ecc, rfl⟩
  | _ => exact ⟨_, rfl⟩

/-! ### Fields of different blocks -/

theorem Field.base_ne_of_blk {f g : Field} (h : f.blk ≠ g.blk) : f.base ≠ g.base := by
  have hnum : f.blk.num ≠ g.blk.num := fun e => h (Blk.num_injective e)
  simp only [Field.base]
  omega

/-- A write leaves the fields of every other block. -/
theorem State.rd_wr_blk (s : State) {f g : Field} (h : f.blk ≠ g.blk) (i v j i' j' : Nat) :
    (s.wr f i v j).rd g i' j' = s.rd g i' j' :=
  s.rd_wr_field f g i v j i' j' (Field.base_ne_of_blk h)

theorem State.rd_bump_blk (s : State) {f g : Field} (h : f.blk ≠ g.blk) (i n j i' j' : Nat) :
    (s.bump f i n j).rd g i' j' = s.rd g i' j' := s.rd_wr_blk h i _ j i' j'

/-- States with one register file read alike. -/
theorem State.rd_of_regs {s t : State} (h : t.regs = s.regs) (f : Field) (i j : Nat) : t.rd f i j = s.rd f i j := by
  rw [State.rd, State.rd, h]

/-! ### Records touch the block FLT alone -/

theorem State.noteRepeat_regs (s : State) (k : Nat) (r : FaultRec) (w : Bool) : (s.noteRepeat k r w).regs = s.regs := by
  simp only [State.noteRepeat]; split <;> rfl

theorem State.hostStore_regs (s : State) (a : Nat) (bs : List Byte) : (s.hostStore a bs).regs = s.regs := by
  induction bs generalizing s a with
  | nil => rfl
  | cons b r ih => exact ih _ _

section
variable (s : State) (r : FaultRec) {f : Field} (hf : f.blk ≠ .flt) (i j : Nat)
include hf

theorem State.toDevRing_rd : (s.toDevRing r).rd f i j = s.rd f i j := by
  simp only [State.toDevRing]
  split
  · exact State.rd_of_regs (s.noteRepeat_regs _ _ _) f i j
  · rw [State.rd_wr_blk _ hf.symm]
    exact State.rd_of_regs (s.noteRepeat_regs _ _ _) f i j

theorem State.toFnRing_rd (fn : Nat) : (s.toFnRing r fn).rd f i j = s.rd f i j := by
  unfold State.toFnRing
  split
  · exact State.rd_of_regs (s.noteRepeat_regs _ _ _) f i j
  next n _ =>
    extract_lets size head tail lost s1 base s2 s3
    have stored : s2.regs = s.regs := by rw [State.hostStore_regs, State.noteRepeat_regs]
    split
    · calc
        _ = lost.rd f i j := rfl
        _ = s.rd f i j := s.rd_bump_blk hf.symm ..
    · exact (s3.rd_wr_blk hf.symm ..).trans (State.rd_of_regs (t := s3) stored f i j)

theorem State.toFnRings_rd (fns : List Nat) : (s.toFnRings r fns).rd f i j = s.rd f i j := by
  induction fns generalizing s with
  | nil => rfl
  | cons fn rest ih => exact (ih _).trans (s.toFnRing_rd r hf i j fn)

/-- A record changes no register outside the block FLT, whether it enters its rings, is held or is lost. -/
theorem State.record_rd (fns : List Nat) : (s.record r fns).rd f i j = s.rd f i j := by
  unfold State.record
  extract_lets r' u
  have counted : u.rd f i j = s.rd f i j := by
    unfold u
    split
    · exact s.rd_bump_blk hf.symm ..
    · rfl
  split
  · exact ((State.toFnRings_rd _ _ hf ..).trans (State.toDevRing_rd _ _ hf ..)).trans counted
  · split
    · exact counted
    · exact (u.rd_bump_blk hf.symm ..).trans counted

theorem State.devReport_rd (source code info0 info1 : Nat) (dep : Bool) :
    (s.devReport source code info0 info1 dep).rd f i j = s.rd f i j :=
  s.record_rd _ hf i j _

theorem State.lockedWrite_rd (addr agent : Nat) : (s.lockedWrite addr agent).rd f i j = s.rd f i j :=
  s.devReport_rd hf i j ..

theorem State.reportUnreachable_rd (a b : Nat) : (s.reportUnreachable a b).rd f i j = s.rd f i j := by
  simp only [State.reportUnreachable]
  split
  · rfl
  · exact State.devReport_rd _ hf i j ..

/-- An access that cannot arrive changes no register outside FLT. -/
theorem State.accessLost_rd (d : Nat) : (s.accessLost d).rd f i j = s.rd f i j := by
  simp only [State.accessLost]
  split
  · rfl
  · exact s.reportUnreachable_rd hf i j 0 d

end

/-! ### Writes over the register path -/

/-- A write by another agent than the gaffer leaves an RW-G field, where no other field of its register shares its place. -/
theorem State.putField_rd_rwg (s : State) (agent v : Nat) (l : RegLoc) (f g : Field) (j : Nat) (ha : agent ≠ 0)
    (hf : f.acc = .rwg) (hg : g ≠ f → g.base ≠ f.base) : (s.putField agent l v g).rd f l.inst j = s.rd f l.inst j := by
  by_cases e : g = f
  · subst e
    simp only [State.putField, hf]
    cases s.shown l g.lo <;> simp [ha]
  · have kept : ∀ n k, (s.wr g l.inst n k).rd f l.inst j = s.rd f l.inst j :=
      fun n k => s.rd_wr_field g f _ n k _ j (hg e)
    simp only [State.putField]
    split
    · exact kept _ _
    · split
      · exact kept _ _
      · rfl
    · split
      · exact kept _ _
      · rfl
    · rfl

theorem State.foldl_putField_rd_rwg (agent v : Nat) (l : RegLoc) (f : Field) (j : Nat) (ha : agent ≠ 0) (hf : f.acc = .rwg)
    (fs : List Field) (hfs : ∀ g ∈ fs, g ≠ f → g.base ≠ f.base) (s : State) :
    (fs.foldl (fun t g => t.putField agent l v g) s).rd f l.inst j = s.rd f l.inst j := by
  induction fs generalizing s with
  | nil => rfl
  | cons g rest ih =>
    exact (ih (fun x hx => hfs x (List.mem_cons_of_mem _ hx)) _).trans
      (s.putField_rd_rwg agent v l f g j ha hf (hfs g List.mem_cons_self))

theorem State.plainWrite_rd_rwg (s : State) (agent v : Nat) (l : RegLoc) (f : Field) (j : Nat) (ha : agent ≠ 0)
    (hf : f.acc = .rwg) (hb : f.blk ≠ .flt) (hl : ∀ g ∈ l.fields, g ≠ f → g.base ≠ f.base) :
    (s.plainWrite agent l v).rd f l.inst j = s.rd f l.inst j := by
  have kept := State.foldl_putField_rd_rwg agent v l f j ha hf l.fields hl s
  simp only [State.plainWrite]
  split
  · exact (State.lockedWrite_rd _ hb ..).trans kept
  · exact kept

/-- The fields of a register are those of its block at its offset. -/
theorem RegLoc.mem_fields {l : RegLoc} {f : Field} : f ∈ l.fields ↔ f ∈ l.blk.fields ∧ f.off = l.off := by
  simp [RegLoc.fields]

/-- The fields of PWR and of VR are no FLT fields, and no two of a block share a place. -/
theorem pwr_vr_fields_apart (b : Blk) (hb : b = .pwr ∨ b = .vr) :
    ∀ f ∈ b.fields, f.blk ≠ .flt ∧ ∀ g ∈ b.fields, g ≠ f → g.base ≠ f.base := by
  obtain rfl | rfl := hb
  · decide
  · decide

/-! ### Accesses that arrive at a register -/

/-- The servitor reaches every register of every bench (R351, R353). -/
theorem State.reached_benchReg (s : State) {a gb o : Nat} (h : placeOf (a / 4 * 4) = .benchReg gb o) :
    s.reached 1 (.loc a) = .reg (benchLoc gb o (a / 4 * 4)) := by
  simp [State.reached, h, State.reachesBench, isService]

theorem State.arrives_of_die {s : State} {a d : Nat} (h : dieOfAddr a = some d) (hcut : s.cutOff d = false) :
    (dieOfAddr a).filter s.cutOff = none := by
  simp [h, hcut]

theorem State.readAt_of_arrives {s : State} {agent a : Nat} {l : RegLoc} (h : s.reached agent (.loc a) = .reg l)
    (hd : (dieOfAddr l.addr).filter s.cutOff = none) (ecc : List (Nat × Ecc)) :
    s.readAt agent (.loc a) ecc = { (s.regRead agent l).2 with readData := (s.regRead agent l).1 } := by
  simp [State.readAt, h, hd]

/-- A write that reaches a register is lost on the way to a die that is cut off. -/
theorem State.writeAt_of_cutOff {s : State} {agent a d : Nat} {l : RegLoc} (h : s.reached agent (.loc a) = .reg l)
    (hd : (dieOfAddr l.addr).filter s.cutOff = some d) (v : Nat) (ecc : List (Nat × Ecc)) :
    s.writeAt agent (.loc a) v ecc = s.accessLost d := by
  simp [State.writeAt, h, readOnlyPage, hd]

/-- A write that reaches a register and arrives writes the register, cut to 32 bits. -/
theorem State.writeAt_of_arrives {s : State} {agent a : Nat} {l : RegLoc} (h : s.reached agent (.loc a) = .reg l)
    (hd : (dieOfAddr l.addr).filter s.cutOff = none) (v : Nat) (ecc : List (Nat × Ecc)) :
    s.writeAt agent (.loc a) v ecc = s.regWrite agent l (v % 2 ^ 32) := by
  simp [State.writeAt, h, readOnlyPage, hd]

/-! ### Registers in bench windows -/

/-- The register at offset `o` of a bench's register block, as the register path names it. -/
def windowReg (gb o : Nat) : RegLoc := benchLoc gb o (spadBase gb + (0x200000 + o))

@[simp] theorem benchLoc_addr (gb o a : Nat) : (benchLoc gb o a).addr = a := by
  simp only [benchLoc]
  repeat' split
  all_goals rfl

theorem spadBase_add_eq (gb o : Nat) : spadBase gb + (0x200000 + o) =
    0x20000000000 + gb / 160 * 0x100000000 + (gb % 160 * 0x400000 + 0x200000 + o) := by
  rw [spadBase]; omega

section
variable {gb o : Nat} (hgb : gb < 2560) (ho : o < 0x1000)
include hgb ho

theorem placeOf_window : placeOf (spadBase gb + (0x200000 + o)) = .benchReg gb o := by
  have ha := spadBase_add_eq gb o
  generalize spadBase gb + (0x200000 + o) = x at ha
  have hdie : (x - 0x20000000000) / 0x100000000 = gb / 160 := by omega
  have hoff : x % 0x100000000 = gb % 160 * 0x400000 + 0x200000 + o := by omega
  have hbench : 160 * (gb / 160) + (gb % 160 * 0x400000 + 0x200000 + o) / 0x400000 = gb := by omega
  have hreg : (gb % 160 * 0x400000 + 0x200000 + o) % 0x400000 = 0x200000 + o := by omega
  simp only [placeOf, hdie, hoff, hbench, hreg]
  rw [if_neg (by omega), if_neg (by omega), if_pos (by omega), if_pos (by omega), benchPlace, if_neg (by omega),
    if_neg (by omega), if_pos (by omega), Nat.add_sub_cancel_left]

theorem dieOfAddr_window : dieOfAddr (spadBase gb + (0x200000 + o)) = some (gb / 160) := by
  have ha := spadBase_add_eq gb o
  generalize spadBase gb + (0x200000 + o) = x at ha
  rw [dieOfAddr, if_pos (by omega)]
  exact congrArg some (by omega)

theorem State.reached_window (s : State) (h4 : o % 4 = 0) :
    s.reached 1 (.loc (spadBase gb + (0x200000 + o))) = .reg (windowReg gb o) := by
  have hplace := placeOf_window hgb ho
  have hword : (spadBase gb + (0x200000 + o)) / 4 * 4 = spadBase gb + (0x200000 + o) := by
    rw [spadBase]; omega
  rw [windowReg]
  generalize spadBase gb + (0x200000 + o) = a at hplace hword
  rw [s.reached_benchReg (hword.symm ▸ hplace), hword]

theorem State.window_arrives {s : State} (hcut : s.cutOff (gb / 160) = false) :
    (dieOfAddr (windowReg gb o).addr).filter s.cutOff = none := by
  rw [windowReg, benchLoc_addr]
  exact State.arrives_of_die (dieOfAddr_window hgb ho) hcut

theorem State.readAt_window {s : State} (hcut : s.cutOff (gb / 160) = false) (h4 : o % 4 = 0) (ecc : List (Nat × Ecc)) :
    s.readAt 1 (.loc (spadBase gb + (0x200000 + o))) ecc =
      { (s.regRead 1 (windowReg gb o)).2 with readData := (s.regRead 1 (windowReg gb o)).1 } :=
  State.readAt_of_arrives (State.reached_window hgb ho s h4) (State.window_arrives hgb ho hcut) ecc

end

/-! ### Register reads -/

theorem State.regRead_of_captureLow {s : State} {l : RegLoc} {f : Field} {v : DWord} (h : s.captureLow l = some (f, v))
    (agent : Nat) :
    s.regRead agent l = (v.toNat % 2 ^ 32, { s with capt := s.capt.put 0#64 (f.key l.inst 0) v }) := by
  simp [State.regRead, h]

theorem State.regRead_of_captureHigh {s : State} {l : RegLoc} {f : Field} (hlow : s.captureLow l = none)
    (h : l.captureHigh = some f) (hsub : s.noSubstream l = false) (agent : Nat) :
    s.regRead agent l = ((s.capt.get 0#64 (f.key l.inst 0)).toNat / 2 ^ 32, s) := by
  simp [State.regRead, hlow, h, hsub]

/-- A register that shows no half of a 64-bit value, no tag and no temperature reads as its fields. -/
theorem State.regRead_of_plain {s : State} {l : RegLoc} (hlow : s.captureLow l = none) (hhigh : l.captureHigh = none)
    (hblk : l.blk ≠ .spad ∧ l.blk ≠ .mema ∧ l.blk ≠ .memb) (agent : Nat) :
    s.regRead agent l = (s.plainRead l, l.fields.foldl (fun u f => u.clearRc agent l f) s) := by
  obtain ⟨hspad, ha, hb⟩ := hblk
  simp [State.regRead, hlow, hhigh, hspad, State.memTemp, ha, hb]

theorem State.fieldRead_of_shown {s : State} {l : RegLoc} {f : Field} {j : Nat} (hacc : f.acc ≠ .wo)
    (hj : s.shown l f.lo = some j) : s.fieldRead l f = (s.derived f l.inst j).getD (s.rd f l.inst j) := by
  unfold State.fieldRead
  rw [hj]
  cases h : f.acc with
  | wo => exact absurd h hacc
  | _ => rfl

theorem State.clearRc_of_clears {s : State} {agent : Nat} {l : RegLoc} {f : Field} {j : Nat} (hacc : f.acc = .rc)
    (hj : s.shown l f.lo = some j) (hc : s.clears agent l f = true) : s.clearRc agent l f = s.wr f l.inst 0 j := by
  simp [State.clearRc, hacc, hj, hc]

/-- SEQ_EMPTY_CNT (R289): its read by the servitor gives the count and clears it. -/
theorem State.regRead_emptyCnt (s : State) (gb : Nat) :
    s.regRead 1 (windowReg gb 0xC40) =
      (s.rd Reg.SEQ_EMPTY_CNT_COUNT gb % 2 ^ 32, s.wr Reg.SEQ_EMPTY_CNT_COUNT gb 0) := by
  have hblk : (windowReg gb 0xC40).blk = .seq := rfl
  have hfields : (windowReg gb 0xC40).fields = [Reg.SEQ_EMPTY_CNT_COUNT] := rfl
  have hread : s.fieldRead (windowReg gb 0xC40) Reg.SEQ_EMPTY_CNT_COUNT = s.rd Reg.SEQ_EMPTY_CNT_COUNT gb :=
    State.fieldRead_of_shown (j := 0) (by decide) rfl
  have hclear : s.clearRc 1 (windowReg gb 0xC40) Reg.SEQ_EMPTY_CNT_COUNT = s.wr Reg.SEQ_EMPTY_CNT_COUNT gb 0 :=
    State.clearRc_of_clears (j := 0) rfl rfl rfl
  have hplace : Reg.SEQ_EMPTY_CNT_COUNT.w = 32 ∧ Reg.SEQ_EMPTY_CNT_COUNT.lo = 0 := ⟨rfl, rfl⟩
  rw [State.regRead_of_plain rfl rfl (by simp [hblk]), State.plainRead, hfields]
  simp [hread, hclear, hplace]

/-- The servitor's read of SEQ_EMPTY_CNT returns the count and clears it. -/
theorem rcCounterRead_emptyCnt {s : State} {gb : Nat} (hgb : gb < 2560) (hcut : s.cutOff (gb / 160) = false) :
    exec (.rcCounterRead 1 (.loc (spadBase gb + 0x200C40))) s =
      .next { s.wr Reg.SEQ_EMPTY_CNT_COUNT gb 0 with readData := s.rd Reg.SEQ_EMPTY_CNT_COUNT gb % 2 ^ 32 } := by
  calc exec (.rcCounterRead 1 (.loc (spadBase gb + 0x200C40))) s
      = .next (s.readAt 1 (.loc (spadBase gb + (0x200000 + 0xC40)))) := rfl
    _ = _ := by
        rw [State.readAt_window hgb (by decide) hcut (by decide), State.regRead_emptyCnt]

/-! ### A substream over the register path (R76) -/

theorem execCaptureRead_of_reached {s : State} {agent a : Nat} {l : RegLoc} (h : s.reached agent (.loc a) = .reg l)
    (hc : (s.captureLow l).isSome = true ∨ l.captureHigh.isSome = true) :
    execCaptureRead agent (.loc a) s = okIf (isAccessor agent) (s.readAt agent (.loc a)) := by
  simp [execCaptureRead, h, hc]

/-- The low half of the selected substream (R76). -/
theorem State.captureLow_prng {s : State} {gb : Nat} (h : s.rd Reg.BENCH_PRNG_SEL_SUBSTREAM gb < 17) :
    s.captureLow (windowReg gb 0xC4) =
      some (Reg.BENCH_PRNG_STATE_LO_STATE_LO, s.prngOf gb (s.rd Reg.BENCH_PRNG_SEL_SUBSTREAM gb)) :=
  congrArg (fun v => some (Reg.BENCH_PRNG_STATE_LO_STATE_LO, v)) (if_pos h)

theorem State.noSubstream_of_lt {s : State} {l : RegLoc} (h : s.rd Reg.BENCH_PRNG_SEL_SUBSTREAM l.inst < 17) :
    s.noSubstream l = false := by
  simp [State.noSubstream, h]

theorem State.regRead_prngLo {s : State} {gb : Nat} (h : s.rd Reg.BENCH_PRNG_SEL_SUBSTREAM gb < 17) (agent : Nat) :
    s.regRead agent (windowReg gb 0xC4) =
      ((s.prngOf gb (s.rd Reg.BENCH_PRNG_SEL_SUBSTREAM gb)).toNat % 2 ^ 32,
        { s with capt := s.capt.put 0#64 (Reg.BENCH_PRNG_STATE_LO_STATE_LO.key gb 0)
                           (s.prngOf gb (s.rd Reg.BENCH_PRNG_SEL_SUBSTREAM gb)) }) :=
  State.regRead_of_captureLow (State.captureLow_prng h) agent

theorem State.regRead_prngHi {s : State} {gb : Nat} (h : s.rd Reg.BENCH_PRNG_SEL_SUBSTREAM gb < 17) (agent : Nat) :
    s.regRead agent (windowReg gb 0xC8) =
      ((s.capt.get 0#64 (Reg.BENCH_PRNG_STATE_LO_STATE_LO.key gb 0)).toNat / 2 ^ 32, s) :=
  State.regRead_of_captureHigh (l := windowReg gb 0xC8) (f := Reg.BENCH_PRNG_STATE_LO_STATE_LO) rfl rfl
    (State.noSubstream_of_lt h) agent

/-- The state in which a read has captured a substream's 64 bits and returned their low half (R76). -/
def State.capturing (s : State) (gb : Nat) (v : DWord) : State :=
  { s with capt := s.capt.put 0#64 (Reg.BENCH_PRNG_STATE_LO_STATE_LO.key gb 0) v, readData := v.toNat % 2 ^ 32 }

@[simp] theorem State.capturing_readData (s : State) (gb : Nat) (v : DWord) :
    (s.capturing gb v).readData = v.toNat % 2 ^ 32 := rfl
@[simp] theorem State.capturing_prng (s : State) (gb : Nat) (v : DWord) : (s.capturing gb v).prng = s.prng := rfl
@[simp] theorem State.capturing_rd (s : State) (gb : Nat) (v : DWord) (f : Field) (i j : Nat) :
    (s.capturing gb v).rd f i j = s.rd f i j := rfl
@[simp] theorem State.capturing_cutOff (s : State) (gb : Nat) (v : DWord) (d : Nat) :
    (s.capturing gb v).cutOff d = s.cutOff d := rfl
@[simp] theorem State.capturing_capt_get (s : State) (gb : Nat) (v : DWord) :
    (s.capturing gb v).capt.get 0#64 (Reg.BENCH_PRNG_STATE_LO_STATE_LO.key gb 0) = v := SMap.get_put_same _ _ _ _

/-- A read of the low half by the servitor captures the selected substream. -/
theorem captureRead_prngLo {s : State} {gb : Nat} (hgb : gb < 2560) (hcut : s.cutOff (gb / 160) = false)
    (h : s.rd Reg.BENCH_PRNG_SEL_SUBSTREAM gb < 17) :
    exec (.captureRead 1 (.loc (spadBase gb + 0x2000C4))) s =
      .next (s.capturing gb (s.prngOf gb (s.rd Reg.BENCH_PRNG_SEL_SUBSTREAM gb))) := by
  have hlow : (s.captureLow (windowReg gb 0xC4)).isSome = true := by rw [State.captureLow_prng h]; rfl
  calc exec (.captureRead 1 (.loc (spadBase gb + 0x2000C4))) s
      = .next (s.readAt 1 (.loc (spadBase gb + (0x200000 + 0xC4)))) :=
        execCaptureRead_of_reached (s.reached_window (o := 0xC4) hgb (by decide) (by decide)) (.inl hlow)
    _ = _ := by
        rw [State.readAt_window (o := 0xC4) hgb (by decide) hcut (by decide), State.regRead_prngLo h]
        rfl

/-- A read of the high half by the servitor gives what was captured last. -/
theorem captureRead_prngHi {s : State} {gb : Nat} (hgb : gb < 2560) (hcut : s.cutOff (gb / 160) = false)
    (h : s.rd Reg.BENCH_PRNG_SEL_SUBSTREAM gb < 17) :
    exec (.captureRead 1 (.loc (spadBase gb + 0x2000C8))) s =
      .next { s with readData := (s.capt.get 0#64 (Reg.BENCH_PRNG_STATE_LO_STATE_LO.key gb 0)).toNat / 2 ^ 32 } := by
  calc exec (.captureRead 1 (.loc (spadBase gb + 0x2000C8))) s
      = .next (s.readAt 1 (.loc (spadBase gb + (0x200000 + 0xC8)))) :=
        execCaptureRead_of_reached (s.reached_window (o := 0xC8) hgb (by decide) (by decide)) (.inr rfl)
    _ = _ := by
        rw [State.readAt_window (o := 0xC8) hgb (by decide) hcut (by decide), State.regRead_prngHi h]

/-! ### PAR_CFG (R175) -/

theorem State.putField_of_rw {s : State} {l : RegLoc} {f : Field} {j : Nat} (hacc : f.acc = .rw)
    (hj : s.shown l f.lo = some j) (agent v : Nat) : s.putField agent l v f = s.wr f l.inst (v / 2 ^ f.lo) j := by
  simp [State.putField, hacc, hj]

@[simp] theorem State.rearmNotCal_regs (s old : State) (gb : Nat) : (s.rearmNotCal old gb).regs = s.regs := by
  simp only [State.rearmNotCal]; split <;> rfl

@[simp] theorem State.rearmNotCal_mem (s old : State) (gb : Nat) : (s.rearmNotCal old gb).mem = s.mem := by
  simp only [State.rearmNotCal]; split <;> rfl

@[simp] theorem State.rearmNotCal_rd (s old : State) (gb : Nat) (f : Field) (i j : Nat) :
    (s.rearmNotCal old gb).rd f i j = s.rd f i j := State.rd_of_regs (s.rearmNotCal_regs old gb) f i j

/-- A write of PAR_CFG writes its three fields, none of them guarded. -/
theorem State.plainWrite_parCfg (s : State) (agent gb v : Nat) :
    s.plainWrite agent (windowReg gb 0x300) v =
      ((s.wr Reg.PAR_CFG_STALE_POLICY gb (v / 2 ^ 12)).wr Reg.PAR_CFG_CAL_DTEMP gb (v / 2 ^ 8)).wr
        Reg.PAR_CFG_CAL_PERIOD gb (v / 2 ^ 0) := by
  have hfields : (windowReg gb 0x300).fields =
      [Reg.PAR_CFG_STALE_POLICY, Reg.PAR_CFG_CAL_DTEMP, Reg.PAR_CFG_CAL_PERIOD] := rfl
  have hput : ∀ (u : State) (f : Field), f.acc = .rw →
      u.putField agent (windowReg gb 0x300) v f = u.wr f gb (v / 2 ^ f.lo) :=
    fun u f hacc => State.putField_of_rw (j := 0) hacc rfl agent v
  have hopen : (windowReg gb 0x300).fields.any (fun f => f.acc = Access.rwg) = false := by rw [hfields]; rfl
  rw [State.plainWrite, hopen, if_neg (by simp), hfields]
  simp only [List.foldl]
  rw [hput _ _ rfl, hput _ _ rfl, hput _ _ rfl]
  rfl

section
variable (s : State) (agent gb v : Nat)

@[simp] theorem State.plainWrite_parCfg_mem : (s.plainWrite agent (windowReg gb 0x300) v).mem = s.mem := by
  rw [State.plainWrite_parCfg]; rfl

@[simp] theorem State.rd_plainWrite_parCfg_calPeriod :
    (s.plainWrite agent (windowReg gb 0x300) v).rd Reg.PAR_CFG_CAL_PERIOD gb = v % 256 := by
  rw [State.plainWrite_parCfg, State.rd_wr_same]
  simp [Reg.PAR_CFG_CAL_PERIOD]

@[simp] theorem State.rd_plainWrite_parCfg_calDtemp :
    (s.plainWrite agent (windowReg gb 0x300) v).rd Reg.PAR_CFG_CAL_DTEMP gb = v / 256 % 16 := by
  rw [State.plainWrite_parCfg, State.rd_wr_field _ _ _ _ _ _ _ _ (by decide), State.rd_wr_same]
  rfl

@[simp] theorem State.rd_plainWrite_parCfg_stalePolicy :
    (s.plainWrite agent (windowReg gb 0x300) v).rd Reg.PAR_CFG_STALE_POLICY gb = v / 4096 % 2 := by
  rw [State.plainWrite_parCfg, State.rd_wr_field _ _ _ _ _ _ _ _ (by decide),
    State.rd_wr_field _ _ _ _ _ _ _ _ (by decide), State.rd_wr_same]
  rfl

end

/-- The servitor's write of PAR_CFG writes its fields and lets PAR_NOT_CAL be reported anew (R168). -/
theorem registerWrite_parCfg {s : State} {gb : Nat} (hgb : gb < 2560) (hcut : s.cutOff (gb / 160) = false) (v : Nat) :
    exec (.registerWrite 1 (.loc (spadBase gb + 0x200300)) v) s =
      .next ((s.plainWrite 1 (windowReg gb 0x300) (v % 2 ^ 32)).rearmNotCal s gb) := by
  calc exec (.registerWrite 1 (.loc (spadBase gb + 0x200300)) v) s
      = .next (s.writeAt 1 (.loc (spadBase gb + (0x200000 + 0x300))) v) := rfl
    _ = _ := by
        rw [State.writeAt_of_arrives (s.reached_window hgb (by decide) (by decide)) (State.window_arrives hgb (by decide) hcut)]
        rfl

/-! ### Unmapped addresses -/

@[simp] theorem State.unmapped_mem (s : State) (r : RegAt) : (s.unmapped r).mem = s.mem := by
  simp [State.unmapped, State.free]

theorem unmappedRegisterRead_of_unmapped {s : State} {agent a : Nat} (ha : isAccessor agent = true)
    (h : s.reached agent (.loc a) = .unmapped) :
    exec (.unmappedRegisterRead agent a) s = .next { s.unmapped (.loc a) with readData := 0 } := by
  have hread : s.readAt agent (.loc a) = { s.unmapped (.loc a) with readData := 0 } := by simp [State.readAt, h]
  rw [← hread]
  calc exec (.unmappedRegisterRead agent a) s = execUnmappedRegisterRead agent a s := rfl
    _ = _ := by simp [execUnmappedRegisterRead, h, okIf, ha]

/-! ### The obligations -/

/-- Settles O2: every command is `okIf` of its well-formedness. -/
theorem commandsStopOnlyForAbsentUnits : Obligations.CommandsStopOnlyForAbsentUnits := by
  intro i s
  obtain ⟨t, ht⟩ := exec_eq_okIf_wf i s
  rw [ht]
  exact ⟨fun h => ⟨t, okIf_next _ _ h⟩, fun h => okIf_fault _ _ h⟩

/-- Settles O39, access by access. -/
theorem registerPathReadsAndWrites : Obligations.RegisterPathReadsAndWrites := by
  intro s gb v hgb hcut
  refine ⟨⟨_, rcCounterRead_emptyCnt hgb hcut, rfl, rfl, ?_⟩, fun hsel => ?_, ⟨_, registerWrite_parCfg hgb hcut v, ?_⟩,
    fun agent a ha hun => ⟨_, unmappedRegisterRead_of_unmapped ha hun, rfl, by simp⟩⟩
  · exact s.rd_wr_same Reg.SEQ_EMPTY_CNT_COUNT gb 0 0
  · exact ⟨_, _, captureRead_prngLo hgb hcut hsel, State.capturing_readData _ _ _,
      captureRead_prngHi hgb (by simpa using hcut) (by simpa using hsel), by simp, rfl⟩
  · exact ⟨by simp, by simp, by simp; omega, by simp; omega⟩

/-- Settles O40: no two fields of a register share a place, and records touch the block FLT alone. -/
theorem guardedFieldsStandAgainstOtherAgents : Obligations.GuardedFieldsStandAgainstOtherAgents := by
  intro s t agent a v l f j ha hacc hl hblk hf hrwg ht
  obtain ⟨hf, -⟩ := RegLoc.mem_fields.1 hf
  obtain ⟨hflt, hapart⟩ := pwr_vr_fields_apart l.blk hblk f hf
  have hplain : s.regWrite agent l (v % 2 ^ 32) = s.plainWrite agent l (v % 2 ^ 32) := by
    obtain hb | hb := hblk <;> simp [State.regWrite, hb]
  obtain rfl : s.writeAt agent (.loc a) v = t := Host.Outcome.next.inj ((okIf_next _ _ hacc).symm.trans ht)
  cases hd : (dieOfAddr l.addr).filter s.cutOff with
  | some d =>
    rw [State.writeAt_of_cutOff hl hd]
    exact s.accessLost_rd hflt l.inst j d
  | none =>
    rw [State.writeAt_of_arrives hl hd, hplain]
    exact s.plainWrite_rd_rwg agent _ l f j ha hrwg hflt (fun g hg => hapart g (RegLoc.mem_fields.1 hg).1)

end Sys2Proof.Machine

/-! ## The DEV block

SUPPORT. Where an access of a DEV offset ends; that every DEV register but DEV_LOCATION holds read-only fields alone, and the
offsets behind it hold none (R46); and that a write of a register of read-only fields changes nothing (R18). -/

namespace Sys2Proof.Machine

open Sys2Proof

/-! ### Registers of read-only fields -/

/-- A write leaves a read-only field and everything else (R18). -/
theorem State.putField_of_ro {f : Field} (hf : f.acc = .ro) (s : State) (agent : Nat) (l : RegLoc) (v : Nat) :
    s.putField agent l v f = s := by
  simp [State.putField, hf]

theorem State.foldl_putField_of_ro (s : State) (agent : Nat) (l : RegLoc) (v : Nat) {fs : List Field}
    (hfs : ∀ f ∈ fs, f.acc = .ro) : fs.foldl (fun t f => t.putField agent l v f) s = s := by
  induction fs with
  | nil => rfl
  | cons f rest ih =>
    rw [List.foldl_cons, State.putField_of_ro (hfs f List.mem_cons_self)]
    exact ih (fun g hg => hfs g (List.mem_cons_of_mem _ hg))

theorem RegLoc.no_rwg_of_ro {l : RegLoc} (hl : ∀ f ∈ l.fields, f.acc = .ro) :
    l.fields.any (fun f => f.acc = Access.rwg) = false := by
  rw [List.any_eq_false]
  intro f hf
  simp [hl f hf]

/-- No guarded field stands among them, so that not even FW_LOCKED_WRITE is recorded (R19). -/
theorem State.plainWrite_of_ro {l : RegLoc} (hl : ∀ f ∈ l.fields, f.acc = .ro) (s : State) (agent v : Nat) :
    s.plainWrite agent l v = s := by
  simp [State.plainWrite, RegLoc.no_rwg_of_ro hl, State.foldl_putField_of_ro s agent l v hl]

/-- The window drops the write (R553), and only a guarded field would have it recorded (R19). -/
theorem State.writeAt_of_readOnlyPage {s : State} {agent : Nat} {r : RegAt} {l : RegLoc} (h : s.reached agent r = .reg l)
    (hr : readOnlyPage r = true) (hl : ∀ f ∈ l.fields, f.acc = .ro) (v : Nat) : s.writeAt agent r v = s := by
  simp [State.writeAt, h, hr, RegLoc.no_rwg_of_ro hl]

/-! ### The registers of the block (R46) -/

/-- The register of the DEV block at offset `r`, as the register path names it in the control die's window and in a page. -/
def devReg (r : Nat) : RegLoc := ⟨.dev, 0, r, none, 0x7F000000000 + r⟩

theorem dev_fields : ∀ f ∈ Blk.dev.fields, f.off < 0x44 ∧ (f.off ≠ 0x40 → f.acc = .ro) := by decide

theorem devReg_fields_ro {r : Nat} (hr : r ≠ 0x40) : ∀ f ∈ (devReg r).fields, f.acc = .ro := by
  intro f hf
  obtain ⟨hdev, rfl⟩ := RegLoc.mem_fields.1 hf
  exact (dev_fields f hdev).2 hr

theorem devReg_fields_reserved {r : Nat} (hr : 0x44 ≤ r) : (devReg r).fields = [] := by
  rw [List.eq_nil_iff_forall_not_mem]
  intro f hf
  obtain ⟨hdev, hoff⟩ := RegLoc.mem_fields.1 hf
  have hlow := (dev_fields f hdev).1
  have hat : f.off = r := hoff
  omega

/-! ### Where an access of the block ends -/

/-- The control die's services and the physical function reach the DEV block at its local addresses (R355, R550). -/
theorem State.reached_dev (s : State) {agent o : Nat} (ha : agent ≤ 2) (ho : o < 0x100) :
    s.reached agent (.loc (0x7F000000000 + o)) = .reg (devReg (o / 4 * 4)) := by
  have hword : (0x7F000000000 + o) / 4 * 4 = 0x7F000000000 + o / 4 * 4 := by omega
  have hplace : placeOf (0x7F000000000 + o / 4 * 4) = .control (o / 4 * 4) := by
    generalize hx : 0x7F000000000 + o / 4 * 4 = x
    simp only [placeOf]
    iterate 6 rw [if_neg (by omega)]
    rw [if_pos (by omega)]
    exact congrArg Place.control (by omega)
  have hblock : o / 4 * 4 / 0x1000 = 0 := by omega
  have hoff : o / 4 * 4 % 0x1000 = o / 4 * 4 := by omega
  simp only [State.reached, hword, hplace, controlLoc, hblock, hoff]
  rw [if_pos ha]
  rfl

/-- A host function reaches the DEV block at 0x8000 of its page (R553). -/
theorem State.reached_devPage (s : State) {agent o : Nat} (ha : 2 ≤ agent) (ho : o < 0x100) :
    s.reached agent (.page (0x8000 + o)) = .reg (devReg (o / 4 * 4)) := by
  have hhost : isService agent = false := by simp [isService]; omega
  have hword : (0x8000 + o) / 4 * 4 = 0x8000 + o / 4 * 4 := by omega
  have hpage : pageLoc (fnOfAgent agent) (0x8000 + o / 4 * 4) = some (devReg (o / 4 * 4)) := by
    rw [pageLoc, if_neg (by omega), if_neg (by omega), if_neg (by omega), if_pos (by omega), Nat.add_sub_cancel_left]
    rfl
  simp [State.reached, hhost, hword, hpage, reachedOf]

/-- The control die's blocks lie in no furnace die's window, so that an access of one always arrives. -/
theorem State.devReg_arrives (s : State) (r : Nat) : (dieOfAddr (devReg r).addr).filter s.cutOff = none := by
  have hnone : dieOfAddr (devReg r).addr = none := if_neg (by simp only [devReg]; omega)
  rw [hnone]
  rfl

/-! ### Reads and writes of the block (R48) -/

theorem State.regRead_dev_reserved (s : State) (agent : Nat) {r : Nat} (hr : 0x44 ≤ r) : s.regRead agent (devReg r) = (0, s) := by
  rw [State.regRead_of_plain rfl rfl (by simp [devReg]), State.plainRead, devReg_fields_reserved hr]
  rfl

theorem State.regWrite_dev_ro (s : State) (agent v : Nat) {r : Nat} (hr : r ≠ 0x40) : s.regWrite agent (devReg r) v = s := by
  have hplain : s.regWrite agent (devReg r) v = s.plainWrite agent (devReg r) v := by
    simp [State.regWrite, State.deviceRegWrite, devReg, hr]
  rw [hplain, State.plainWrite_of_ro (devReg_fields_ro hr)]

theorem rcCounterRead_dev_reserved (s : State) {agent o : Nat} (ha : agent ≤ 2) (ho : o < 0x100) (hres : 0x44 ≤ o) :
    exec (.rcCounterRead agent (.loc (0x7F000000000 + o))) s = .next { s with readData := 0 } := by
  calc exec (.rcCounterRead agent (.loc (0x7F000000000 + o))) s
      = okIf (isAccessor agent) (s.readAt agent (.loc (0x7F000000000 + o))) := rfl
    _ = .next (s.readAt agent (.loc (0x7F000000000 + o))) := okIf_next _ _ (by simp [isAccessor, ha])
    _ = _ := by
        rw [State.readAt_of_arrives (s.reached_dev ha ho) (s.devReg_arrives _), s.regRead_dev_reserved agent (by omega)]

theorem registerWrite_dev_ro (s : State) (v : Nat) {agent o : Nat} (ha : agent ≤ 2) (ho : o < 0x100) (hro : o / 4 * 4 ≠ 0x40) :
    exec (.registerWrite agent (.loc (0x7F000000000 + o)) v) s = .next s := by
  calc exec (.registerWrite agent (.loc (0x7F000000000 + o)) v) s
      = okIf (isAccessor agent) (s.writeAt agent (.loc (0x7F000000000 + o)) v) := rfl
    _ = .next (s.writeAt agent (.loc (0x7F000000000 + o)) v) := okIf_next _ _ (by simp [isAccessor, ha])
    _ = .next s := by
        rw [State.writeAt_of_arrives (s.reached_dev ha ho) (s.devReg_arrives _), s.regWrite_dev_ro agent _ hro]

theorem registerWrite_devPage_ro (s : State) (v : Nat) {agent o : Nat} (hacc : isAccessor agent = true) (ha : 2 ≤ agent)
    (ho : o < 0x100) (hro : o / 4 * 4 ≠ 0x40) : exec (.registerWrite agent (.page (0x8000 + o)) v) s = .next s := by
  have hwindow : readOnlyPage (.page (0x8000 + o)) = true := by simp [readOnlyPage]
  calc exec (.registerWrite agent (.page (0x8000 + o)) v) s
      = okIf (isAccessor agent) (s.writeAt agent (.page (0x8000 + o)) v) := rfl
    _ = .next (s.writeAt agent (.page (0x8000 + o)) v) := okIf_next _ _ hacc
    _ = .next s := by rw [State.writeAt_of_readOnlyPage (s.reached_devPage ha ho) hwindow (devReg_fields_ro hro)]

/-- Settles O42, access by access. -/
theorem reservedAndReadOnlyDeviceOffsets : Obligations.ReservedAndReadOnlyDeviceOffsets := by
  intro s agent o v ho
  exact ⟨fun ha hres => ⟨_, rcCounterRead_dev_reserved s ha ho hres, rfl, rfl⟩,
    fun ha hro => registerWrite_dev_ro s v ha ho hro,
    fun hacc ha hro => registerWrite_devPage_ro s v hacc ha ho hro⟩

end Sys2Proof.Machine

/-! ## Slices, shadow reloads and failed emissions of a pot

SUPPORT. What the start, the deferral and the end of a slice keep (R145, R146); what a completed slice leaves (R142, R147); a read
of one row of a tier that meets no error (R399), and the rows that a reload writes from it (R142); what follows the lasting failure of
an emission (R223, R335). -/

namespace Sys2Proof

/-- A key of a cleared stretch reads its default. -/
theorem SMap.get_clear {α : Type} (d : α) {lo hi k : Nat} (m : SMap α) (hlo : lo ≤ k) (hhi : k < hi) :
    (m.clear lo hi).get d k = d := by
  induction m with
  | nil => rfl
  | cons e r ih =>
    obtain ⟨a, v⟩ := e
    by_cases ha : lo ≤ a ∧ a < hi
    · simpa [SMap.clear, ha] using ih
    · have hne : a ≠ k := by omega
      have hkeep : SMap.clear lo hi ((a, v) :: r) = (a, v) :: SMap.clear lo hi r := List.filter_cons_of_pos (by simp; omega)
      rw [hkeep, SMap.get, if_neg hne, ih, ite_self]

/-- The field lies outside the block FLT and shares its place with none of `fs`. -/
def Field.apart (f : Field) (fs : List Field) : Bool := f.blk != .flt && fs.all (fun g => g.base != f.base)

theorem Field.apart_iff {f : Field} {fs : List Field} : f.apart fs = true ↔ f.blk ≠ .flt ∧ ∀ g ∈ fs, g.base ≠ f.base := by
  simp [Field.apart]

end Sys2Proof

namespace Sys2Proof.Machine

open Sys2Proof

/-! ### The state of a pot and its registers -/

@[simp] theorem State.potx_setPotx_same (s : State) (gp : Nat) (x : PotX) : (s.setPotx gp x).potx gp = x := SMap.get_put_same _ _ _ _
theorem State.potx_setPotx_other (s : State) {gp k : Nat} (h : gp ≠ k) (x : PotX) : (s.setPotx gp x).potx k = s.potx k :=
  SMap.get_put_other _ _ _ _ _ h
@[simp] theorem State.rd_setPotx (s : State) (gp : Nat) (x : PotX) (f : Field) (i j : Nat) :
    (s.setPotx gp x).rd f i j = s.rd f i j := rfl

theorem State.potx_of_pots {s t : State} (h : t.pots = s.pots) (gp : Nat) : t.potx gp = s.potx gp := by
  rw [State.potx, State.potx, h]
@[simp] theorem State.wr_potx (s : State) (f : Field) (i v j gp : Nat) : (s.wr f i v j).potx gp = s.potx gp := rfl
@[simp] theorem State.flag_potx (s : State) (f : Field) (i j gp : Nat) (b : Bool) : (s.flag f i b j).potx gp = s.potx gp := rfl
@[simp] theorem State.bump_potx (s : State) (f : Field) (i n j gp : Nat) : (s.bump f i n j).potx gp = s.potx gp := rfl
@[simp] theorem State.benchReport_potx (s : State) (gb u c i gp : Nat) (d : Bool) :
    (s.benchReport gb u c i d).potx gp = s.potx gp := State.potx_of_pots (by simp) gp

theorem State.rd_flag_field (s : State) {f g : Field} (h : f.base ≠ g.base) (i : Nat) (b : Bool) (j i' j' : Nat) :
    (s.flag f i b j).rd g i' j' = s.rd g i' j' := s.rd_wr_field f g i _ j i' j' h
theorem State.rd_bump_field (s : State) {f g : Field} (h : f.base ≠ g.base) (i n j i' j' : Nat) :
    (s.bump f i n j).rd g i' j' = s.rd g i' j' := s.rd_wr_field f g i _ j i' j' h

/-- A counter advanced reads its old value and `n` more, saturating. -/
theorem State.rd_bump_same (s : State) (f : Field) (i n j : Nat) :
    (s.bump f i n j).rd f i j = min (s.rd f i j + n) (2 ^ f.w - 1) := by
  have hpos := Nat.two_pow_pos f.w
  rw [State.bump, State.rd_wr_same]
  exact Nat.mod_eq_of_lt (by omega)

/-- States in which a field reads alike show it set alike. -/
theorem State.on_of_rd {s t : State} {f : Field} {i j : Nat} (h : t.rd f i j = s.rd f i j) : t.on f i j = s.on f i j := by
  rw [State.on, State.on, h]

/-! ### Reports of a bench's units -/

theorem State.noteFault_pot (s : State) (gb : Nat) {p c : Nat} (hp : p < 16) (hc : c / 256 = 1) :
    s.noteFault gb p c = s.wr Reg.POT_STATUS_LAST_FAULT (potIx gb p) c := by
  have hunit : p < 23 ∧ p ≠ 18 := by omega
  simp [State.noteFault, hunit, hc, lastFaultField, hp, potIx]

theorem State.benchReport_rd (s : State) {f : Field} (hf : f.blk ≠ .flt) (gb u c i : Nat) (d : Bool) (k j : Nat) :
    (s.benchReport gb u c i d).rd f k j = (s.noteFault gb u c).rd f k j := State.record_rd _ _ hf k j _

/-- A report of a pot shows in the pot's LAST_FAULT alone, outside the block FLT. -/
theorem State.benchReport_rd_pot (s : State) {f : Field} (hf : f.blk ≠ .flt) (gb : Nat) {p c : Nat} (hp : p < 16) (hc : c / 256 = 1)
    (i : Nat) (d : Bool) (k j : Nat) :
    (s.benchReport gb p c i d).rd f k j = (s.wr Reg.POT_STATUS_LAST_FAULT (potIx gb p) c).rd f k j := by
  rw [s.benchReport_rd hf, s.noteFault_pot gb hp hc]

theorem State.benchReport_rd_pot_other (s : State) {f : Field} (hf : f.blk ≠ .flt) (hb : Reg.POT_STATUS_LAST_FAULT.base ≠ f.base)
    (gb : Nat) {p c : Nat} (hp : p < 16) (hc : c / 256 = 1) (i : Nat) (d : Bool) (k j : Nat) :
    (s.benchReport gb p c i d).rd f k j = s.rd f k j := by
  rw [s.benchReport_rd_pot hf gb hp hc, State.rd_wr_field _ _ _ _ _ _ _ _ hb]

theorem State.benchReport_rd_lastFault (s : State) (gb : Nat) {p c : Nat} (hp : p < 16) (hc : c / 256 = 1) (i : Nat) (d : Bool) :
    (s.benchReport gb p c i d).rd Reg.POT_STATUS_LAST_FAULT (potIx gb p) = c := by
  rw [s.benchReport_rd_pot (by decide) gb hp hc, State.rd_wr_same]
  exact Nat.mod_eq_of_lt (by simp only [Reg.POT_STATUS_LAST_FAULT]; omega)

/-! ### The start, the deferral and the end of a slice -/

/-- The fields that the start, the deferral and the end of a slice write (R145, R146, R149), outside the block FLT. -/
def sliceFields : List Field :=
  [Reg.POT_INTEG_ST_ACTIVE, Reg.POT_INTEG_ST_KIND, Reg.POT_INTEG_ST_PENDING, Reg.POT_ST_INFO_DEFERRALS, Reg.POT_STATUS_LAST_FAULT,
   Reg.BENCH_ST_STATUS_BUSY, Reg.BENCH_ST_STATUS_POT]

/-- `t` agrees with `s` on memory, cells, metadata, the registers outside `sliceFields` and what a pot keeps of its own, but for the
marks of its running or deferred slice. -/
structure State.SliceKeeps (s t : State) : Prop where
  mem : t.mem = s.mem
  cells : t.cells = s.cells
  metaRam : t.metaRam = s.metaRam
  rd : ∀ {f : Field}, f.apart sliceFields = true → ∀ i j, t.rd f i j = s.rd f i j
  potx : ∀ gp, ∃ d m, t.potx gp = { s.potx gp with deferred := d, metaRun := m }

namespace State.SliceKeeps

variable {s t u : State}

theorem refl (s : State) : s.SliceKeeps s := ⟨rfl, rfl, rfl, fun _ _ _ => rfl, fun _ => ⟨_, _, rfl⟩⟩

theorem trans (h : s.SliceKeeps t) (h' : t.SliceKeeps u) : s.SliceKeeps u where
  mem := h'.mem.trans h.mem
  cells := h'.cells.trans h.cells
  metaRam := h'.metaRam.trans h.metaRam
  rd hf i j := (h'.rd hf i j).trans (h.rd hf i j)
  potx gp := by
    obtain ⟨d, m, e⟩ := h.potx gp
    obtain ⟨d', m', e'⟩ := h'.potx gp
    exact ⟨d', m', by rw [e', e]⟩

theorem on (h : s.SliceKeeps t) {f : Field} (hf : f.apart sliceFields = true) (i j : Nat) : t.on f i j = s.on f i j :=
  State.on_of_rd (h.rd hf i j)

theorem want (h : s.SliceKeeps t) (gp : Nat) : (t.potx gp).want = (s.potx gp).want := by
  obtain ⟨_, _, e⟩ := h.potx gp
  rw [e]

theorem metaDue (h : s.SliceKeeps t) (gp : Nat) : (t.potx gp).metaDue = (s.potx gp).metaDue := by
  obtain ⟨_, _, e⟩ := h.potx gp
  rw [e]

theorem stormCount (h : s.SliceKeeps t) (gp : Nat) : (t.potx gp).stormCount = (s.potx gp).stormCount := by
  obtain ⟨_, _, e⟩ := h.potx gp
  rw [e]

end State.SliceKeeps

theorem State.rd_wr_slice (s : State) {f g : Field} (hf : f.apart sliceFields = true) (hg : g ∈ sliceFields) (i v j i' j' : Nat) :
    (s.wr g i v j).rd f i' j' = s.rd f i' j' := s.rd_wr_field g f i v j i' j' ((Field.apart_iff.1 hf).2 g hg)

/-- A write of a field of slices keeps everything else. -/
theorem State.SliceKeeps.wr {s t : State} (h : s.SliceKeeps t) {g : Field} (hg : g ∈ sliceFields) (i v j : Nat) :
    s.SliceKeeps (t.wr g i v j) where
  mem := h.mem
  cells := h.cells
  metaRam := h.metaRam
  rd hf i' j' := (t.rd_wr_slice hf hg i v j i' j').trans (h.rd hf i' j')
  potx := h.potx

theorem State.SliceKeeps.flag {s t : State} (h : s.SliceKeeps t) {g : Field} (hg : g ∈ sliceFields) (i j : Nat) (b : Bool) :
    s.SliceKeeps (t.flag g i b j) := h.wr hg i _ j

theorem State.SliceKeeps.marks (s : State) (gp : Nat) (d m : Bool) :
    s.SliceKeeps (s.setPotx gp { s.potx gp with deferred := d, metaRun := m }) where
  mem := rfl
  cells := rfl
  metaRam := rfl
  rd _ _ _ := rfl
  potx k := by
    by_cases hk : gp = k
    · subst hk
      exact ⟨d, m, State.potx_setPotx_same ..⟩
    · exact ⟨_, _, State.potx_setPotx_other s hk _⟩

theorem State.SliceKeeps.report {s t : State} (h : s.SliceKeeps t) (gb : Nat) {p c : Nat} (hp : p < 16) (hc : c / 256 = 1)
    (i : Nat) (d : Bool) : s.SliceKeeps (t.benchReport gb p c i d) where
  mem := by simpa using h.mem
  cells := by simpa using h.cells
  metaRam := by simpa using h.metaRam
  rd hf k j := by
    obtain ⟨hflt, hbase⟩ := Field.apart_iff.1 hf
    rw [t.benchReport_rd_pot_other hflt (hbase _ (by simp [sliceFields])) gb hp hc]
    exact h.rd hf k j
  potx gp := by simpa using h.potx gp

theorem State.startSlice_keeps (s : State) (gb p : Nat) (k : SliceKind) (m : Bool) : s.SliceKeeps (s.startSlice gb p k m) :=
  ((((State.SliceKeeps.marks s _ false m).flag (by simp [sliceFields]) _ _ true).wr (by simp [sliceFields]) _ _ 0).flag
    (by simp [sliceFields]) _ _ true).wr (by simp [sliceFields]) _ _ 0

theorem State.deferSlice_keeps (s : State) (gb : Nat) {p : Nat} (hp : p < 16) : s.SliceKeeps (s.deferSlice gb p) :=
  (((State.SliceKeeps.marks s _ true _).wr (by simp [sliceFields]) _ _ 0).flag (by simp [sliceFields]) _ _ true).report gb hp
    (by decide) 0 _

theorem State.endSlice_keeps (s : State) (gb p : Nat) : s.SliceKeeps (s.endSlice gb p) := by
  have done := ((State.SliceKeeps.marks s (potIx gb p) false false).flag (g := Reg.POT_INTEG_ST_ACTIVE) (by simp [sliceFields])
    (potIx gb p) 0 false).wr (g := Reg.POT_INTEG_ST_KIND) (by simp [sliceFields]) (potIx gb p) 0 0
  simp only [State.endSlice]
  split
  · exact done
  · exact (done.flag (by simp [sliceFields]) _ _ false).wr (by simp [sliceFields]) _ _ 0

theorem State.beginSlice_keeps (s : State) (gb : Nat) {p : Nat} (hp : p < 16) (atOnce : Bool) :
    s.SliceKeeps (s.beginSlice gb p atOnce) := by
  simp only [State.beginSlice]
  split
  · exact .refl s
  · split
    · exact .refl s
    · split
      · exact s.startSlice_keeps gb p _ _
      · split
        · exact .refl s
        · exact s.deferSlice_keeps gb hp

theorem State.deferSlice_pending (s : State) (gb : Nat) {p : Nat} (hp : p < 16) :
    (s.deferSlice gb p).on Reg.POT_INTEG_ST_PENDING (potIx gb p) = true := by
  rw [State.deferSlice, State.on_of_rd (State.benchReport_rd_pot_other _ (by decide) (by decide) gb hp (by decide) ..)]
  exact State.on_flag_same _ _ _ _ _ (by decide)

theorem State.beginSlice_pending (s : State) (gb : Nat) {p : Nat} (hp : p < 16) (atOnce : Bool)
    (h : s.on Reg.POT_INTEG_ST_PENDING (potIx gb p) = true) :
    (s.beginSlice gb p atOnce).on Reg.POT_INTEG_ST_PENDING (potIx gb p) = true := by
  simp only [State.beginSlice]
  split
  · exact h
  · split
    · exact h
    · split
      · simpa (disch := decide) [State.startSlice, State.on, State.rd_wr_field, State.rd_flag_field] using h
      · split
        · exact h
        · exact s.deferSlice_pending gb hp

theorem State.nextSlice_keeps (s : State) (gb : Nat) : s.SliceKeeps (s.nextSlice gb) := by
  have each : ∀ (ps : List Nat) (t : State), (∀ p ∈ ps, p < 16) →
      t.SliceKeeps (ps.foldl (fun u p => u.beginSlice gb p false) t) := by
    intro ps
    induction ps with
    | nil => exact fun t _ => .refl t
    | cons p rest ih =>
      exact fun t h => (t.beginSlice_keeps gb (h p List.mem_cons_self) false).trans
        (ih _ (fun q hq => h q (List.mem_cons_of_mem _ hq)))
  exact each _ s (fun p hp => List.mem_range.1 hp)

/-! ### A completed slice -/

/-- The fields of a pot's slice record that a completed slice writes besides `sliceFields` (R147, R149). -/
def doneFields : List Field := [Reg.POT_ST_INFO_AGE, Reg.POT_ST_INFO_RESULT, Reg.BENCH_ST_WAIT_COUNT]

/-- The state of a pot's slice record after a completed slice, whose running bits still stand. -/
def State.sliceNoted (s : State) (gb p result waited : Nat) (x : PotX) : State :=
  let gp := potIx gb p
  let s := (s.setPotx gp x).flag Reg.POT_INTEG_ST_PENDING gp x.due.isSome
  ((((s.wr Reg.POT_ST_INFO_AGE gp 0).wr Reg.POT_ST_INFO_DEFERRALS gp 0).wr Reg.POT_ST_INFO_RESULT gp result).bump
    Reg.BENCH_ST_WAIT_COUNT gb waited)

/-- What a pot keeps of its own after a completed slice, of its cells or of its metadata (R147, R199). -/
def PotX.sliced (x : PotX) (meta_ : Bool) (now : Nat) : PotX :=
  if meta_ then { x with metaDue := false, forced := false, overdue := false, ageAt := now }
  else { x with want := none, forced := false, overdue := false, suspects := [], ageAt := now }

theorem State.sliceDone_eq (s : State) (gb p result waited : Nat) (meta_ : Bool) :
    s.sliceDone gb p result waited meta_ =
      (s.sliceNoted gb p result waited ((s.potx (potIx gb p)).sliced meta_ s.lifeNs)).endSlice gb p := by
  simp [State.sliceDone, State.sliceNoted, PotX.sliced]

section
variable (s : State) (gb p result waited : Nat) (meta_ : Bool)

theorem State.sliceDone_keeps : (s.sliceNoted gb p result waited ((s.potx (potIx gb p)).sliced meta_ s.lifeNs)).SliceKeeps
    (s.sliceDone gb p result waited meta_) := by
  rw [s.sliceDone_eq]
  exact State.endSlice_keeps _ gb p

@[simp] theorem State.sliceDone_cells : (s.sliceDone gb p result waited meta_).cells = s.cells := by
  rw [(s.sliceDone_keeps gb p result waited meta_).cells]
  simp [State.sliceNoted, State.bump]
@[simp] theorem State.sliceDone_metaRam : (s.sliceDone gb p result waited meta_).metaRam = s.metaRam := by
  rw [(s.sliceDone_keeps gb p result waited meta_).metaRam]
  simp [State.sliceNoted, State.bump]

theorem State.sliceDone_rd_other {f : Field} (hf : f.apart (sliceFields ++ doneFields) = true) (i j : Nat) :
    (s.sliceDone gb p result waited meta_).rd f i j = s.rd f i j := by
  obtain ⟨hflt, hbase⟩ := Field.apart_iff.1 hf
  have hslice : f.apart sliceFields = true :=
    Field.apart_iff.2 ⟨hflt, fun g hg => hbase g (List.mem_append_left _ hg)⟩
  rw [(s.sliceDone_keeps gb p result waited meta_).rd hslice]
  simp only [sliceFields, doneFields, List.cons_append, List.nil_append, List.forall_mem_cons] at hbase
  simp [State.sliceNoted, State.bump, State.flag, State.rd_wr_field, hbase]

theorem State.sliceDone_rd_result (hr : result < 16) :
    (s.sliceDone gb p result waited meta_).rd Reg.POT_ST_INFO_RESULT (potIx gb p) = result := by
  rw [(s.sliceDone_keeps gb p result waited meta_).rd (by decide), State.sliceNoted, State.rd_bump_field _ (by decide),
    State.rd_wr_same]
  exact Nat.mod_eq_of_lt hr

theorem State.sliceDone_rd_age : (s.sliceDone gb p result waited meta_).rd Reg.POT_ST_INFO_AGE (potIx gb p) = 0 := by
  rw [(s.sliceDone_keeps gb p result waited meta_).rd (by decide)]
  simp (disch := decide) [State.sliceNoted, State.rd_bump_field, State.rd_wr_field]

/-- A completed slice of the cells spends the request that it answers. -/
theorem State.sliceDone_want : ((s.sliceDone gb p result waited false).potx (potIx gb p)).want = none := by
  rw [(s.sliceDone_keeps gb p result waited false).want]
  simp [State.sliceNoted, PotX.sliced]

theorem State.sliceDone_metaDue : ((s.sliceDone gb p result waited true).potx (potIx gb p)).metaDue = false := by
  rw [(s.sliceDone_keeps gb p result waited true).metaDue]
  simp [State.sliceNoted, PotX.sliced]

end

/-! ### What follows a slice that cleared cells (R142) -/

section
variable (s : State) (gb : Nat) {p : Nat} (hp : p < 16)

@[simp] theorem State.afterSlice_metaRam : (s.afterSlice gb p).metaRam = s.metaRam := by
  simp only [State.afterSlice]
  repeat' split
  all_goals simp

theorem State.afterSlice_potx : ∃ b, (s.afterSlice gb p).potx (potIx gb p) = { s.potx (potIx gb p) with reload := b } := by
  simp only [State.afterSlice]
  split
  · exact ⟨_, rfl⟩
  · split
    · exact ⟨true, by simp⟩
    · exact ⟨_, by simp; rfl⟩

include hp

theorem State.afterSlice_rd_other {f : Field} (hf : f.apart [Reg.POT_STATUS_LAST_FAULT, Reg.POT_CFG_VALID] = true) (i j : Nat) :
    (s.afterSlice gb p).rd f i j = s.rd f i j := by
  obtain ⟨hflt, hbase⟩ := Field.apart_iff.1 hf
  have invalid : ∀ k b, (s.flag Reg.POT_CFG_VALID k b).rd f i j = s.rd f i j :=
    fun k b => s.rd_flag_field (hbase _ (by simp)) ..
  simp only [State.afterSlice]
  split
  · exact invalid _ _
  · split
    · exact invalid _ _
    · rw [State.benchReport_rd_pot_other _ hflt (hbase _ (by simp)) gb hp (by decide)]
      exact invalid _ _

theorem State.afterSlice_valid : (s.afterSlice gb p).on Reg.POT_CFG_VALID (potIx gb p) = false := by
  have invalid : (s.flag Reg.POT_CFG_VALID (potIx gb p) false).on Reg.POT_CFG_VALID (potIx gb p) = false :=
    s.on_flag_same _ _ _ _ (by decide)
  simp only [State.afterSlice]
  split
  · exact invalid
  · split
    · exact invalid
    · rw [State.on_of_rd (State.benchReport_rd_pot_other _ (by decide) (by decide) gb hp (by decide) ..)]
      exact invalid

end

/-! ### Slice commands that find their slice -/

theorem State.runSlice_of_idle {s : State} {gb p : Nat} {due running : Bool} (hdue : due = true)
    (hret : s.on Reg.POT_INTEG_RETIRED (potIx gb p) = false) (hrun : running = false) (hidle : s.potIdle gb p = true)
    (act : State → State) :
    s.runSlice gb p due running act = if s.windowOk (gb / 160) then act s else s.deferSlice gb p := by
  simp [State.runSlice, hdue, hret, hrun, hidle]

/-- An idle pot runs no slice. -/
theorem State.sliceRuns_of_idle {s : State} {gb p : Nat} (h : s.potIdle gb p = true) (k : SliceKind) (m : Bool) :
    s.sliceRuns (potIx gb p) k m = false := by
  have inactive : s.on Reg.POT_INTEG_ST_ACTIVE (potIx gb p) = false := by
    simp only [State.potIdle, Bool.and_eq_true, Bool.not_eq_true'] at h
    exact h.1.2
  simp [State.sliceRuns, inactive]

theorem State.clearSegment_foldl_rd (s : State) (gp : Nat) (segs : List Nat) (f : Field) (i j : Nat) :
    (segs.foldl (fun t g => t.clearSegment gp g) s).rd f i j = s.rd f i j := by
  induction segs generalizing s with
  | nil => rfl
  | cons g rest ih => exact ih _

theorem slicedOrder_nil : slicedOrder [] = [] := by decide

theorem okIf_pot {gb p : Nat} (hgb : gb < 2560) (hp : p < 16) (t : State) :
    okIf (decide (gb < 2560) && decide (p < 16)) t = .next t := okIf_next _ t (by simp [hgb, hp])

section
variable {s : State} {gb p : Nat} (hgb : gb < 2560) (hp : p < 16)
include hgb hp

/-- Sixteen transients: the pot is suspect and asks for a targeted slice (R137). -/
theorem potWitStorm_suspects (h : 16 ≤ (s.potx (potIx gb p)).stormCount) :
    ∃ t, exec (.potWitStorm gb p) s = .next t ∧ t.on Reg.POT_INTEG_SUSPECT (potIx gb p) = true ∧
      t.on Reg.POT_INTEG_ST_PENDING (potIx gb p) = true ∧ (t.potx (potIx gb p)).want = some .targeted ∧
      (t.potx (potIx gb p)).stormCount = 0 ∧ t.mem = s.mem := by
  let x := s.potx (potIx gb p)
  let u := (s.setPotx (potIx gb p) { x with stormCount := 0 }).suspect (potIx gb p) [x.stormSeg]
  have suspect : u.on Reg.POT_INTEG_SUSPECT (potIx gb p) = true := by
    simp (disch := decide) [u, State.suspect, State.on, State.flag, State.rd_wr_field, Reg.POT_INTEG_SUSPECT]
  have pending : u.on Reg.POT_INTEG_ST_PENDING (potIx gb p) = true := State.on_flag_same _ _ _ _ _ (by decide)
  have reported := (u.beginSlice_keeps gb hp false).report gb hp (c := 0x0141) (by decide) 0 (depCodes.contains 0x0141)
  refine ⟨(u.beginSlice gb p false).benchReport gb p 0x0141 0, ?_, ?_, ?_, ?_, ?_, ?_⟩
  · calc exec (.potWitStorm gb p) s = execPotWitStorm gb p s := rfl
      _ = _ := (okIf_pot hgb hp _).trans (by rw [if_neg (by omega)])
  · rw [reported.on (by decide), suspect]
  · rw [State.on_of_rd (State.benchReport_rd_pot_other _ (by decide) (by decide) gb hp (by decide) ..)]
    exact u.beginSlice_pending gb hp false pending
  · rw [reported.want]
    simp [u, State.suspect]
  · rw [reported.stormCount]
    simp [u, State.suspect]
  · exact reported.mem

/-- A request makes a slice pending (R146). -/
theorem stReq_requests (hret : s.on Reg.POT_INTEG_RETIRED (potIx gb p) = false) (hw : (s.potx (potIx gb p)).want = none) :
    ∃ t, exec (.stReq gb p) s = .next t ∧ t.on Reg.POT_INTEG_ST_PENDING (potIx gb p) = true ∧
      (t.potx (potIx gb p)).want = some .inService ∧ t.cells = s.cells := by
  let c := s.wr Reg.BENCH_ST_CTRL_POT gb p
  let u := (c.setPotx (potIx gb p) { s.potx (potIx gb p) with want := some .inService }).flag
    Reg.POT_INTEG_ST_PENDING (potIx gb p) true
  have accepts : ¬(c.on Reg.POT_INTEG_RETIRED (potIx gb p) = true ∨ (c.potx (potIx gb p)).want.isSome = true) := by
    rw [State.on_of_rd (s.rd_wr_field _ _ _ _ _ _ _ (by decide)), hret, State.wr_potx, hw]
    simp
  have begun := u.beginSlice_keeps gb hp false
  refine ⟨u.beginSlice gb p false, ?_, ?_, ?_, begun.cells⟩
  · calc exec (.stReq gb p) s = execStReq gb p s := rfl
      _ = _ := (okIf_pot hgb hp _).trans (by rw [if_neg accepts]; rfl)
  · exact u.beginSlice_pending gb hp false (State.on_flag_same _ _ _ _ _ (by decide))
  · rw [begun.want]
    simp [u]

/-- A slice pending for 1 s holds the pot (R146). -/
theorem sliceForceTimeout_forces (hw : (s.potx (potIx gb p)).want.isSome = true) :
    ∃ t, exec (.sliceForceTimeout gb p) s = .next t ∧ (t.potx (potIx gb p)).forced = true ∧ t.regs = s.regs := by
  obtain ⟨k, hk⟩ := Option.isSome_iff_exists.1 hw
  have due : (s.potx (potIx gb p)).due.isSome = true := by simp [PotX.due, hk]
  refine ⟨s.setPotx (potIx gb p) { s.potx (potIx gb p) with forced := true }, ?_, by simp, rfl⟩
  calc exec (.sliceForceTimeout gb p) s = execSliceForceTimeout gb p s := rfl
    _ = _ := (okIf_pot hgb hp _).trans (by rw [if_pos due])

/-- An overdue slice is reported once, and AGE shows its 600 s (R147). -/
theorem potStOverdue_reports (ho : (s.potx (potIx gb p)).overdue = false) (ha : s.rd Reg.POT_ST_INFO_AGE (potIx gb p) ≤ 600) :
    ∃ t, exec (.potStOverdue gb p) s = .next t ∧ (t.potx (potIx gb p)).overdue = true ∧
      t.rd Reg.POT_ST_INFO_AGE (potIx gb p) = 600 ∧ t.rd Reg.POT_STATUS_LAST_FAULT (potIx gb p) = 0x0146 := by
  have shown : max 600 (s.rd Reg.POT_ST_INFO_AGE (potIx gb p)) = 600 := by omega
  let x : PotX := { s.potx (potIx gb p) with ageAt := s.lifeNs - (max 600 (s.potAge (potIx gb p)) - 600) * 10 ^ 9 }
  let u := (s.wr Reg.POT_ST_INFO_AGE (potIx gb p) 600).setPotx (potIx gb p) x
  refine ⟨(u.setPotx (potIx gb p) { x with overdue := true }).benchReport gb p 0x0146 0, ?_, by simp, ?_,
    State.benchReport_rd_lastFault _ gb hp (by decide) ..⟩
  · have quiet : ¬(u.potx (potIx gb p)).overdue = true := by simp [u, x, ho]
    calc exec (.potStOverdue gb p) s = execPotStOverdue gb p s := rfl
      _ = .next (if (u.potx (potIx gb p)).overdue then u
          else (u.setPotx (potIx gb p) { u.potx (potIx gb p) with overdue := true }).benchReport gb p 0x0146 0) := by
        simp only [execPotStOverdue, shown, okIf_pot hgb hp]
        rfl
      _ = _ := by rw [if_neg quiet, State.potx_setPotx_same]
  · rw [State.benchReport_rd_pot_other _ (by decide) (by decide) gb hp (by decide)]
    simp [u, Reg.POT_ST_INFO_AGE]

/-- POOL_ABORT of a pot that is not BUSY closes its window at once (R123). -/
theorem poolAbort_closes (hb : (s.seq gb).busy p = false) :
    ∃ t, exec (.poolAbort gb p) s = .next t ∧ (t.potx (potIx gb p)).pool = none ∧
      t.rd Reg.POT_STATUS_POOL_CNT (potIx gb p) = 0 ∧ t.accs = s.accs := by
  refine ⟨s.closePool (potIx gb p), ?_, by simp [State.closePool], by simp [State.closePool], by simp [State.closePool]⟩
  calc exec (.poolAbort gb p) s = execPoolAbort gb p s := rfl
    _ = _ := (okIf_pot hgb hp _).trans (by rw [hb]; rfl)


/-- A targeted slice of an idle pot that finds no bad element counts one no-fault-found and clears VALID (R140, R142). -/
theorem targetedSlice_finds_nothing (hi : s.potIdle gb p = true) (hwin : s.windowOk (gb / 160) = true)
    (hret : s.on Reg.POT_INTEG_RETIRED (potIx gb p) = false) (hw : (s.potx (potIx gb p)).want = some .targeted) :
    ∃ t, exec (.targetedSlice gb p [] false 0) s = .next t ∧ t.on Reg.POT_CFG_VALID (potIx gb p) = false ∧
      t.rd Reg.POT_ST_INFO_RESULT (potIx gb p) = 4 ∧ (t.potx (potIx gb p)).want = none ∧
      t.rd Reg.POT_INTEG_NFF (potIx gb p) = min (s.rd Reg.POT_INTEG_NFF (potIx gb p) + 1) 255 ∧
      t.rd Reg.POT_INTEG_CULLET_USED (potIx gb p) = s.rd Reg.POT_INTEG_CULLET_USED (potIx gb p) := by
  let c := (s.potx (potIx gb p)).suspects.foldl (fun t g => t.clearSegment (potIx gb p) g) s
  have cleared : ∀ f i j, c.rd f i j = s.rd f i j := s.clearSegment_foldl_rd _ _
  let u := c.bump Reg.POT_INTEG_NFF (potIx gb p)
  let v := (u.sliceDone gb p 4 0 false).afterSlice gb p
  have next := v.nextSlice_keeps gb
  obtain ⟨b, reload⟩ := State.afterSlice_potx (u.sliceDone gb p 4 0 false) gb (p := p)
  refine ⟨v.nextSlice gb, ?_, ?_, ?_, ?_, ?_, ?_⟩
  · have unretired : c.on Reg.POT_INTEG_RETIRED (potIx gb p) = false := (State.on_of_rd (cleared _ _ _)).trans hret
    calc exec (.targetedSlice gb p [] false 0) s = execTargetedSlice gb p [] false 0 s := rfl
      _ = .next (((c.bump Reg.POT_INTEG_NFF (potIx gb p)).sliceDone gb p 4 0 false).afterSlice gb p |>.nextSlice gb) := by
        simp only [execTargetedSlice, okIf_pot hgb hp]
        rw [State.runSlice_of_idle (by simp [hw]) hret (State.sliceRuns_of_idle hi _ _) hi, if_pos hwin]
        simp [slicedOrder_nil, c, unretired, cleared]
  · rw [next.on (by decide)]
    exact State.afterSlice_valid _ gb hp
  · rw [next.rd (by decide), State.afterSlice_rd_other _ gb hp (by decide), State.sliceDone_rd_result _ _ _ _ _ _ (by decide)]
  · rw [next.want, reload, State.sliceDone_want]
  · rw [next.rd (by decide), State.afterSlice_rd_other _ gb hp (by decide), State.sliceDone_rd_other _ _ _ _ _ _ (by decide),
      State.rd_bump_same, cleared]
    rfl
  · rw [next.rd (by decide), State.afterSlice_rd_other _ gb hp (by decide), State.sliceDone_rd_other _ _ _ _ _ _ (by decide),
      State.rd_bump_field _ (by decide), cleared]

/-- An in-service slice that finds nothing ends its request with the pot's cells as they were (R144, R147). -/
theorem inServiceSlice_finds_nothing (hi : s.potIdle gb p = true) (hwin : s.windowOk (gb / 160) = true)
    (hret : s.on Reg.POT_INTEG_RETIRED (potIx gb p) = false) (hw : (s.potx (potIx gb p)).want = some .inService)
    (hv : s.on Reg.POT_CFG_VALID (potIx gb p) = true) :
    ∃ t, exec (.inServiceSlice gb p [] false false 0) s = .next t ∧ t.rd Reg.POT_ST_INFO_RESULT (potIx gb p) = 1 ∧
      (t.potx (potIx gb p)).want = none ∧ t.rd Reg.POT_ST_INFO_AGE (potIx gb p) = 0 ∧ t.cells = s.cells ∧
      t.on Reg.POT_CFG_VALID (potIx gb p) = true := by
  let u := s.sliceDone gb p 1 0 false
  have next := u.nextSlice_keeps gb
  refine ⟨u.nextSlice gb, ?_, ?_, ?_, ?_, ?_, ?_⟩
  · calc exec (.inServiceSlice gb p [] false false 0) s = execInServiceSlice gb p [] false false 0 s := rfl
      _ = _ := by
        simp only [execInServiceSlice, okIf_pot hgb hp]
        rw [State.runSlice_of_idle (by simp [hw]) hret (State.sliceRuns_of_idle hi _ _) hi, if_pos hwin]
        simp [hv, u]
  · rw [next.rd (by decide)]
    exact State.sliceDone_rd_result _ _ _ _ _ _ (by decide)
  · rw [next.want]
    exact State.sliceDone_want ..
  · rw [next.rd (by decide)]
    exact State.sliceDone_rd_age ..
  · rw [next.cells]
    exact State.sliceDone_cells ..
  · rw [next.on (by decide), State.on_of_rd (State.sliceDone_rd_other _ _ _ _ _ _ (by decide) _ _), hv]

/-- A slice of the metadata that finds no bad word clears the metadata, and with it VALID (R198). -/
theorem metaSlice_finds_nothing (hi : s.potIdle gb p = true) (hwin : s.windowOk (gb / 160) = true)
    (hret : s.on Reg.POT_INTEG_RETIRED (potIx gb p) = false) (hm : (s.potx (potIx gb p)).metaDue = true)
    (hw : (s.potx (potIx gb p)).want = none) :
    ∃ t, exec (.metaSlice gb p false 0) s = .next t ∧ (t.potx (potIx gb p)).metaDue = false ∧
      t.on Reg.POT_CFG_VALID (potIx gb p) = false ∧ ∀ k, k < 1024 → t.metaRam.get 0#64 (1024 * potIx gb p + k) = 0#64 := by
  let c : State := { s with metaRam := s.metaRam.clear (1024 * potIx gb p) (1024 * potIx gb p + 1024) }
  let u := c.bump Reg.POT_INTEG_NFF (potIx gb p)
  let v := (u.sliceDone gb p 4 0 true).afterSlice gb p
  have next := v.nextSlice_keeps gb
  obtain ⟨b, reload⟩ := State.afterSlice_potx (u.sliceDone gb p 4 0 true) gb (p := p)
  refine ⟨v.nextSlice gb, ?_, ?_, ?_, fun k hk => ?_⟩
  · calc exec (.metaSlice gb p false 0) s = execMetaSlice gb p false 0 s := rfl
      _ = _ := by
        simp only [execMetaSlice, okIf_pot hgb hp]
        rw [State.runSlice_of_idle (by simp [hm, hw]) hret (State.sliceRuns_of_idle hi _ _) hi, if_pos hwin]
        rfl
  · rw [next.metaDue, reload, State.sliceDone_metaDue]
  · rw [next.on (by decide)]
    exact State.afterSlice_valid _ gb hp
  · have ram : v.metaRam = c.metaRam := by simp [v, u, State.bump]
    rw [next.metaRam, ram]
    exact SMap.get_clear _ _ (by omega) (by omega)

/-- Outside the window a slice is deferred and stays pending (R145). -/
theorem inServiceSlice_defers (hi : s.potIdle gb p = true) (hwin : s.windowOk (gb / 160) = false)
    (hret : s.on Reg.POT_INTEG_RETIRED (potIx gb p) = false) (hw : (s.potx (potIx gb p)).want = some .inService) :
    ∃ t, exec (.inServiceSlice gb p [] false false 0) s = .next t ∧ t.on Reg.POT_INTEG_ST_PENDING (potIx gb p) = true ∧
      t.rd Reg.POT_STATUS_LAST_FAULT (potIx gb p) = 0x0145 ∧ t.cells = s.cells := by
  refine ⟨s.deferSlice gb p, ?_, s.deferSlice_pending gb hp, State.benchReport_rd_lastFault _ gb hp (by decide) ..,
    (s.deferSlice_keeps gb hp).cells⟩
  calc exec (.inServiceSlice gb p [] false false 0) s = execInServiceSlice gb p [] false false 0 s := rfl
    _ = _ := by
      simp only [execInServiceSlice, okIf_pot hgb hp]
      rw [State.runSlice_of_idle (by simp [hw]) hret (State.sliceRuns_of_idle hi _ _) hi, hwin]
      rfl

end

/-- Settles O24, command by command. -/
theorem slicesAndReloadsOfAPot : Obligations.SlicesAndReloadsOfAPot := by
  intro s gb p gp hgb hp hgp
  subst hgp
  exact ⟨potWitStorm_suspects hgb hp, stReq_requests hgb hp, sliceForceTimeout_forces hgb hp, potStOverdue_reports hgb hp,
    poolAbort_closes hgb hp, fun hi => ⟨fun hwin hret => ⟨targetedSlice_finds_nothing hgb hp hi hwin hret,
      inServiceSlice_finds_nothing hgb hp hi hwin hret, metaSlice_finds_nothing hgb hp hi hwin hret⟩,
      inServiceSlice_defers hgb hp hi⟩⟩

/-! ### Rows read from a tier (R142, R399) -/

/-- An action that answers goes on with its answer, in the state that it leaves. -/
theorem Act.run_bind_ok {α β : Type} {a : Act α} {k : α → Act β} {s t : State} {x : α} (h : a.run s = (.ok x, t)) :
    (a >>= k).run s = (k x).run t := by
  have ran : (a : StateM State (Except Stop α)) s = (.ok x, t) := h
  show StateT.bind (a : StateM State (Except Stop α)) (ExceptT.bindCont k) s = _
  rw [StateT.bind, ran]
  rfl

/-- The state after a read of one row of a tier: its bytes are counted (R408). -/
def State.rowCounted (s : State) (a : Nat) : State :=
  s.bumpKib ((ctlOf a).f Reg.MEMA_RD_KIB_COUNT Reg.MEMB_RD_KIB_COUNT) (ctlOf a).inst 128

/-- A row of 128 bytes, aligned, lies in one piece of its tier. -/
theorem tierPieces_row {a : Nat} (ha : a % 128 = 0) : tierPieces a 128 = [(a, 128)] := by
  have one : (a + 128 - 1) / 1024 + 1 - a / 1024 = 1 := by omega
  have lo : max a (1024 * (a / 1024)) = a := by omega
  have hi : min (a + 128) (1024 * (a / 1024) + 1024) - a = 128 := by omega
  rw [tierPieces, if_neg (by decide), one]
  show [(max a (1024 * (a / 1024)), min (a + 128) (1024 * (a / 1024) + 1024) - max a (1024 * (a / 1024)))] = _
  rw [lo, hi]

/-- Blocks without poison and without an error are read as they stand. -/
theorem State.blockRead_foldl_clean {s : State} (hp : s.tierPoison = []) (bs : List Nat) :
    bs.foldl (fun (acc : State × Option (Nat × Nat)) b =>
      let q := acc.1.blockRead b ((([] : List (Nat × Ecc)).find? (fun e => e.1 == b)).map Prod.snd)
      (q.1, acc.2.or (q.2.map (fun k => (k, 64 * b))))) (s, none) = (s, none) := by
  induction bs with
  | nil => rfl
  | cons b rest ih => simpa [State.blockRead, hp] using ih

theorem State.tierFetch_row {s : State} {a : Nat} (ha : a % 128 = 0) (hp : s.tierPoison = []) (hs : s.tierState (ctlOf a) ≠ 3) :
    s.tierFetch a 128 [] = (s.rowCounted a, none, s.bytes a 128) := by
  have read : s.tierRd a 128 [] = (s.rowCounted a, none) := by
    simp only [State.tierRd, if_neg hs, State.blockRead_foldl_clean hp]
    rfl
  simp only [State.tierFetch, tierPieces_row ha, List.foldl, read]
  rfl

/-- A pot's read of a row that its partition may read, from a stack or package that serves, answers the row's bytes. -/
theorem tierRead_row {s : State} {gb a : Nat} {env : EngEnv} (hq : env.rowFail = none) (ha : a % 128 = 0)
    (hok : s.tierOk gb a 128 false = true) (hp : s.tierPoison = []) (hs : s.tierState (ctlOf a) ≠ 3) (row : Nat) :
    (tierRead gb env row a 128).run s = (.ok (s.bytes a 128), s.rowCounted a) := by
  have fetch := State.tierFetch_row ha hp hs
  simp only [tierRead, hq]
  rw [Act.run_bind_ok (a := get) (x := s) (t := s) rfl]
  simp only [hok, Bool.not_true, Bool.and_false, fetch]
  rfl

/-- What a partition may read of the tiers hangs on its benches and its windows (R389). -/
theorem State.tierOk_of_rd {s t : State} (ho : t.owner = s.owner)
    (hvalid : ∀ i j, t.rd Reg.PART_WIN_VALID i j = s.rd Reg.PART_WIN_VALID i j)
    (hbase : ∀ i j, t.rd Reg.PART_WIN_BASE i j = s.rd Reg.PART_WIN_BASE i j)
    (hsize : ∀ i j, t.rd Reg.PART_WIN_SIZE i j = s.rd Reg.PART_WIN_SIZE i j)
    (hwrite : ∀ i j, t.rd Reg.PART_WIN_WRITE i j = s.rd Reg.PART_WIN_WRITE i j) (gb a n : Nat) (w : Bool) :
    t.tierOk gb a n w = s.tierOk gb a n w := by
  have part : t.partOf gb = s.partOf gb := by rw [State.partOf, State.partOf, ho]
  have window : ∀ p b, t.inWindow p b w = s.inWindow p b w := fun p b => by
    simp only [State.inWindow, State.on, hvalid, hbase, hsize, hwrite]
  rw [State.tierOk, State.tierOk, part, window, window]

theorem State.tierState_of_rd {s t : State} (ha : ∀ i j, t.rd Reg.MEMA_STATUS_STATE i j = s.rd Reg.MEMA_STATUS_STATE i j)
    (hb : ∀ i j, t.rd Reg.MEMB_STATUS_STATE i j = s.rd Reg.MEMB_STATUS_STATE i j) (c : Ctl) : t.tierState c = s.tierState c := by
  unfold State.tierState Ctl.f
  split
  · exact ha _ _
  · exact hb _ _

/-- `t` agrees with `s` on memory, owners, poison of the tiers, what pots keep of their own and the registers but the counters of
tier reads. -/
structure State.RowsRead (s t : State) : Prop where
  mem : t.mem = s.mem
  owner : t.owner = s.owner
  tierPoison : t.tierPoison = s.tierPoison
  pots : t.pots = s.pots
  rd : ∀ {f : Field}, f.apart [Reg.MEMA_RD_KIB_COUNT, Reg.MEMB_RD_KIB_COUNT] = true → ∀ i j, t.rd f i j = s.rd f i j

namespace State.RowsRead

variable {s t : State}

theorem refl (s : State) : s.RowsRead s := ⟨rfl, rfl, rfl, rfl, fun _ _ _ => rfl⟩

/-- One more row read and written. -/
theorem row (h : s.RowsRead t) (a gp r v : Nat) : s.RowsRead ((t.rowCounted a).setRow gp r v) where
  mem := h.mem
  owner := h.owner
  tierPoison := h.tierPoison
  pots := h.pots
  rd {f} hf i j := by
    obtain ⟨-, hbase⟩ := Field.apart_iff.1 hf
    have counter : ((ctlOf a).f Reg.MEMA_RD_KIB_COUNT Reg.MEMB_RD_KIB_COUNT).base ≠ f.base := by
      unfold Ctl.f
      split
      · exact hbase _ (by simp)
      · exact hbase _ (by simp)
    exact (State.rd_bump_field _ counter ..).trans (h.rd hf i j)

theorem tierOk (h : s.RowsRead t) (gb a n : Nat) (w : Bool) : t.tierOk gb a n w = s.tierOk gb a n w :=
  State.tierOk_of_rd h.owner (h.rd (by decide)) (h.rd (by decide)) (h.rd (by decide)) (h.rd (by decide)) gb a n w

theorem tierState (h : s.RowsRead t) (c : Ctl) : t.tierState c = s.tierState c :=
  State.tierState_of_rd (h.rd (by decide)) (h.rd (by decide)) c

theorem bytes (h : s.RowsRead t) (a n : Nat) : t.bytes a n = s.bytes a n := by
  simp only [State.bytes, State.byte, h.mem]

end State.RowsRead

/-! ### A reload from the shadow (R142) -/

theorem State.row_setRow_same (s : State) (gp r v : Nat) : (s.setRow gp r v).row gp r = v % 2 ^ 1024 := by
  have cut : ∀ w, (BitVec.ofNat w v).toNat = v % 2 ^ w := BitVec.toNat_ofNat v
  exact (congrArg BitVec.toNat (SMap.get_put_same _ _ _ _)).trans (cut 1024)

theorem State.row_setRow_other (s : State) (gp v : Nat) {r k : Nat} (h : r ≠ k) : (s.setRow gp r v).row gp k = s.row gp k := by
  rw [State.row, State.setRow, SMap.get_put_other _ _ _ _ _ (by omega), State.row]

section
variable {s : State} {gb p : Nat} {env : EngEnv} {l : LoadOp} {f : WFmt} (hwit : env.wit = []) (hfail : env.rowFail = none)
  (hfirst : l.rowFirst = 0) (hf : f ≠ .wt) (hsrc : l.src % 128 = 0) (hp : s.tierPoison = [])
include hwit hfail hfirst hf hsrc hp

/-- A row that can be read is written as the load image has it, its unused columns 0. -/
theorem reloadRow_run {i : Nat} (hok : s.tierOk gb (l.src + 128 * i) 128 false = true)
    (hs : s.tierState (ctlOf (l.src + 128 * i)) ≠ 3) :
    (reloadRow gb p env l f i).run s =
      (.ok (), (s.rowCounted (l.src + 128 * i)).setRow (potIx gb p) i (f.trim (s.num (l.src + 128 * i) 128))) := by
  have plain : (f == WFmt.wt) = false := by simpa using hf
  unfold reloadRow
  rw [Act.run_bind_ok (tierRead_row hfail (by omega) hok hp hs i)]
  simp only [plainRow, plain, hwit, hfirst, Nat.zero_add]
  rfl

/-- The first `n` rows of a reload whose rows can all be read. -/
theorem reloadRows_run (hread : ∀ r, r < 1024 → s.tierOk gb (l.src + 128 * r) 128 false = true ∧
    s.tierState (ctlOf (l.src + 128 * r)) ≠ 3) {n : Nat} (hn : n ≤ 1024) :
    ∃ t, ((List.range n).forM (reloadRow gb p env l f)).run s = (.ok (), t) ∧ s.RowsRead t ∧
      ∀ r, r < n → t.row (potIx gb p) r = f.trim (s.num (l.src + 128 * r) 128) % 2 ^ 1024 := by
  induction n with
  | zero => exact ⟨s, rfl, .refl s, fun r hr => absurd hr (by omega)⟩
  | succ n ih =>
    obtain ⟨t, run, kept, rows⟩ := ih (by omega)
    obtain ⟨hok, hs⟩ := hread n (by omega)
    have last := reloadRow_run (p := p) hwit hfail hfirst hf hsrc (kept.tierPoison.trans hp) (i := n)
      ((kept.tierOk ..).trans hok) (by rwa [kept.tierState])
    have image : t.num (l.src + 128 * n) 128 = s.num (l.src + 128 * n) 128 := congrArg ofBytes (kept.bytes ..)
    rw [image] at last
    refine ⟨(t.rowCounted (l.src + 128 * n)).setRow (potIx gb p) n (f.trim (s.num (l.src + 128 * n) 128)), ?_,
      kept.row (l.src + 128 * n) (potIx gb p) n _, fun r hr => ?_⟩
    · have snoc : (List.range (n + 1)).forM (reloadRow gb p env l f) =
          (List.range n).forM (reloadRow gb p env l f) >>= fun _ => [n].forM (reloadRow gb p env l f) := by
        rw [List.range_succ]
        exact List.forM_append
      rw [snoc, Act.run_bind_ok run]
      exact (Act.run_bind_ok last).trans rfl
    · by_cases hrn : r = n
      · subst hrn
        exact State.row_setRow_same ..
      · rw [State.row_setRow_other _ _ _ (Ne.symm hrn)]
        exact rows r (by omega)

end

theorem State.num_of_mem {s t : State} (h : t.mem = s.mem) (a n : Nat) : t.num a n = s.num a n := by
  simp only [State.num, State.bytes, State.byte, h]

/-- A load that completed touches no cell and nothing that the pot keeps of its own. -/
theorem State.loadDone_row (s : State) (gp w : Nat) (full : Bool) (k r : Nat) : (s.loadDone gp w full).row k r = s.row k r := by
  simp only [State.loadDone]
  split <;> rfl

theorem State.loadDone_full_on (s : State) (gp w : Nat) :
    (s.loadDone gp w true).on Reg.POT_CFG_VALID gp = true ∧ (s.loadDone gp w true).on Reg.POT_INTEG_SUSPECT gp = false := by
  have done : s.loadDone gp w true =
      ((s.flag Reg.POT_CFG_VALID gp true).wr Reg.POT_CFG_WFMT gp w).flag Reg.POT_INTEG_SUSPECT gp false := rfl
  refine ⟨?_, by rw [done]; exact State.on_flag_same _ _ _ _ _ (by decide)⟩
  rw [done, State.on_of_rd (State.rd_flag_field _ (by decide) ..), State.on_of_rd (State.rd_wr_field _ _ _ _ _ _ _ _ (by decide))]
  exact State.on_flag_same _ _ _ _ _ (by decide)

/-- A due reload of a plain pot whose rows can all be read ends its repair (R142). -/
theorem shadowReload_restores {s : State} {gb p : Nat} {env : EngEnv} (hgb : gb < 2560) (hp : p < 16) (hq : quietEnv env = true)
    (hdue : (s.potx (potIx gb p)).reload = true) (hclock : s.clockStopped gb = false)
    (hplain : tiledPot (s.rd Reg.POT_CFG_ROLE (potIx gb p)) p = false) (hpoison : s.tierPoison = []) {f : WFmt}
    (hf : WFmt.ofNum (s.rd Reg.POT_CFG_WFMT (potIx gb p)) = some f) (hwt : f ≠ .wt) {a : Nat}
    (ha : a = 128 * s.rd Reg.POT_SHADOW_ADDR (potIx gb p))
    (hread : ∀ r, r < 1024 → s.tierOk gb (a + 128 * r) 128 false = true ∧ s.tierState (ctlOf (a + 128 * r)) ≠ 3) :
    ∃ t, exec (.shadowReload gb p env) s = .next t ∧ t.mem = s.mem ∧ (t.potx (potIx gb p)).reload = false ∧
      t.on Reg.POT_CFG_VALID (potIx gb p) = true ∧ t.on Reg.POT_INTEG_SUSPECT (potIx gb p) = false ∧
      ∀ r, r < 1024 → t.row (potIx gb p) r = f.trim (s.num (a + 128 * r) 128) % 2 ^ 1024 := by
  obtain ⟨hwit, hfail⟩ : env.wit = [] ∧ env.rowFail = none := by
    simp only [quietEnv, Bool.and_eq_true, List.isEmpty_iff, Option.isNone_iff_eq_none] at hq
    obtain ⟨⟨⟨⟨⟨⟨-, hwit⟩, -⟩, -⟩, -⟩, -⟩, hfail⟩ := hq
    exact ⟨hwit, hfail⟩
  subst ha
  let wf := s.rd Reg.POT_CFG_WFMT (potIx gb p)
  let l : LoadOp := { tierA := true, wfmt := wf, rowFirst := 0, rows := 1024, src := 128 * s.rd Reg.POT_SHADOW_ADDR (potIx gb p) }
  let u := (s.setPotx (potIx gb p) { s.potx (potIx gb p) with reload := false }).dropRun (potIx gb p)
  have kept : ∀ g : Field, Reg.POT_UPD_STATUS_RUN.base ≠ g.base → ∀ i j, u.rd g i j = s.rd g i j :=
    fun g hg i j => (State.rd_flag_field _ hg ..).trans rfl
  have readable : ∀ r, r < 1024 → u.tierOk gb (l.src + 128 * r) 128 false = true ∧ u.tierState (ctlOf (l.src + 128 * r)) ≠ 3 := by
    intro r hr
    rw [State.tierOk_of_rd (s := s) (t := u) rfl (kept Reg.PART_WIN_VALID (by decide)) (kept Reg.PART_WIN_BASE (by decide))
        (kept Reg.PART_WIN_SIZE (by decide)) (kept Reg.PART_WIN_WRITE (by decide)),
      State.tierState_of_rd (s := s) (t := u) (kept Reg.MEMA_STATUS_STATE (by decide)) (kept Reg.MEMB_STATUS_STATE (by decide))]
    exact hread r hr
  obtain ⟨t, run, read, rows⟩ := reloadRows_run (s := u) (gb := gb) (p := p) (l := l) hwit hfail rfl hwt (by simp [l]) hpoison readable
    (Nat.le_refl 1024)
  obtain ⟨valid, sound⟩ := t.loadDone_full_on (potIx gb p) wf
  refine ⟨t.loadDone (potIx gb p) wf true, ?_, read.mem, ?_, valid, sound, fun r hr => ?_⟩
  · have due : ¬((s.potx (potIx gb p)).reload = false ∨ s.clockStopped gb = true) := by simp [hdue, hclock]
    have body : (do
        (List.range 1024).forM (reloadRow gb p env l ((WFmt.ofNum wf).getD .w4))
        pure wf : Act Nat).run u = (.ok wf, t) := by
      rw [hf, Option.getD_some, Act.run_bind_ok run]
      rfl
    calc exec (.shadowReload gb p env) s = execShadowReload gb p env s := rfl
      _ = _ := by
        simp only [execShadowReload, okIf_pot hgb hp, if_neg due, State.rd_setPotx, hplain]
        simp only [wf, l, u] at body
        simp only [Bool.false_eq_true, if_false, body, wf]
  · have own : (t.loadDone (potIx gb p) wf true).potx (potIx gb p) = u.potx (potIx gb p) :=
      State.potx_of_pots (t := t.loadDone (potIx gb p) wf true) read.pots _
    rw [own]
    simp [u, State.dropRun]
  · rw [State.loadDone_row, rows r hr, State.num_of_mem (s := s) (t := u) rfl]

/-! ### The lasting failure of an emission (R223, R335) -/

/-- A write of a field leaves the same field of any unit as it was, or makes it the value written. -/
theorem State.rd_wr_same_or (s : State) (f : Field) (i v j i' j' : Nat) :
    (s.wr f i v j).rd f i' j' = v % 2 ^ f.w ∨ (s.wr f i v j).rd f i' j' = s.rd f i' j' := by
  by_cases hk : f.key i j = f.key i' j'
  · exact .inl (by rw [State.rd, ← hk]; exact SMap.get_put_same _ _ _ _)
  · exact .inr (s.rd_wr_other f f i v j i' j' hk)

theorem State.noteFault_dma (s : State) (gb : Nat) {c : Nat} (hc : c / 256 = 7) :
    s.noteFault gb 19 c = s.wr Reg.DMA_STATUS_LAST_FAULT gb c := by
  simp [State.noteFault, hc, lastFaultField]

/-- POT_UPD_EMIT of each pot of a list that emitted failed rows (R223). -/
def State.emitReports (s : State) (gb : Nat) (ps : List Nat) : State := ps.foldl (fun t p => t.benchReport gb p 0x0163 0) s

/-- The image of a shadow of `len` bytes at a row address holds a byte of the failed run `q`. -/
def emitHits (len : Nat) (q : Nat × Nat × Nat) (a : Nat) : Bool := decide (128 * a < q.2.1 + q.2.2) && decide (q.2.1 < 128 * a + len)

/-- The bytes of a pot's shadow image (R141, R187). -/
def State.shadowLen (s : State) (gb p : Nat) : Nat :=
  if 12 ≤ p ∧ s.on Reg.POT_SP_CFG_TILED (spIx (potIx gb p)) = true then (s.potx (potIx gb p)).tileOff 32 else 131072

/-- The shadow or open run of a pot that holds a failed run of its emission is given up (R223). -/
def State.loseRun (s : State) (gb : Nat) (q : Nat × Nat × Nat) : State :=
  let gp := potIx gb q.1
  if emitHits (s.shadowLen gb q.1) q (s.rd Reg.POT_SHADOW_ADDR gp) ||
      (s.on Reg.POT_UPD_STATUS_RUN gp && emitHits (s.shadowLen gb q.1) q (s.rd Reg.POT_UPD_RUN_ADDR gp)) then
    (s.dropRun gp).flag Reg.POT_INTEG_SHADOW_OK gp false
  else s

theorem State.emissionLost_eq (s : State) (x : Xfer) :
    s.emissionLost x = x.emitted.foldl (fun t q => t.loseRun x.gb q)
      (((s.noteExt x.gb x.ext).benchReport x.gb 19 0x070A x.ext).emitReports x.gb ((x.emitted.map Prod.fst).eraseDups)) := rfl

theorem State.emitReports_frame (s : State) (gb : Nat) (ps : List Nat) :
    (s.emitReports gb ps).mem = s.mem ∧ (s.emitReports gb ps).xfers = s.xfers := by
  induction ps generalizing s with
  | nil => exact ⟨rfl, rfl⟩
  | cons p rest ih =>
    obtain ⟨hm, hx⟩ := ih (s.benchReport gb p 0x0163 0)
    exact ⟨hm.trans (by simp), hx.trans (by simp)⟩

theorem State.emitReports_rd_other (s : State) (gb : Nat) {ps : List Nat} (hps : ∀ p ∈ ps, p < 16) {f : Field}
    (hf : f.apart [Reg.POT_STATUS_LAST_FAULT] = true) (i j : Nat) : (s.emitReports gb ps).rd f i j = s.rd f i j := by
  obtain ⟨hflt, hbase⟩ := Field.apart_iff.1 hf
  induction ps generalizing s with
  | nil => rfl
  | cons p rest ih =>
    exact (ih (s.benchReport gb p 0x0163 0) (fun q hq => hps q (List.mem_cons_of_mem _ hq))).trans
      (s.benchReport_rd_pot_other hflt (hbase _ (by simp)) gb (hps p List.mem_cons_self) (by decide) ..)

/-- Each pot of the list shows POT_UPD_EMIT, and so does one that showed it before. -/
theorem State.emitReports_lastFault (s : State) (gb : Nat) {ps : List Nat} (hps : ∀ p ∈ ps, p < 16) {p : Nat}
    (h : p ∈ ps ∨ s.rd Reg.POT_STATUS_LAST_FAULT (potIx gb p) = 0x0163) :
    (s.emitReports gb ps).rd Reg.POT_STATUS_LAST_FAULT (potIx gb p) = 0x0163 := by
  induction ps generalizing s with
  | nil => exact h.resolve_left List.not_mem_nil
  | cons q rest ih =>
    have hq : q < 16 := hps q List.mem_cons_self
    refine ih (s.benchReport gb q 0x0163 0) (fun k hk => hps k (List.mem_cons_of_mem _ hk)) ?_
    rcases h with hmem | hold
    · rcases List.mem_cons.1 hmem with rfl | hrest
      · exact .inr (State.benchReport_rd_lastFault _ gb hq (by decide) ..)
      · exact .inl hrest
    · rw [s.benchReport_rd_pot (by decide) gb hq (by decide)]
      exact .inr ((s.rd_wr_same_or _ _ _ _ _ _).elim id (fun e => e.trans hold))

section
variable (s : State) (gb : Nat) (q : Nat × Nat × Nat)

/-- A failed run leaves the state as it is, or gives up the run and the shadow of its pot. -/
theorem State.loseRun_cases : s.loseRun gb q = s ∨
    s.loseRun gb q = (s.dropRun (potIx gb q.1)).flag Reg.POT_INTEG_SHADOW_OK (potIx gb q.1) false := by
  simp only [State.loseRun]
  split
  · exact .inr rfl
  · exact .inl rfl

theorem State.loseRun_frame : (s.loseRun gb q).mem = s.mem ∧ (s.loseRun gb q).xfers = s.xfers := by
  rcases s.loseRun_cases gb q with e | e
  · rw [e]
    exact ⟨rfl, rfl⟩
  · rw [e]
    exact ⟨rfl, rfl⟩

theorem State.loseRun_rd_other {f : Field} (hf : f.apart [Reg.POT_UPD_STATUS_RUN, Reg.POT_INTEG_SHADOW_OK] = true) (i j : Nat) :
    (s.loseRun gb q).rd f i j = s.rd f i j := by
  obtain ⟨-, hbase⟩ := Field.apart_iff.1 hf
  have hrun := hbase Reg.POT_UPD_STATUS_RUN (by simp)
  have hok := hbase Reg.POT_INTEG_SHADOW_OK (by simp)
  rcases s.loseRun_cases gb q with e | e
  · rw [e]
  · rw [e, State.rd_flag_field _ hok, State.dropRun, State.rd_flag_field _ hrun]

/-- A shadow that is not held valid stays so. -/
theorem State.loseRun_shadow_off {gp : Nat} (h : s.on Reg.POT_INTEG_SHADOW_OK gp = false) :
    (s.loseRun gb q).on Reg.POT_INTEG_SHADOW_OK gp = false := by
  rcases s.loseRun_cases gb q with e | e
  · rwa [e]
  · have dropped : (s.dropRun (potIx gb q.1)).rd Reg.POT_INTEG_SHADOW_OK gp = s.rd Reg.POT_INTEG_SHADOW_OK gp :=
      State.rd_flag_field _ (by decide) ..
    rcases (s.dropRun (potIx gb q.1)).rd_wr_same_or Reg.POT_INTEG_SHADOW_OK (potIx gb q.1) 0 0 gp 0 with zero | kept
    · rw [e, State.on]
      exact decide_eq_false (fun on => on zero)
    · rw [e]
      exact (State.on_of_rd (kept.trans dropped)).trans h

/-- A failed run in the image of a plain pot's shadow gives the shadow up. -/
theorem State.loseRun_hit (hplain : q.1 < 12) (hit : emitHits 131072 q (s.rd Reg.POT_SHADOW_ADDR (potIx gb q.1)) = true) :
    (s.loseRun gb q).on Reg.POT_INTEG_SHADOW_OK (potIx gb q.1) = false := by
  have len : s.shadowLen gb q.1 = 131072 := if_neg (by omega)
  simp only [State.loseRun, len, hit, Bool.true_or, if_true]
  exact State.on_flag_same _ _ _ _ _ (by decide)

end

section
variable (s : State) (gb : Nat) (qs : List (Nat × Nat × Nat))

theorem State.foldl_loseRun_frame :
    (qs.foldl (fun t q => t.loseRun gb q) s).mem = s.mem ∧ (qs.foldl (fun t q => t.loseRun gb q) s).xfers = s.xfers := by
  induction qs generalizing s with
  | nil => exact ⟨rfl, rfl⟩
  | cons q rest ih =>
    obtain ⟨hm, hx⟩ := ih (s.loseRun gb q)
    obtain ⟨hm', hx'⟩ := s.loseRun_frame gb q
    exact ⟨hm.trans hm', hx.trans hx'⟩

theorem State.foldl_loseRun_rd_other {f : Field} (hf : f.apart [Reg.POT_UPD_STATUS_RUN, Reg.POT_INTEG_SHADOW_OK] = true) (i j : Nat) :
    (qs.foldl (fun t q => t.loseRun gb q) s).rd f i j = s.rd f i j := by
  induction qs generalizing s with
  | nil => rfl
  | cons q rest ih => exact (ih _).trans (s.loseRun_rd_other gb q hf i j)

theorem State.foldl_loseRun_shadow_off {gp : Nat} (h : s.on Reg.POT_INTEG_SHADOW_OK gp = false) :
    (qs.foldl (fun t q => t.loseRun gb q) s).on Reg.POT_INTEG_SHADOW_OK gp = false := by
  induction qs generalizing s with
  | nil => exact h
  | cons q rest ih => exact ih _ (s.loseRun_shadow_off gb q h)

/-- One failed run in the image of a plain pot's shadow suffices. -/
theorem State.foldl_loseRun_hit {r : Nat × Nat × Nat} (hr : r ∈ qs) (hplain : r.1 < 12)
    (hit : emitHits 131072 r (s.rd Reg.POT_SHADOW_ADDR (potIx gb r.1)) = true) :
    (qs.foldl (fun t q => t.loseRun gb q) s).on Reg.POT_INTEG_SHADOW_OK (potIx gb r.1) = false := by
  induction qs generalizing s with
  | nil => exact absurd hr List.not_mem_nil
  | cons q rest ih =>
    rcases List.mem_cons.1 hr with rfl | hrest
    · exact State.foldl_loseRun_shadow_off _ gb rest (s.loseRun_hit gb r hplain hit)
    · exact ih (s.loseRun gb q) hrest (by rwa [s.loseRun_rd_other gb q (by decide)])

end

/-- A lasting failure of an emission removes its transfer, shows at the front end and at its pots, and gives up the shadow it
hits (R223, R335). -/
theorem emissionWriteFail_reports {s : State} {x : Xfer} {r : Nat × Nat × Nat}
    (hx : s.xfers.find? (fun y => y.id == x.id && decide (y.kind = .emit)) = some x) (hr : r ∈ x.emitted)
    (hpots : ∀ q ∈ x.emitted, q.1 < 16) (hplain : r.1 < 12) :
    ∃ t, exec (.emissionWriteFail x.id) s = .next t ∧ t.mem = s.mem ∧ (∀ y ∈ t.xfers, y.id ≠ x.id) ∧
      t.rd Reg.POT_STATUS_LAST_FAULT (potIx x.gb r.1) = 0x0163 ∧ t.rd Reg.DMA_STATUS_LAST_FAULT x.gb = 0x070A ∧
      (128 * s.rd Reg.POT_SHADOW_ADDR (potIx x.gb r.1) < r.2.1 + r.2.2 →
        r.2.1 < 128 * s.rd Reg.POT_SHADOW_ADDR (potIx x.gb r.1) + 131072 →
        t.on Reg.POT_INTEG_SHADOW_OK (potIx x.gb r.1) = false) := by
  let u := ((s.dropXfer x.id).noteExt x.gb x.ext).benchReport x.gb 19 0x070A x.ext
  let ps := (x.emitted.map Prod.fst).eraseDups
  let v := u.emitReports x.gb ps
  have pots : ∀ p ∈ ps, p < 16 := fun p hp => by
    obtain ⟨q, hq, rfl⟩ := List.mem_map.1 (List.mem_eraseDups.1 hp)
    exact hpots q hq
  have front : u.rd Reg.DMA_STATUS_LAST_FAULT x.gb = 0x070A := by
    rw [State.benchReport_rd _ (by decide), State.noteFault_dma _ _ (by decide), State.rd_wr_same]
    rfl
  have shadow : v.rd Reg.POT_SHADOW_ADDR (potIx x.gb r.1) = s.rd Reg.POT_SHADOW_ADDR (potIx x.gb r.1) := by
    rw [State.emitReports_rd_other _ _ pots (by decide), State.benchReport_rd _ (by decide), State.noteFault_dma _ _ (by decide)]
    simp (disch := decide) only [State.rd_wr_field, State.noteExt]
    rfl
  obtain ⟨memV, xfersV⟩ := u.emitReports_frame x.gb ps
  obtain ⟨memT, xfersT⟩ := v.foldl_loseRun_frame x.gb x.emitted
  refine ⟨x.emitted.foldl (fun t q => t.loseRun x.gb q) v, ?_, ?_, ?_, ?_, ?_, fun hlo hhi => ?_⟩
  · calc exec (.emissionWriteFail x.id) s = execEmissionWriteFail x.id s := rfl
      _ = .next ((s.dropXfer x.id).emissionLost x) := by rw [execEmissionWriteFail, hx]
      _ = _ := by rw [State.emissionLost_eq]
  · rw [memT, memV]
    simp [u, State.noteExt, State.dropXfer]
  · rw [xfersT, xfersV]
    intro y hy
    simp [u, State.noteExt, State.dropXfer] at hy
    exact hy.2
  · rw [State.foldl_loseRun_rd_other _ _ _ (by decide)]
    exact State.emitReports_lastFault _ _ pots (.inl (List.mem_eraseDups.2 (List.mem_map_of_mem hr)))
  · rw [State.foldl_loseRun_rd_other _ _ _ (by decide), State.emitReports_rd_other _ _ pots (by decide), front]
  · refine State.foldl_loseRun_hit _ _ _ hr hplain ?_
    rw [shadow]
    simp [emitHits, hlo, hhi]

/-- Settles O25: the reload row by row, the failed emission pot by pot. -/
theorem shadowReloadsAndFailedEmissions : Obligations.ShadowReloadsAndFailedEmissions := by
  intro s gb p gp env hgb hp hgp hq
  subst hgp
  refine ⟨fun hdue hclock hplain hpoison f hf hwt a ha hread =>
    shadowReload_restores hgb hp hq hdue hclock hplain hpoison hf hwt ha hread, ?_⟩
  rintro x r hx rfl hr rfl hpots hplain
  exact emissionWriteFail_reports hx hr hpots hplain

end Sys2Proof.Machine

/-! ## The parison array and the run of a unit's instruction

SUPPORT. What the shared parts of an instruction leave: its front checks, its surroundings, its tag actions and its completion
(R249 to R252, R258, R265, R591); the delivery of a mask record (R162); the commit of a calibration (R164 to R167); the rows of a
sketch load (R170); and a comparison without noise (R153 to R162). -/

namespace Sys2Proof

theorem bit_eq_testBit (n k : Nat) : bit n k = n.testBit k := (Nat.testBit_eq_decide_div_mod_eq).symm

/-- The places below `n` at which `f` holds, as a number. -/
theorem sum_twoPow_lt (f : Nat → Bool) (n : Nat) : ((List.range n).map (fun k => if f k then 2 ^ k else 0)).sum < 2 ^ n := by
  induction n with
  | zero => simp
  | succ n ih =>
    simp only [List.range_succ, List.map_append, List.sum_append, List.map_cons, List.map_nil, List.sum_singleton, Nat.pow_succ]
    split <;> omega

/-- Bit `m` of a sum of different powers of two says whether `2 ^ m` is among them. -/
theorem testBit_sum_twoPow (f : Nat → Bool) (n m : Nat) :
    ((List.range n).map (fun k => if f k then 2 ^ k else 0)).sum.testBit m = (decide (m < n) && f m) := by
  induction n with
  | zero => simp
  | succ n ih =>
    have low := sum_twoPow_lt f n
    simp only [List.range_succ, List.map_append, List.sum_append, List.map_cons, List.map_nil, List.sum_singleton]
    rcases Nat.lt_trichotomy m n with hlt | rfl | hgt
    · cases hf : f n
      · simpa [hlt, Nat.lt_succ_of_lt hlt] using ih
      · rw [if_pos rfl, Nat.add_comm, Nat.testBit_two_pow_add_gt hlt, ih]
        simp [hlt, Nat.lt_succ_of_lt hlt]
    · cases hf : f m
      · simpa [hf] using Nat.testBit_lt_two_pow low
      · rw [if_pos rfl, Nat.add_comm, Nat.testBit_two_pow_add_eq, Nat.testBit_lt_two_pow low]
        simp
    · have small : ((List.range n).map (fun k => if f k then 2 ^ k else 0)).sum + (if f n then 2 ^ n else 0) < 2 ^ m := by
        have : 2 ^ (n + 1) ≤ 2 ^ m := Nat.pow_le_pow_right (by decide) hgt
        rw [Nat.pow_succ] at this
        split <;> omega
      rw [Nat.testBit_lt_two_pow small]
      simp; omega

/-- A number below `2 ^ n` is the sum of the powers of two at its bits. -/
theorem sum_bits {t n : Nat} (ht : t < 2 ^ n) : ((List.range n).map (fun k => if bit t k then 2 ^ k else 0)).sum = t := by
  refine Nat.eq_of_testBit_eq fun m => ?_
  rw [testBit_sum_twoPow (bit t), bit_eq_testBit]
  by_cases hm : m < n
  · simp [hm]
  · have : 2 ^ n ≤ 2 ^ m := Nat.pow_le_pow_right (by decide) (by omega)
    simp [hm, Nat.testBit_lt_two_pow (by omega : t < 2 ^ m)]

/-- The sum over the elements that a test keeps. -/
theorem sum_map_filter {α : Type} (p : α → Bool) (g : α → Nat) (l : List α) :
    ((l.filter p).map g).sum = (l.map (fun a => if p a then g a else 0)).sum := by
  induction l with
  | nil => rfl
  | cons a rest ih => cases h : p a <;> simp [h, ih]

theorem mem_upFrom {n k x : Nat} : x ∈ upFrom n k ↔ n ≤ x ∧ x < n + k := by
  simp only [upFrom, List.mem_map, List.mem_range]
  exact ⟨fun ⟨a, ha, e⟩ => by omega, fun h => ⟨x - n, by omega, by omega⟩⟩

end Sys2Proof

namespace Sys2Proof.Machine

open Sys2Proof

/-! ### Actions of a unit -/

theorem Act.run_modify (f : State → State) (s : State) : (modify f : Act Unit).run s = (.ok (), f s) := rfl

/-- An action after a look at the state. -/
theorem Act.run_get_bind {α : Type} (k : State → Act α) (s : State) : ((get : Act State) >>= k).run s = (k s).run s := rfl

theorem Act.run_check {p : Bool} (hp : p = false) (code info0 : Nat) (s : State) : (Act.check p code info0).run s = (.ok (), s) := by
  subst hp; rfl

/-- A check that stands before an action lets it run where it does not hold, and stops it otherwise. -/
theorem Act.check_bind_ok {p : Bool} {code info0 : Nat} {a : Act Unit} {s t : State} :
    (Act.check p code info0 >>= fun _ => a).run s = (.ok (), t) ↔ p = false ∧ a.run s = (.ok (), t) := by
  cases p
  · rw [Act.run_bind_ok (Act.run_check rfl code info0 s)]
    simp
  · refine ⟨fun h => ?_, fun h => by simp at h⟩
    have stopped : (Act.check true code info0 >>= fun _ => a).run s = (.error (.fault code info0), s) := rfl
    rw [stopped] at h
    cases h

theorem Act.check_ok {p : Bool} {code info0 : Nat} {s : State} : (Act.check p code info0).run s = (.ok (), s) ↔ p = false := by
  cases p
  · exact iff_of_true rfl rfl
  · refine iff_of_false (fun h => ?_) (by simp)
    have stopped : (Act.check true code info0).run s = (.error (.fault code info0), s) := rfl
    rw [stopped] at h
    cases h

/-- The issue checks of a parison instruction look at the instruction alone (R591). -/
theorem parChecks_run_anywhere {e : Entry} {d : ParOp} {s : State} (h : (parChecks e d).run s = (.ok (), s)) (t : State) :
    (parChecks e d).run t = (.ok (), t) := by
  simp only [parChecks, Act.check_bind_ok, Act.check_ok] at h ⊢
  exact h

/-! ### What the parts of an instruction that are not its own work leave -/

/-- `t` has the memory, the poison, the sketch, the pots' and the parisons' own state and the parison registers of `s`. -/
structure State.ParKeeps (s t : State) : Prop where
  mem : t.mem = s.mem
  poison : t.poison = s.poison
  sketch : t.sketch = s.sketch
  pots : t.pots = s.pots
  pars : t.pars = s.pars
  rd : ∀ {f : Field}, f.blk = .par → ∀ i j, t.rd f i j = s.rd f i j

namespace State.ParKeeps

variable {s t u : State}

theorem refl (s : State) : s.ParKeeps s := ⟨rfl, rfl, rfl, rfl, rfl, fun _ _ _ => rfl⟩

theorem trans (h : s.ParKeeps t) (h' : t.ParKeeps u) : s.ParKeeps u where
  mem := h'.mem.trans h.mem
  poison := h'.poison.trans h.poison
  sketch := h'.sketch.trans h.sketch
  pots := h'.pots.trans h.pots
  pars := h'.pars.trans h.pars
  rd hf i j := (h'.rd hf i j).trans (h.rd hf i j)

theorem on (h : s.ParKeeps t) {f : Field} (hf : f.blk = .par) (i j : Nat) : t.on f i j = s.on f i j := State.on_of_rd (h.rd hf i j)

theorem parx (h : s.ParKeeps t) (gb : Nat) : t.parx gb = s.parx gb := by rw [State.parx, State.parx, h.pars]

theorem potx (h : s.ParKeeps t) (gp : Nat) : t.potx gp = s.potx gp := State.potx_of_pots h.pots gp

theorem bytes (h : s.ParKeeps t) (a n : Nat) : t.bytes a n = s.bytes a n := by simp only [State.bytes, State.byte, h.mem]

theorem sound (h : s.ParKeeps t) (gb lo n : Nat) : t.sound gb lo n = s.sound gb lo n := by
  simp only [State.sound, State.poisoned, h.poison]

/-- A write of a register of another block. -/
theorem wr (h : s.ParKeeps t) {g : Field} (hg : g.blk ≠ .par) (i v j : Nat) : s.ParKeeps (t.wr g i v j) where
  mem := h.mem
  poison := h.poison
  sketch := h.sketch
  pots := h.pots
  pars := h.pars
  rd hf i' j' := (State.rd_wr_blk t (by rw [hf]; exact hg) i v j i' j').trans (h.rd hf i' j')

theorem bump (h : s.ParKeeps t) {g : Field} (hg : g.blk ≠ .par) (i n j : Nat) : s.ParKeeps (t.bump g i n j) := h.wr hg i _ j

theorem progress (h : s.ParKeeps t) (gb : Nat) : s.ParKeeps (t.progress gb) :=
  (h.wr (g := Reg.BENCH_WAIT_STATUS_STUCK) (by decide) gb _ 0).wr (by decide) gb 0 0

end State.ParKeeps

theorem State.modEntry_keeps (s : State) (gb id : Nat) (f : Entry → Entry) : s.ParKeeps (s.modEntry gb id f) :=
  ⟨rfl, rfl, rfl, rfl, rfl, fun _ _ _ => rfl⟩

theorem State.setWait_keeps (s : State) (gb unit : Nat) (w : Option (Nat × Nat)) : s.ParKeeps (s.setWait gb unit w) :=
  ⟨rfl, rfl, rfl, rfl, rfl, fun _ _ _ => rfl⟩

theorem State.fillTags_keeps (s : State) (gb first : Nat) (v : Bool) (n : Nat) : s.ParKeeps (s.fillTags gb first v n) := by
  induction n with
  | zero => exact .refl s
  | succ n ih => exact ih.trans ⟨rfl, rfl, rfl, rfl, rfl, fun _ _ _ => rfl⟩

theorem State.setTags_keeps (s : State) (gb first : Nat) (v : Bool) (n : Nat) : s.ParKeeps (s.setTags gb first v n) := by
  rw [State.setTags]
  split
  · exact .refl s
  · exact (s.fillTags_keeps gb first v n).progress gb

theorem State.regionTags_keeps (s : State) (gb : Nat) (r : Region) : s.ParKeeps (s.regionTags gb r) := by
  rw [State.regionTags]
  repeat' split
  · exact s.setTags_keeps gb _ _ _
  · exact .refl s
  · exact s.setTags_keeps gb _ _ _
  · exact .refl s

theorem State.foldl_regionTags_keeps (s : State) (gb : Nat) (rs : List Region) :
    s.ParKeeps (rs.foldl (fun t r => t.regionTags gb r) s) := by
  induction rs generalizing s with
  | nil => exact .refl s
  | cons r rest ih => exact (s.regionTags_keeps gb r).trans (ih _)

theorem State.lostPorts_keeps (s : State) (gb : Nat) (conf : List (Nat × Nat × Nat)) : s.ParKeeps (s.lostPorts gb conf) := by
  induction conf generalizing s with
  | nil => exact .refl s
  | cons c rest ih =>
    obtain ⟨b, rd, wr⟩ := c
    exact (((((State.ParKeeps.refl s).bump (by decide) gb rd 0).bump (by decide) gb wr 0).bump (by decide) gb rd (b % 12)).bump
      (by decide) gb wr (b % 12)).trans (ih _)

/-- What the surroundings count lies in the scratchpad's registers (R247, R251). -/
theorem State.surround_keeps (s : State) (gb : Nat) (env : EngEnv) : s.ParKeeps (s.surround gb env) :=
  (((State.ParKeeps.refl s).bump (by decide) gb _ 0).bump (by decide) gb _ 0).trans (State.lostPorts_keeps _ gb _)

theorem State.lostPorts_frame (s : State) (gb : Nat) (conf : List (Nat × Nat × Nat)) :
    (s.lostPorts gb conf).seqs = s.seqs ∧ (s.lostPorts gb conf).tags = s.tags := by
  induction conf generalizing s with
  | nil => exact ⟨rfl, rfl⟩
  | cons c rest ih => exact ih _

@[simp] theorem State.surround_seqs (s : State) (gb : Nat) (env : EngEnv) : (s.surround gb env).seqs = s.seqs :=
  (State.lostPorts_frame _ gb env.conf).1
@[simp] theorem State.surround_tags (s : State) (gb : Nat) (env : EngEnv) : (s.surround gb env).tags = s.tags :=
  (State.lostPorts_frame _ gb env.conf).2

/-! ### The run of an instruction (R265) -/

theorem State.finished_keeps (s : State) (gb unit : Nat) (e : Entry) : s.ParKeeps (s.finished gb unit e) :=
  ((s.modEntry_keeps gb e.id _).trans (State.setWait_keeps _ gb unit none)).progress gb

theorem State.finished_completed (s : State) (gb unit : Nat) (e : Entry) : (s.finished gb unit e).completed gb e := by
  have window : ((s.finished gb unit e).seq gb).window =
      (s.seq gb).window.map (fun x => if x.id = e.id then { x with phase := .done } else x) := by
    calc ((s.finished gb unit e).seq gb).window
        = ((s.modEntry gb e.id (fun x => { x with phase := .done })).seq gb).window := rfl
      _ = _ := by rw [State.modEntry, State.seq_setSeq, Seq.modEntry]
  intro x hx hid
  rw [window] at hx
  obtain ⟨y, -, rfl⟩ := List.mem_map.1 hx
  by_cases hy : y.id = e.id
  · rw [if_pos hy]
  · rw [if_neg hy] at hid
    exact absurd hid hy

/-- The instruction that a unit is to run ends where its work does. -/
theorem State.runUnit_of_executes {s t : State} {gb unit : Nat} {e : Entry} {sel : Entry → Bool} {body : Entry → Act Unit}
    (h : s.executes gb unit e = true) (hsel : sel e = true) (hrun : (body e).run s = (.ok (), t)) :
    s.runUnit gb unit sel body = t.finished gb unit e := by
  simp only [State.executes, Bool.and_eq_true, beq_iff_eq, Bool.not_eq_true'] at h
  obtain ⟨⟨⟨-, hcur⟩, hheld⟩, hclock⟩ := h
  have ran : (body e >>= fun _ => pure true).run s = (.ok true, t) := Act.run_bind_ok hrun
  simp only [State.runUnit, hcur, hheld, hclock, hsel, Bool.or_self, Bool.not_true, Bool.false_eq_true, if_false, State.runEntry, ran,
    State.finished]

/-- A bench's command answers where the device has the bench. -/
theorem okIf_bench {gb : Nat} (hgb : gb < 2560) (t : State) : okIf (decide (gb < 2560)) t = .next t := okIf_next _ t (by simpa using hgb)

theorem State.current_of_executes {s : State} {gb unit : Nat} {e : Entry} (h : s.executes gb unit e = true) :
    gb < 2560 ∧ s.current gb unit = some e ∧ s.clockStopped gb = false := by
  simp only [State.executes, Bool.and_eq_true, beq_iff_eq, decide_eq_true_eq, Bool.not_eq_true'] at h
  obtain ⟨⟨⟨hgb, hcur⟩, -⟩, hclock⟩ := h
  exact ⟨hgb, hcur, hclock⟩

/-- A command that runs an executing instruction to its end answers the state with the instruction complete. -/
theorem runUnit_next {s t : State} {gb unit : Nat} {e : Entry} {sel : Entry → Bool} {body : Entry → Act Unit}
    (h : s.executes gb unit e = true) (hsel : sel e = true) (hrun : (body e).run s = (.ok (), t)) :
    okIf (decide (gb < 2560)) (s.runUnit gb unit sel body) = .next (t.finished gb unit e) := by
  rw [State.runUnit_of_executes h hsel hrun]
  exact okIf_bench (State.current_of_executes h).1 _

/-- The entry of an executing instruction is found in the window as it was. -/
theorem entryNow_run {s t : State} {gb : Nat} {e : Entry} (h : s.current gb (unitOf e.word) = some e) (ht : t.seqs = s.seqs) :
    (entryNow gb e).run t = (.ok e, t) := by
  have found : (t.seq gb).window.find? (fun x => x.id == e.id && x.phase == .issued && unitOf x.word == unitOf e.word) = some e := by
    obtain ⟨hold, hiss⟩ := Option.filter_eq_some_iff.1 h
    obtain ⟨hp, before, after, hwin, hbefore⟩ := List.find?_eq_some_iff_append.1 hold
    rw [State.seq, ht]
    refine List.find?_eq_some_iff_append.2 ⟨by simpa using hiss, before, after, hwin, fun x hx => ?_⟩
    by_cases hunit : unitOf x.word = unitOf e.word
    · have ended : x.phase = .done := Decidable.byContradiction fun hne => by
        have earlier := hbefore x hx
        simp [hunit, hne] at earlier
      simp [ended]
    · simp [hunit]
  rw [entryNow, Act.run_get_bind, found]
  rfl

theorem Entry.clean_iff {e : Entry} : e.clean = true ↔ e.frontRange = false ∧ e.bad = none ∧ tagReserved e.word = false ∧ e.stage = 0 ∧
    e.kept = [] ∧ e.outs = [] ∧ e.asked = 0 ∧ e.lost = [] := by
  simp [Entry.clean, and_assoc]

/-- The front checks of a clean instruction pass, and its surroundings are counted (R591). -/
theorem frontChecks_run {e : Entry} (h : e.clean = true) (gb : Nat) (env : EngEnv) (range : Nat) (s : State) :
    (frontChecks gb env e range).run s = (.ok (), s.surround gb env) := by
  obtain ⟨hfront, hbad, htag, -⟩ := Entry.clean_iff.1 h
  simp only [frontChecks, hfront, hbad, htag, Bool.and_false]
  rfl

/-- The state with the number of complete steps of an executing instruction recorded. -/
def State.staged (s : State) (gb : Nat) (e : Entry) (k : Nat) : State := s.modEntry gb e.id (fun x => { x with stage := k })

theorem State.staged_keeps (s : State) (gb : Nat) (e : Entry) (k : Nat) : s.ParKeeps (s.staged gb e k) := s.modEntry_keeps gb e.id _

theorem inSteps_cons {gb k : Nat} {e : Entry} {a : Act Unit} {s t : State} (h : a.run s = (.ok (), t)) (rest : List (Act Unit)) :
    (inSteps gb e k (a :: rest)).run s = (inSteps gb e (k + 1) rest).run (t.staged gb e (k + 1)) := by
  rw [inSteps, Act.run_bind_ok h]
  rfl

/-- Steps each of which leads from `P` of its number to `P` of the next lead from `P` of the first number to `P` of the last. -/
theorem inSteps_run {gb : Nat} {e : Entry} (P : Nat → State → Prop) (steps : List (Act Unit)) {k : Nat} {s : State} (h0 : P k s)
    (hstep : ∀ i (hi : i < steps.length) u, P (k + i) u →
      ∃ v, steps[i].run u = (.ok (), v) ∧ P (k + i + 1) (v.staged gb e (k + i + 1))) :
    ∃ t, (inSteps gb e k steps).run s = (.ok (), t) ∧ P (k + steps.length) t := by
  induction steps generalizing k s with
  | nil => exact ⟨s, rfl, h0⟩
  | cons a rest ih =>
    obtain ⟨v, hv, hP⟩ := hstep 0 (by simp) s h0
    have later : ∀ i, k + (i + 1) = k + 1 + i := fun i => by omega
    obtain ⟨t, ht, hPt⟩ := ih hP (fun i hi u hu => by
      have := hstep (i + 1) (by simpa using hi) u (by rwa [later])
      rwa [later] at this)
    exact ⟨t, (inSteps_cons hv rest).trans ht, by rwa [List.length_cons, later]⟩

/-- All steps of an instruction that has not begun. -/
theorem goOn_run {s t u : State} {gb : Nat} {e : Entry} {steps : List (Act Unit)} (h : s.current gb (unitOf e.word) = some e)
    (ht : t.seqs = s.seqs) (hstage : e.stage = 0) (hrun : (inSteps gb e 0 steps).run t = (.ok (), u)) :
    (goOn gb e 0 steps).run t = (.ok (), u) := by
  rw [goOn, Act.run_bind_ok (entryNow_run h ht), hstage]
  exact hrun

/-! ### Slots and their tags (R249, R250) -/

theorem Region.mem_slots {r : Region} {k : Nat} :
    k ∈ r.slots ↔ r.len ≠ 0 ∧ r.lo / 1024 ≤ k ∧ k ≤ (r.lo + r.len - 1) / 1024 := by
  rw [Region.slots, mem_upFrom, Region.first, Region.count]
  split <;> omega

/-- One slot of a region, as a region of its own. -/
def Region.slot (r : Region) (k : Nat) : Region := { r with lo := 1024 * k, len := 1 }

@[simp] theorem Region.slots_slot (r : Region) (k : Nat) : (r.slot k).slots = [k] := by
  have first : (r.slot k).first = k := by simp [Region.slot, Region.first]
  have count : (r.slot k).count = 1 := by
    simp only [Region.slot, Region.count, Nat.one_ne_zero, if_false]
    omega
  simp [Region.slots, first, count, upFrom]

theorem State.tagBlocks_none {s : State} {gb : Nat} {full : Bool} {slots : List Nat} :
    s.tagBlocks gb full slots = none ↔ ∀ k ∈ slots, s.tag gb k = full := by
  simp [State.tagBlocks]

/-- A region lets its instruction start where the tags that its action waits for stand (R249, R250). -/
theorem State.regionWait_none {s : State} {gb : Nat} {r : Region} : s.regionWait gb r = none ↔
    (r.wr = true → r.act = 1 → ∀ k ∈ r.slots, s.tag gb k = false) ∧
    (r.wr = false → r.act = 1 ∨ r.act = 2 → ∀ k ∈ r.slots, s.tag gb k = true) := by
  rw [State.regionWait]
  split
  next hw => split <;> simp_all [State.tagBlocks_none]
  next hw => split <;> simp_all [State.tagBlocks_none]

/-- Where a region may start, so may each slot whose tag still is the same. -/
theorem State.regionWait_slot {s t : State} {gb k : Nat} {r : Region} (h : s.regionWait gb r = none) (hk : k ∈ r.slots)
    (ht : t.tag gb k = s.tag gb k) : t.regionWait gb (r.slot k) = none := by
  obtain ⟨hout, hin⟩ := State.regionWait_none.1 h
  refine State.regionWait_none.2 ⟨fun hw ha j hj => ?_, fun hw ha j hj => ?_⟩
  · obtain rfl : j = k := by simpa using hj
    exact ht.trans (hout hw ha j hk)
  · obtain rfl : j = k := by simpa using hj
    exact ht.trans (hin hw ha j hk)

theorem State.lets_iff {s : State} {gb : Nat} {rs : List Region} :
    s.lets gb rs = true ↔ ∀ r ∈ rs, r.past = false ∧ s.regionWait gb r = none := by
  simp [State.lets]

theorem State.regionWait_of_tags {s t : State} (h : t.tags = s.tags) (gb : Nat) (r : Region) :
    t.regionWait gb r = s.regionWait gb r := by
  simp only [State.regionWait, State.tagBlocks, State.tag, h]

/-- A region may start where one that covers its slots may. -/
theorem State.regionWait_within {s : State} {gb : Nat} {r big : Region} (h : s.regionWait gb big = none) (hwr : r.wr = big.wr)
    (hact : r.act = big.act) (hslots : ∀ k ∈ r.slots, k ∈ big.slots) : s.regionWait gb r = none := by
  obtain ⟨hout, hin⟩ := State.regionWait_none.1 h
  rw [State.regionWait_none, hwr, hact]
  exact ⟨fun hw ha k hk => hout hw ha k (hslots k hk), fun hw ha k hk => hin hw ha k (hslots k hk)⟩

theorem mem_tagged {rs : List Region} {x : Region} : x ∈ tagged rs ↔ ∃ r ∈ rs, r.act ≠ 0 ∧ ∃ k ∈ r.slots, x = r.slot k := by
  simp only [tagged, List.mem_flatMap, List.mem_filter, List.mem_map, bne_iff_ne, Region.slot, and_assoc, eq_comm (a := x)]

/-- A slot that an access is the first or the last to touch. -/
theorem mem_freshSlots {now other : List Region} {x : Region} :
    x ∈ freshSlots now other ↔ x ∈ tagged now ∧ ∀ o ∈ tagged other, o.wr ≠ x.wr ∨ o.lo ≠ x.lo := by
  simp [freshSlots]

/-- The new slots of regions that might start in `s` may be used in `t`, which has their tags of `s`. -/
theorem State.freshSlots_free {s t : State} {gb : Nat} {now prior : List Region} (hs : ∀ r ∈ now, s.regionWait gb r = none)
    (ht : ∀ r ∈ now, ∀ k, r.slot k ∈ freshSlots now prior → t.tag gb k = s.tag gb k) :
    ∀ x ∈ freshSlots now prior, t.regionWait gb x = none := by
  intro x hx
  obtain ⟨r, hr, -, k, hk, rfl⟩ := mem_tagged.1 (mem_freshSlots.1 hx).1
  exact State.regionWait_slot (hs r hr) hk (ht r hr k hx)

theorem State.tag_fillTags (s : State) (gb : Nat) {first n k : Nat} (v : Bool) (hk : k < first ∨ first + n ≤ k) :
    (s.fillTags gb first v n).tag gb k = s.tag gb k := by
  induction n with
  | zero => rfl
  | succ n ih =>
    rw [State.fillTags, State.tag, State.setTag, SMap.get_put_other _ _ _ _ _ (by omega)]
    exact ih (by omega)

theorem State.tag_setTags (s : State) (gb : Nat) {first n k : Nat} (v : Bool) (hk : k < first ∨ first + n ≤ k) :
    (s.setTags gb first v n).tag gb k = s.tag gb k := by
  rw [State.setTags]
  split
  · rfl
  · exact s.tag_fillTags gb v hk

theorem State.tag_regionTags (s : State) (gb : Nat) {r : Region} {k : Nat} (hk : k ∉ r.slots) :
    (s.regionTags gb r).tag gb k = s.tag gb k := by
  have out : k < r.first ∨ r.first + r.count ≤ k := by
    rw [Region.slots, mem_upFrom] at hk
    omega
  rw [State.regionTags]
  repeat' split
  · exact s.tag_setTags gb _ out
  · rfl
  · exact s.tag_setTags gb _ out
  · rfl

theorem State.tag_foldl_regionTags (s : State) (gb : Nat) {rs : List Region} {k : Nat} (hk : ∀ r ∈ rs, k ∉ r.slots) :
    (rs.foldl (fun t r => t.regionTags gb r) s).tag gb k = s.tag gb k := by
  induction rs generalizing s with
  | nil => rfl
  | cons r rest ih =>
    exact (ih _ (fun x hx => hk x (List.mem_cons_of_mem _ hx))).trans (s.tag_regionTags gb (hk r List.mem_cons_self))

/-- The state after the tag actions of access `k` of an instruction (R252). -/
def State.pacedTags (s : State) (gb : Nat) (plan : List (List Region)) (k : Nat) : State :=
  (freshSlots (plan.getD k []) (plan.drop (k + 1)).flatten).foldl (fun t r => t.regionTags gb r) s

theorem State.pacedTags_keeps (s : State) (gb : Nat) (plan : List (List Region)) (k : Nat) : s.ParKeeps (s.pacedTags gb plan k) :=
  s.foldl_regionTags_keeps gb _

/-- An access changes the tags of its own slots alone. -/
theorem State.tag_pacedTags (s : State) (gb : Nat) {plan : List (List Region)} {k q : Nat} (hq : ∀ r ∈ plan.getD k [], q ∉ r.slots) :
    (s.pacedTags gb plan k).tag gb q = s.tag gb q := by
  refine s.tag_foldl_regionTags gb (fun x hx => ?_)
  obtain ⟨r, hr, -, j, hj, rfl⟩ := mem_tagged.1 (mem_freshSlots.1 hx).1
  rw [Region.slots_slot, List.mem_singleton]
  rintro rfl
  exact hq r hr hj

/-- An access whose new slots let it start. -/
theorem paced_run {gb k : Nat} {plan : List (List Region)} {a : Act Unit} {s t : State}
    (hfree : ∀ r ∈ freshSlots (plan.getD k []) (plan.take k).flatten, s.regionWait gb r = none) (hrun : a.run s = (.ok (), t)) :
    (paced gb plan k a).run s = (.ok (), t.pacedTags gb plan k) := by
  rw [paced, Act.run_bind_ok (awaitTags_free gb _ s (List.findSome?_eq_none_iff.2 hfree)), Act.run_bind_ok hrun]
  rfl

/-! ### Reads of the scratchpad -/

theorem quietEnv_ecc {env : EngEnv} (h : quietEnv env = true) : env.ecc = [] := by
  simp only [quietEnv, Bool.and_eq_true, List.isEmpty_iff] at h
  obtain ⟨⟨⟨⟨⟨⟨hecc, -⟩, -⟩, -⟩, -⟩, -⟩, -⟩ := h
  exact hecc

theorem mem_granules {lo len g : Nat} : g ∈ granules lo len ↔ len ≠ 0 ∧ lo / 32 ≤ g ∧ g ≤ (lo + len - 1) / 32 := by
  rw [granules]
  split
  · simp_all
  · rw [mem_upFrom]
    omega

/-- A part of a stretch without poison holds none. -/
theorem State.sound_part {s : State} {gb lo len lo' len' : Nat} (h : s.sound gb lo len = true) (hlo : lo ≤ lo')
    (hhi : lo' + len' ≤ lo + len) : s.sound gb lo' len' = true := by
  simp only [State.sound, List.all_eq_true] at h ⊢
  intro g hg
  rw [mem_granules] at hg
  exact h g (mem_granules.2 (by omega))

/-- A granule without poison, read without an error, changes nothing. -/
theorem readGranule_run {s : State} {gb g : Nat} {env : EngEnv} (hecc : env.ecc = []) (h : s.poisoned gb g = false) :
    (readGranule gb env g).run s = (.ok (), s) := by
  rw [readGranule, Act.run_get_bind, h, hecc]
  rfl

theorem spadRead_run {s : State} {gb lo len : Nat} {env : EngEnv} (hecc : env.ecc = []) (h : s.sound gb lo len = true) :
    (spadRead gb env lo len).run s = (.ok (s.bytes (spadBase gb + lo) len), s) := by
  have each : ∀ gs : List Nat, (∀ g ∈ gs, s.poisoned gb g = false) → (gs.forM (readGranule gb env)).run s = (.ok (), s) := by
    intro gs
    induction gs with
    | nil => exact fun _ => rfl
    | cons g rest ih =>
      intro hgs
      have split : (g :: rest).forM (readGranule gb env) = readGranule gb env g >>= fun _ => rest.forM (readGranule gb env) := rfl
      rw [split, Act.run_bind_ok (readGranule_run hecc (hgs g List.mem_cons_self))]
      exact ih (fun x hx => hgs x (List.mem_cons_of_mem _ hx))
  rw [spadRead, Act.run_bind_ok (each _ (by simpa [State.sound] using h))]
  rfl

/-! ### A parison's own state -/

@[simp] theorem State.parx_setParx (s : State) (gb : Nat) (x : ParX) : (s.setParx gb x).parx gb = x := SMap.get_put_same _ _ _ _
@[simp] theorem State.parx_wr (s : State) (f : Field) (i v j gb : Nat) : (s.wr f i v j).parx gb = s.parx gb := rfl
@[simp] theorem State.parx_bump (s : State) (f : Field) (i n j gb : Nat) : (s.bump f i n j).parx gb = s.parx gb := rfl
@[simp] theorem State.rd_setParx (s : State) (gb : Nat) (x : ParX) (f : Field) (i j : Nat) :
    (s.setParx gb x).rd f i j = s.rd f i j := rfl

/-! ### Delivery of a mask record (R162) -/

theorem potIx_injective (gb : Nat) : Function.Injective (potIx gb) := fun p q h => by simpa [potIx] using h

/-- The state with a record copied into the mask slots of a list of a bench's pots. -/
def State.fillMasks (s : State) (gb : Nat) (r : MaskRec) (ps : List Nat) : State :=
  ps.foldl (fun s p => s.setPotx (potIx gb p) { s.potx (potIx gb p) with mask := some r }) s

/-- The targets of a record whose mask slots are empty. -/
def State.openTargets (s : State) (gb t : Nat) : List Nat :=
  (List.range 16).filter (fun p => bit t p && (s.potx (potIx gb p)).mask.isNone)

theorem State.mem_openTargets {s : State} {gb t p : Nat} :
    p ∈ s.openTargets gb t ↔ p < 16 ∧ bit t p = true ∧ (s.potx (potIx gb p)).mask = none := by
  simp [State.openTargets]

theorem State.deliver_eq {s : State} {gb t : Nat} {r : MaskRec} (h : (s.parx gb).record = some (r, t)) :
    s.deliver gb = (s.fillMasks gb r (s.openTargets gb t)).setParx gb
      { (s.fillMasks gb r (s.openTargets gb t)).parx gb with
        record := if t - ((s.openTargets gb t).map (fun p => 2 ^ p)).sum = 0 then none
          else some (r, t - ((s.openTargets gb t).map (fun p => 2 ^ p)).sum) } := by
  rw [State.deliver, h]
  rfl

theorem State.fillMasks_frame (s : State) (gb : Nat) (r : MaskRec) (ps : List Nat) :
    (s.fillMasks gb r ps).mem = s.mem ∧ (s.fillMasks gb r ps).regs = s.regs := by
  induction ps generalizing s with
  | nil => exact ⟨rfl, rfl⟩
  | cons p rest ih => exact ih _

theorem State.potx_fillMasks_other (s : State) {gb p : Nat} (r : MaskRec) {ps : List Nat} (hp : p ∉ ps) :
    (s.fillMasks gb r ps).potx (potIx gb p) = s.potx (potIx gb p) := by
  induction ps generalizing s with
  | nil => rfl
  | cons q rest ih =>
    obtain ⟨hq, hrest⟩ := not_or.1 (fun h => hp (List.mem_cons.2 h))
    exact (ih _ hrest).trans (State.potx_setPotx_other s (fun e => hq (potIx_injective gb e).symm) _)

theorem State.mask_fillMasks (s : State) {gb p : Nat} (r : MaskRec) {ps : List Nat}
    (h : p ∈ ps ∨ (s.potx (potIx gb p)).mask = some r) : ((s.fillMasks gb r ps).potx (potIx gb p)).mask = some r := by
  induction ps generalizing s with
  | nil => exact h.resolve_left List.not_mem_nil
  | cons q rest ih =>
    refine ih _ ?_
    by_cases hq : q = p
    · subst hq
      exact .inr (by rw [State.potx_setPotx_same])
    · rw [State.potx_setPotx_other s (fun e => hq (potIx_injective gb e))]
      exact h.imp_left (fun hm => (List.mem_cons.1 hm).resolve_left (Ne.symm hq))

theorem State.deliver_frame (s : State) (gb : Nat) : (s.deliver gb).mem = s.mem ∧ (s.deliver gb).regs = s.regs := by
  cases h : (s.parx gb).record with
  | none => simp [State.deliver, h]
  | some rt =>
    obtain ⟨r, t⟩ := rt
    rw [State.deliver_eq h]
    exact s.fillMasks_frame gb r _

section
variable {s : State} {gb t : Nat} {r : MaskRec} (h : (s.parx gb).record = some (r, t))
include h

/-- Each target with an empty slot takes the record. -/
theorem State.deliver_mask {p : Nat} (hp : p < 16) (ht : bit t p = true) (hm : (s.potx (potIx gb p)).mask = none) :
    ((s.deliver gb).potx (potIx gb p)).mask = some r := by
  rw [State.deliver_eq h]
  exact s.mask_fillMasks r (.inl (State.mem_openTargets.2 ⟨hp, ht, hm⟩))

theorem State.deliver_potx_other {p : Nat} (ht : bit t p = false) : (s.deliver gb).potx (potIx gb p) = s.potx (potIx gb p) := by
  rw [State.deliver_eq h]
  exact s.potx_fillMasks_other r (fun hp => by simp [State.mem_openTargets, ht] at hp)

/-- Where every target takes the record, none waits for it any more. -/
theorem State.deliver_ends (ht : t < 65536) (hm : ∀ p, p < 16 → bit t p = true → (s.potx (potIx gb p)).mask = none) :
    ((s.deliver gb).parx gb).record = none := by
  have all : s.openTargets gb t = (List.range 16).filter (bit t) := by
    refine List.filter_congr (fun p hp => ?_)
    have free := hm p (List.mem_range.1 hp)
    cases hb : bit t p <;> simp_all
  have sum : ((s.openTargets gb t).map (fun p => 2 ^ p)).sum = t := by
    rw [all, sum_map_filter]
    exact sum_bits ht
  rw [State.deliver_eq h, State.parx_setParx, sum, Nat.sub_self]
  rfl

end

/-- Settles O28: the delivery target by target, the triggers from their thresholds. -/
theorem parisonEventsAndDelivery : Obligations.ParisonEventsAndDelivery := by
  intro s gb hgb
  refine ⟨fun r tgt hr hclock => ⟨s.deliver gb, ?_, (s.deliver_frame gb).1, (s.deliver_frame gb).2,
      fun p hp => State.deliver_mask hr hp, fun p _ => State.deliver_potx_other hr, State.deliver_ends hr⟩,
    ⟨s.calDue gb, okIf_bench hgb _, ?_, rfl, rfl⟩, fun ms hage => ?_, fun temp hfar => ⟨s.calDue gb, ?_, ?_, rfl⟩, fun temp hnear => ?_⟩
  · calc exec (.maskRecordDelivery gb) s = okIf (decide (gb < 2560)) (if s.clockStopped gb then s else s.deliver gb) := rfl
      _ = _ := by rw [hclock]; exact okIf_bench hgb _
  · simp [State.calDue]
  · let u := (s.setParx gb { s.parx gb with calAge := (s.parx gb).calAge + ms }).bump Reg.PAR_CAL_INFO_AGE gb ms
    have due : 10 * max 10 (u.rd Reg.PAR_CFG_CAL_PERIOD gb) ≤ (u.parx gb).calAge := by
      rw [State.rd_bump_field _ (by decide)]
      simpa [u] using hage
    refine ⟨u.calDue gb, ?_, by simp [State.calDue], by simp [State.calDue, u]⟩
    calc exec (.calAgeTrigger gb ms) s = okIf (decide (gb < 2560))
          (if 10 * max 10 (u.rd Reg.PAR_CFG_CAL_PERIOD gb) ≤ (u.parx gb).calAge then u.calDue gb else u) := rfl
      _ = _ := by rw [if_pos due]; exact okIf_bench hgb _
  · exact (okIf_bench hgb _).trans (by rw [if_pos hfar])
  · simp [State.calDue]
  · exact (okIf_bench hgb _).trans (by rw [if_neg (by omega)])

/-! ### The commit of a calibration (R164 to R167) -/

/-- The committed trims of the first `n` pairs, with their bad marks. -/
def State.commitTrims (s : State) (gb : Nat) (a : CalAttempt) (n : Nat) : State :=
  (List.range n).foldl (fun s m =>
    (s.wr Reg.PAR_TRIM_TRIM gb (pattern 6 (a.trims.getD m 0)) m).flag Reg.PAR_TRIM_BAD gb (badPair a m) m) s

theorem State.commitTrims_succ (s : State) (gb : Nat) (a : CalAttempt) (n : Nat) :
    s.commitTrims gb a (n + 1) = ((s.commitTrims gb a n).wr Reg.PAR_TRIM_TRIM gb (pattern 6 (a.trims.getD n 0)) n).flag
      Reg.PAR_TRIM_BAD gb (badPair a n) n := by
  simp [State.commitTrims, List.range_succ]

theorem State.commitTrims_frame (s : State) (gb : Nat) (a : CalAttempt) (n : Nat) :
    (s.commitTrims gb a n).mem = s.mem ∧ (s.commitTrims gb a n).pars = s.pars := by
  induction n with
  | zero => exact ⟨rfl, rfl⟩
  | succ n ih =>
    rw [State.commitTrims_succ]
    exact ih

theorem State.commitTrims_rd_other (s : State) (gb : Nat) (a : CalAttempt) (n : Nat) {f : Field}
    (htrim : Reg.PAR_TRIM_TRIM.base ≠ f.base) (hbad : Reg.PAR_TRIM_BAD.base ≠ f.base) (i j : Nat) :
    (s.commitTrims gb a n).rd f i j = s.rd f i j := by
  induction n with
  | zero => rfl
  | succ n ih => rw [State.commitTrims_succ, State.rd_flag_field _ hbad, State.rd_wr_field _ _ _ _ _ _ _ _ htrim, ih]

theorem pattern_lt (w : Nat) (x : Int) : pattern w x < 2 ^ w := by
  have hpos : (0 : Int) < (2 ^ w : Nat) := by exact_mod_cast Nat.two_pow_pos w
  have hlo := Int.emod_nonneg x (Int.ne_of_gt hpos)
  have hhi := Int.emod_lt_of_pos x hpos
  rw [pattern]
  omega

theorem State.commitTrims_trim (s : State) (gb : Nat) (a : CalAttempt) {n m : Nat} (hn : n ≤ 266) (hm : m < n) :
    (s.commitTrims gb a n).rd Reg.PAR_TRIM_TRIM gb m = pattern 6 (a.trims.getD m 0) := by
  induction n with
  | zero => omega
  | succ n ih =>
    rw [State.commitTrims_succ, State.rd_flag_field _ (by decide)]
    by_cases h : m = n
    · subst h
      rw [State.rd_wr_same]
      exact Nat.mod_eq_of_lt (pattern_lt 6 _)
    · rw [State.rd_wr_other _ _ _ _ _ _ _ _ (Field.key_ne_entry _ _ _ _ _ _ (by omega))]
      exact ih (by omega) (by omega)

/-- Mask bit `m` comes from a data pair or a redundant one, never from a reference pair (R166). -/
theorem State.pairOf_lt (s : State) (gb : Nat) {m : Nat} (hm : m < 256) : s.pairOf gb m < 264 := by
  rw [State.pairOf]
  split
  next r hr =>
    have := List.mem_range.1 (List.mem_of_find?_eq_some hr)
    omega
  · omega

/-- The state with committed trims valid and fresh, the temperature latched and the commit counted (R164). -/
def State.sealCal (s : State) (gb temp result : Nat) : State :=
  (((((s.flag Reg.PAR_STATUS_CAL_VALID gb true).flag Reg.PAR_STATUS_CAL_STALE gb false).wr Reg.PAR_CAL_INFO_TEMP gb temp).wr
    Reg.PAR_CAL_INFO_AGE gb 0).wr Reg.PAR_CAL_INFO_RESULT gb result).bump Reg.PAR_CAL_CNT_COMMITTED gb

@[simp] theorem State.sealCal_mem (s : State) (gb temp result : Nat) : (s.sealCal gb temp result).mem = s.mem := by
  simp [State.sealCal, State.bump]
@[simp] theorem State.sealCal_pars (s : State) (gb temp result : Nat) : (s.sealCal gb temp result).pars = s.pars := by
  simp [State.sealCal, State.bump]

/-- A commit without bad pairs remaps no pair and makes none dead. -/
theorem State.commitCal_of_good (s : State) (gb : Nat) {a : CalAttempt} (hbad : ∀ m, m < 266 → badPair a m = false) (temp result : Nat) :
    s.commitCal gb a temp result = (s.commitTrims gb a 266).sealCal gb temp result := by
  have none_bad : ∀ t : State, (List.range 256).filter (fun m => !(t.parx gb).dead.contains m && badPair a (t.pairOf gb m)) = [] :=
    fun t => List.filter_eq_nil_iff.2 (fun m hm => by
      simp [hbad _ (Nat.lt_trans (t.pairOf_lt gb (List.mem_range.1 hm)) (by decide))])
  rw [State.commitCal]
  simp only [none_bad]
  rfl

/-- Whether an attempt is suspect rests on the trims committed before and on their being valid (R165). -/
theorem State.suspectCal_of_rd {s t : State} {gb : Nat} (hv : t.on Reg.PAR_STATUS_CAL_VALID gb = s.on Reg.PAR_STATUS_CAL_VALID gb)
    (ht : ∀ m, t.rd Reg.PAR_TRIM_TRIM gb m = s.rd Reg.PAR_TRIM_TRIM gb m) (a : CalAttempt) :
    t.suspectCal gb a = s.suspectCal gb a := by
  have trims : t.trim gb = s.trim gb := funext (fun m => by rw [State.trim, State.trim, ht])
  rw [State.suspectCal, State.suspectCal, hv, trims]

/-- In `t` the trims of attempt `a` are committed, valid and not stale, two settle comparisons and no calibration are due, and the
temperature is latched (R157, R164, R169). -/
structure State.Calibrated (t : State) (gb : Nat) (a : CalAttempt) (temp : Nat) : Prop where
  valid : t.on Reg.PAR_STATUS_CAL_VALID gb = true
  fresh : t.on Reg.PAR_STATUS_CAL_STALE gb = false
  settle : t.rd Reg.PAR_STATUS_SETTLE_LEFT gb = 2
  latched : t.rd Reg.PAR_CAL_INFO_TEMP gb = temp % 2 ^ Reg.PAR_CAL_INFO_TEMP.w
  notDue : (t.parx gb).calDue = false
  trims : ∀ m, m < 266 → t.rd Reg.PAR_TRIM_TRIM gb m = pattern 6 (a.trims.getD m 0)

theorem State.Calibrated.of_keeps {t u : State} {gb : Nat} {a : CalAttempt} {temp : Nat} (h : t.Calibrated gb a temp)
    (hk : t.ParKeeps u) : u.Calibrated gb a temp where
  valid := (hk.on rfl ..).trans h.valid
  fresh := (hk.on rfl ..).trans h.fresh
  settle := (hk.rd rfl ..).trans h.settle
  latched := (hk.rd rfl ..).trans h.latched
  notDue := by rw [hk.parx, h.notDue]
  trims m hm := (hk.rd rfl ..).trans (h.trims m hm)

/-- Trims sealed, with the settle period and the due mark of the calibration standing already. -/
theorem State.sealCal_calibrated {s : State} {gb : Nat} {a : CalAttempt}
    (htrims : ∀ m, m < 266 → s.rd Reg.PAR_TRIM_TRIM gb m = pattern 6 (a.trims.getD m 0))
    (hsettle : s.rd Reg.PAR_STATUS_SETTLE_LEFT gb = 2) (hdue : (s.parx gb).calDue = false) (temp result : Nat) :
    (s.sealCal gb temp result).Calibrated gb a temp where
  valid := by
    simp (disch := decide) [State.sealCal, State.on, State.rd_bump_field, State.rd_wr_field, State.flag,
      Reg.PAR_STATUS_CAL_VALID]
  fresh := by simp (disch := decide) [State.sealCal, State.on, State.rd_bump_field, State.rd_wr_field, State.flag]
  settle := by
    simp (disch := decide) only [State.sealCal, State.rd_bump_field, State.rd_wr_field, State.rd_flag_field, hsettle]
  latched := by simp (disch := decide) only [State.sealCal, State.rd_bump_field, State.rd_wr_field, State.rd_wr_same]
  notDue := by rw [State.parx, State.sealCal_pars, ← State.parx, hdue]
  trims m hm := by
    simp (disch := decide) only [State.sealCal, State.rd_bump_field, State.rd_wr_field, State.rd_flag_field]
    exact htrims m hm

/-- A commit without bad pairs ends a calibration. -/
theorem State.commitCal_calibrated {s : State} {gb : Nat} {a : CalAttempt} (hbad : ∀ m, m < 266 → badPair a m = false)
    (hsettle : s.rd Reg.PAR_STATUS_SETTLE_LEFT gb = 2) (hdue : (s.parx gb).calDue = false) (temp result : Nat) :
    (s.commitCal gb a temp result).Calibrated gb a temp ∧ (s.commitCal gb a temp result).mem = s.mem := by
  obtain ⟨hmem, hpars⟩ := s.commitTrims_frame gb a 266
  have settle := (s.commitTrims_rd_other gb a 266 (by decide) (by decide) gb 0).trans hsettle
  have due : ((s.commitTrims gb a 266).parx gb).calDue = false := by rw [State.parx, hpars, ← State.parx, hdue]
  have committed := s.commitCal_of_good gb hbad temp result
  rw [committed]
  exact ⟨State.sealCal_calibrated (fun m hm => s.commitTrims_trim gb a (Nat.le_refl _) hm) settle due temp result,
    (State.sealCal_mem ..).trans hmem⟩

/-- A calibration whose first attempt is unsuspect and finds no bad pair commits it. -/
theorem State.calibrate_commits {s : State} {gb : Nat} {c : CalEnv} (hsus : s.suspectCal gb c.attempt1 = false)
    (hbad : ∀ m, m < 266 → badPair c.attempt1 m = false) :
    (s.calibrate gb c).Calibrated gb c.attempt1 c.temp ∧ (s.calibrate gb c).mem = s.mem := by
  let x : ParX := { s.parx gb with
    calDue := false, calAge := 0
    notCalSaid := (s.parx gb).notCalSaid && (s.on Reg.PAR_STATUS_CAL_VALID gb, s.on Reg.PAR_STATUS_CAL_STALE gb) != (true, false) }
  let u := (s.setParx gb x).wr Reg.PAR_STATUS_SETTLE_LEFT gb 2
  have kept : ∀ f : Field, Reg.PAR_STATUS_SETTLE_LEFT.base ≠ f.base → ∀ i j, u.rd f i j = s.rd f i j :=
    fun f hf i j => State.rd_wr_field _ _ _ _ _ _ _ _ hf
  have unsuspect : u.suspectCal gb c.attempt1 = false :=
    (State.suspectCal_of_rd (State.on_of_rd (kept _ (by decide) _ _)) (fun m => kept _ (by decide) gb m) _).trans hsus
  have commit : s.calibrate gb c = u.commitCal gb c.attempt1 c.temp 1 := by
    rw [State.calibrate]
    exact if_pos unsuspect
  rw [commit]
  exact State.commitCal_calibrated hbad (by simp [u, Reg.PAR_STATUS_SETTLE_LEFT]) (by simp [u, x]) _ _

/-- CALIBRATE_NOW completes with its first attempt committed (R173). -/
theorem calibrateNow_commits {s : State} {gb : Nat} {env : EngEnv} {e : Entry} (hex : s.executes gb 16 e = true)
    (hclean : e.clean = true) (hopc : opc e.word = 0x18) (hop : (e.par 0).op = 2)
    (hchecks : (parChecks e (e.par 0)).run s = (.ok (), s)) {c : CalEnv} (hsus : s.suspectCal gb c.attempt1 = false)
    (hbad : ∀ m, m < 266 → badPair c.attempt1 m = false) :
    ∃ t, exec (.calibrateNow gb env c) s = .next t ∧ t.completed gb e ∧ t.Calibrated gb c.attempt1 c.temp := by
  let u := s.surround gb env
  have kept : s.ParKeeps u := s.surround_keeps gb env
  obtain ⟨done, -⟩ := State.calibrate_commits (s := u) (c := c)
    ((State.suspectCal_of_rd (kept.on rfl ..) (fun m => kept.rd rfl gb m) _).trans hsus) hbad
  refine ⟨(u.calibrate gb c).finished gb 16 e, ?_, State.finished_completed _ gb 16 e, done.of_keeps (State.finished_keeps ..)⟩
  calc exec (.calibrateNow gb env c) s = execCalibrateNow gb env c s := rfl
    _ = _ := runUnit_next hex (by simp [hopc, hop]) (by
      rw [Act.run_bind_ok (frontChecks_run hclean gb env 0x0202 s), Act.run_bind_ok (parChecks_run_anywhere hchecks u),
        Act.run_bind_ok (awaitTags_free gb [] u rfl)]
      rfl)

/-- CALIBRATION of a parison that holds no computed record back runs the calibration that is due (R169, R174). -/
theorem calibration_eq {s : State} {gb : Nat} (hgb : gb < 2560) (c : CalEnv) (hdue : (s.parx gb).calDue = true)
    (hcomp : (s.parx gb).computed = none) (hclock : s.clockStopped gb = false) :
    exec (.calibration gb c) s = .next (s.calibrate gb c) := by
  calc exec (.calibration gb c) s = execCalibration gb c s := rfl
    _ = _ := by
      rw [execCalibration, hdue, hcomp, hclock]
      exact okIf_bench hgb _

/-! ### LOAD_SKETCH (R170) -/

theorem ParOp.regions_of_load {d : ParOp} (h : d.op = 1) (w : DWord) :
    d.regions w = [⟨32 * d.sketchAddr, 64 * d.loadCount, false, tagIn w⟩] := by
  simp [ParOp.regions, h, regionAt, Int.not_lt.2 (Int.natCast_nonneg d.sketchAddr)]

/-- The bytes that row `i` of a sketch load comes from. -/
def ParOp.sketchSrc (d : ParOp) (act i : Nat) : Region := ⟨32 * d.sketchAddr + 64 * i, 64, false, act⟩

/-- The row image that a sketch load stores for row `i` (R166, R170). -/
def State.sketchImage (s : State) (gb : Nat) (d : ParOp) (i : Nat) : Nat :=
  s.sketchRow gb (s.num (spadBase gb + 32 * d.sketchAddr + 64 * i) 64)

/-- The state with row `i` of a sketch load stored. -/
def State.storeSketch (s : State) (gb : Nat) (d : ParOp) (i : Nat) : State :=
  { s with sketch := s.sketch.put 0 (512 * gb + d.loadFirst + i) (BitVec.ofNat 528 (s.sketchImage gb d i)) }

theorem State.sketch_storeSketch_same (s : State) (gb : Nat) (d : ParOp) (i : Nat) :
    (s.storeSketch gb d i).sketch.get 0 (512 * gb + d.loadFirst + i) = BitVec.ofNat 528 (s.sketchImage gb d i) :=
  SMap.get_put_same _ _ _ _

theorem State.sketch_storeSketch_other (s : State) (gb : Nat) (d : ParOp) {i k : Nat} (h : 512 * gb + d.loadFirst + i ≠ k) :
    (s.storeSketch gb d i).sketch.get 0 k = s.sketch.get 0 k := SMap.get_put_other _ _ _ _ _ h

/-- The accesses of a sketch load, row by row. -/
def ParOp.sketchPlan (d : ParOp) (act : Nat) : List (List Region) := (List.range d.loadCount).map (fun i => [d.sketchSrc act i])

theorem ParOp.sketchPlan_getD (d : ParOp) (act : Nat) {i : Nat} (hi : i < d.loadCount) :
    (d.sketchPlan act).getD i [] = [d.sketchSrc act i] := by
  simp [ParOp.sketchPlan, List.getD_eq_getElem?_getD, hi]

theorem ParOp.mem_sketchPlan_take {d : ParOp} {act n : Nat} (hn : n ≤ d.loadCount) {r : Region} :
    r ∈ ((d.sketchPlan act).take n).flatten ↔ ∃ i < n, r = d.sketchSrc act i := by
  simp [ParOp.sketchPlan, ← List.map_take, List.take_range, Nat.min_eq_left hn, ← List.flatMap_def]

theorem State.sketchRow_of_keeps {s t : State} (h : s.ParKeeps t) (gb row : Nat) : t.sketchRow gb row = s.sketchRow gb row := by
  have valid : ∀ r, t.on Reg.PAR_REMAP_TBL_VALID gb r = s.on Reg.PAR_REMAP_TBL_VALID gb r := fun r => h.on rfl gb r
  have pair : ∀ r, t.rd Reg.PAR_REMAP_TBL_PAIR gb r = s.rd Reg.PAR_REMAP_TBL_PAIR gb r := fun r => h.rd rfl gb r
  simp only [State.sketchRow, valid, pair]

theorem State.ParKeeps.withSketch {s t : State} (h : s.ParKeeps t) (m : SMap (BitVec 528)) :
    ({ s with sketch := m } : State).ParKeeps { t with sketch := m } :=
  ⟨h.mem, h.poison, rfl, h.pots, h.pars, h.rd⟩

/-- `t` has stored the first `n` rows of a sketch load that began in `s`. -/
structure State.SketchLoaded (s : State) (gb : Nat) (d : ParOp) (act n : Nat) (t : State) : Prop where
  kept : s.ParKeeps { t with sketch := s.sketch }
  tags : ∀ k, (∀ i < n, k ∉ (d.sketchSrc act i).slots) → t.tag gb k = s.tag gb k
  rows : ∀ i, i < n → t.sketch.get 0 (512 * gb + d.loadFirst + i) = BitVec.ofNat 528 (s.sketchImage gb d i)
  others : ∀ k, (k < 512 * gb + d.loadFirst ∨ 512 * gb + d.loadFirst + n ≤ k) → t.sketch.get 0 k = s.sketch.get 0 k

section
variable {s t : State} {gb : Nat} {d : ParOp} {act n : Nat}

/-- A row without a reserved pattern that verifies is stored. -/
theorem loadSketchRow_run {env : EngEnv} (hecc : env.ecc = []) (hsound : t.sound gb (32 * d.sketchAddr + 64 * n) 64 = true)
    (hres : sketchReserved (t.num (spadBase gb + 32 * d.sketchAddr + 64 * n) 64) = false) :
    (loadSketchRow gb env d [] n).run t = (.ok (), t.storeSketch gb d n) := by
  have read := spadRead_run hecc hsound
  rw [← Nat.add_assoc] at read
  rw [loadSketchRow, Act.run_bind_ok read]
  exact (Act.run_bind_ok (Act.run_check hres _ _ t)).trans rfl

theorem State.sketchImage_of_loaded (h : s.SketchLoaded gb d act n t) (i : Nat) : t.sketchImage gb d i = s.sketchImage gb d i := by
  have image : t.num (spadBase gb + 32 * d.sketchAddr + 64 * i) 64 = s.num (spadBase gb + 32 * d.sketchAddr + 64 * i) 64 :=
    congrArg ofBytes (h.kept.bytes ..)
  have row := State.sketchRow_of_keeps h.kept gb (s.num (spadBase gb + 32 * d.sketchAddr + 64 * i) 64)
  rw [State.sketchImage, State.sketchImage, image]
  exact row

/-- One more row stored, with the tag actions of its access and its step recorded. -/
theorem State.SketchLoaded.succ (h : s.SketchLoaded gb d act n t) (hn : n < d.loadCount) (e : Entry) :
    s.SketchLoaded gb d act (n + 1) (((t.storeSketch gb d n).pacedTags gb (d.sketchPlan act) n).staged gb e (n + 1)) := by
  let u := t.storeSketch gb d n
  have after : u.ParKeeps ((u.pacedTags gb (d.sketchPlan act) n).staged gb e (n + 1)) :=
    (u.pacedTags_keeps gb _ n).trans (State.staged_keeps _ gb e _)
  refine ⟨h.kept.trans (after.withSketch s.sketch), fun k hk => ?_, fun i hi => ?_, fun k hk => ?_⟩
  · have own : ∀ r ∈ (d.sketchPlan act).getD n [], k ∉ r.slots := by
      rw [d.sketchPlan_getD act hn]
      simpa using hk n (by omega)
    exact (u.tag_pacedTags gb own).trans (h.tags k (fun i hi => hk i (by omega)))
  · rw [after.sketch]
    by_cases hin : i = n
    · subst hin
      rw [State.sketch_storeSketch_same, State.sketchImage_of_loaded h]
    · rw [State.sketch_storeSketch_other _ _ _ (by omega)]
      exact h.rows i (by omega)
  · rw [after.sketch, State.sketch_storeSketch_other _ _ _ (by omega)]
    exact h.others k (by omega)

/-- The slots that a row is the first to touch still have the tags that the load began with. -/
theorem State.SketchLoaded.free (h : s.SketchLoaded gb d act n t) (hn : n < d.loadCount)
    (hs : s.regionWait gb (d.sketchSrc act n) = none) :
    ∀ x ∈ freshSlots ((d.sketchPlan act).getD n []) ((d.sketchPlan act).take n).flatten, t.regionWait gb x = none := by
  rw [d.sketchPlan_getD act hn]
  refine State.freshSlots_free (s := s) (by simpa using hs) (fun r hr k hk => h.tags k (fun i hi hki => ?_))
  obtain rfl : r = d.sketchSrc act n := by simpa using hr
  obtain ⟨hnow, hprior⟩ := mem_freshSlots.1 hk
  obtain ⟨q, hq, hact, -⟩ := mem_tagged.1 hnow
  obtain rfl : q = d.sketchSrc act n := by simpa using hq
  have touched : (d.sketchSrc act i).slot k ∈ tagged ((d.sketchPlan act).take n).flatten :=
    mem_tagged.2 ⟨_, (ParOp.mem_sketchPlan_take (by omega)).2 ⟨i, hi, rfl⟩, hact, k, hki, rfl⟩
  simpa [Region.slot, ParOp.sketchSrc] using hprior _ touched

end

/-- The bytes of each row of a sketch load may be read under the tags that the whole load needs. -/
theorem State.regionWait_sketchSrc {s : State} {gb : Nat} {d : ParOp} {w : DWord} (hop : d.op = 1)
    (hlets : s.lets gb (d.regions w) = true) {i : Nat} (hi : i < d.loadCount) : s.regionWait gb (d.sketchSrc (tagIn w) i) = none := by
  rw [ParOp.regions_of_load hop, State.lets_iff] at hlets
  refine State.regionWait_within (hlets _ List.mem_cons_self).2 rfl rfl (fun k hk => ?_)
  simp only [Region.mem_slots, ParOp.sketchSrc] at hk ⊢
  omega

theorem State.SketchLoaded.begin (s : State) (gb : Nat) (d : ParOp) (act : Nat) (env : EngEnv) :
    s.SketchLoaded gb d act 0 (s.surround gb env) where
  kept := (s.surround_keeps gb env).withSketch s.sketch
  tags k _ := by rw [State.tag, State.tag, State.surround_tags]
  rows i hi := absurd hi (by omega)
  others k _ := by rw [(s.surround_keeps gb env).sketch]

/-- All rows of a sketch load, each without poison and without a reserved pattern. -/
theorem sketchRows_run {s u : State} {gb : Nat} {env : EngEnv} {d : ParOp} {act : Nat} (hecc : env.ecc = []) (e : Entry)
    (hu : s.SketchLoaded gb d act 0 u) (hfree : ∀ i, i < d.loadCount → s.regionWait gb (d.sketchSrc act i) = none)
    (hsound : s.sound gb (32 * d.sketchAddr) (64 * d.loadCount) = true)
    (hres : ∀ i, i < d.loadCount → sketchReserved (s.num (spadBase gb + 32 * d.sketchAddr + 64 * i) 64) = false) :
    ∃ t, (inSteps gb e 0 ((List.range d.loadCount).map (fun i =>
        paced gb (d.sketchPlan act) i (loadSketchRow gb env d [] i)))).run u = (.ok (), t) ∧
      s.SketchLoaded gb d act d.loadCount t := by
  let steps := (List.range d.loadCount).map (fun i => paced gb (d.sketchPlan act) i (loadSketchRow gb env d [] i))
  have count : steps.length = d.loadCount := by simp [steps]
  obtain ⟨t, hrun, loaded⟩ := inSteps_run (gb := gb) (e := e) (s.SketchLoaded gb d act) steps hu (fun i hi v hv => by
    rw [Nat.zero_add] at hv ⊢
    have hi' : i < d.loadCount := by rwa [count] at hi
    have sound : v.sound gb (32 * d.sketchAddr + 64 * i) 64 = true :=
      (hv.kept.sound ..).trans (State.sound_part hsound (by omega) (by omega))
    have unreserved : sketchReserved (v.num (spadBase gb + 32 * d.sketchAddr + 64 * i) 64) = false :=
      (congrArg (fun b => sketchReserved (ofBytes b)) (hv.kept.bytes ..)).trans (hres i hi')
    refine ⟨_, ?_, hv.succ hi' e⟩
    simp only [steps, List.getElem_map, List.getElem_range]
    exact paced_run (hv.free hi' (hfree i hi')) (loadSketchRow_run hecc sound unreserved))
  rw [Nat.zero_add, count] at loaded
  exact ⟨t, hrun, loaded⟩

/-- A sketch load whose rows hold no reserved pattern and verify completes with its rows stored. -/
theorem loadSketch_stores {s : State} {gb : Nat} {env : EngEnv} {e : Entry} (hquiet : quietEnv env = true)
    (hex : s.executes gb 16 e = true) (hclean : e.clean = true) (hopc : opc e.word = 0x18) {d : ParOp} (hd : d = e.par 0)
    (hop : d.op = 1) (hchecks : (parChecks e d).run s = (.ok (), s)) (hlets : s.lets gb (d.regions e.word) = true)
    (hsound : s.sound gb (32 * d.sketchAddr) (64 * d.loadCount) = true)
    (hres : ∀ i, i < d.loadCount → sketchReserved (s.num (spadBase gb + 32 * d.sketchAddr + 64 * i) 64) = false) :
    ∃ t, exec (.loadSketch gb env []) s = .next t ∧ t.completed gb e ∧ t.mem = s.mem ∧
      (∀ i, i < d.loadCount → t.sketch.get 0 (512 * gb + d.loadFirst + i) = BitVec.ofNat 528 (s.sketchImage gb d i)) ∧
      ∀ k, (k < 512 * gb + d.loadFirst ∨ 512 * gb + d.loadFirst + d.loadCount ≤ k) → t.sketch.get 0 k = s.sketch.get 0 k := by
  obtain ⟨-, hcur, -⟩ := State.current_of_executes hex
  obtain ⟨-, -, -, hstage, -⟩ := Entry.clean_iff.1 hclean
  have current : s.current gb (unitOf e.word) = some e := by rw [unitOf, hopc]; exact hcur
  have seqs := s.surround_seqs gb env
  obtain ⟨t, hrun, loaded⟩ := sketchRows_run (quietEnv_ecc hquiet) e (.begin s gb d (tagIn e.word) env)
    (fun i hi => State.regionWait_sketchSrc hop hlets hi) hsound hres
  have fin := t.finished_keeps gb 16 e
  refine ⟨t.finished gb 16 e, ?_, State.finished_completed _ gb 16 e, fin.mem.trans loaded.kept.mem, ?_, ?_⟩
  · subst hd
    calc exec (.loadSketch gb env []) s = execLoadSketch gb env [] s := rfl
      _ = _ := runUnit_next hex (by simp [hopc, hop]) (by
        rw [Act.run_bind_ok (frontChecks_run hclean gb env 0x0202 s)]
        dsimp only
        rw [Act.run_bind_ok (entryNow_run current seqs), if_pos hstage, Act.run_bind_ok (parChecks_run_anywhere hchecks _)]
        exact goOn_run current seqs hstage hrun)
  · rw [fin.sketch]
    exact loaded.rows
  · rw [fin.sketch]
    exact loaded.others

/-- Settles O27: the sketch load row by row; both calibrations commit their first attempt. -/
theorem sketchLoadsAndCalibrations : Obligations.SketchLoadsAndCalibrations := by
  intro s gb env e hgb hquiet
  refine ⟨fun hex hclean hopc => ⟨fun hop hchecks hlets hsound hres =>
      loadSketch_stores hquiet hex hclean hopc rfl hop hchecks hlets hsound hres, fun c hop hchecks hsus hbad => ?_⟩,
    fun c hdue hcomp hclock hsus hbad => ?_⟩
  · obtain ⟨t, hnext, hdone, hcal⟩ := calibrateNow_commits (env := env) hex hclean hopc hop hchecks hsus hbad
    exact ⟨t, hnext, hdone, hcal.valid, hcal.fresh, hcal.settle, hcal.trims⟩
  · obtain ⟨hcal, hmem⟩ := State.calibrate_commits hsus hbad
    exact ⟨_, calibration_eq hgb c hdue hcomp hclock, hcal.valid, hcal.fresh, hcal.settle, hcal.latched, hcal.notDue, hcal.trims, hmem⟩

/-! ### A comparison without noise (R153 to R160) -/

theorem sampleNoise_nil (retry : Bool) : sampleNoise [] retry = [0#266, 0#266, 0#266] := by
  cases retry <;> rfl

/-- Three samples without noise decide as the ideal comparator does. -/
theorem majority_quiet (ideal : Bool) (m : Nat) : majority ideal m [0#266, 0#266, 0#266] = ideal := by
  cases ideal <;> simp [majority]

theorem State.refFails_quiet {s : State} {gb : Nat} (h264 : s.on Reg.PAR_TRIM_BAD gb 264 = false)
    (h265 : s.on Reg.PAR_TRIM_BAD gb 265 = false) : s.refFails gb [0#266, 0#266, 0#266] = false := by
  simp [State.refFails, h264, h265]

theorem State.pairOf_of_rd {s t : State} {gb : Nat} (hv : ∀ r, t.rd Reg.PAR_REMAP_TBL_VALID gb r = s.rd Reg.PAR_REMAP_TBL_VALID gb r)
    (hp : ∀ r, t.rd Reg.PAR_REMAP_TBL_PAIR gb r = s.rd Reg.PAR_REMAP_TBL_PAIR gb r) (m : Nat) : t.pairOf gb m = s.pairOf gb m := by
  simp only [State.pairOf, State.on, hv, hp]

theorem getLsbD_maskBits (f : Nat → Bool) {m : Nat} (hm : m < 256) : (maskBits f).getLsbD m = f m := by
  rw [maskBits, BitVec.getLsbD_ofNat, testBit_sum_twoPow]
  simp [hm]

/-- The parison is ready for a comparison `d` that is neither a settle comparison nor forced live: calibrated, settled on the same
threshold and window, without dead pairs and bad reference pairs. -/
structure State.ParReady (s : State) (gb : Nat) (d : ParOp) : Prop where
  prev : (s.parx gb).prev = some (d.theta, d.win)
  dead : (s.parx gb).dead = []
  settled : s.rd Reg.PAR_STATUS_SETTLE_LEFT gb = 0
  valid : s.on Reg.PAR_STATUS_CAL_VALID gb = true
  fresh : s.on Reg.PAR_STATUS_CAL_STALE gb = false
  ref0 : s.on Reg.PAR_TRIM_BAD gb 264 = false
  ref1 : s.on Reg.PAR_TRIM_BAD gb 265 = false

theorem State.ParReady.of_keeps {s t : State} {gb : Nat} {d : ParOp} (h : s.ParReady gb d) (hk : s.ParKeeps t) : t.ParReady gb d where
  prev := by rw [hk.parx, h.prev]
  dead := by rw [hk.parx, h.dead]
  settled := (hk.rd rfl ..).trans h.settled
  valid := (hk.on rfl ..).trans h.valid
  fresh := (hk.on rfl ..).trans h.fresh
  ref0 := (hk.on rfl ..).trans h.ref0
  ref1 := (hk.on rfl ..).trans h.ref1

/-- The state after a comparison of a ready parison: it is counted, and its threshold and window are kept. -/
def State.compared (s : State) (gb : Nat) (d : ParOp) : State :=
  let u := ((s.setParx gb { s.parx gb with prev := some (d.theta, d.win) }).wr Reg.PAR_STATUS_SETTLE_LEFT gb 0).bump
    Reg.PAR_CMP_CNT_COUNT gb
  u.setParx gb { u.parx gb with notCalSaid := false }

theorem State.compared_frame (s : State) (gb : Nat) (d : ParOp) :
    (s.compared gb d).mem = s.mem ∧ (s.compared gb d).pots = s.pots ∧ ((s.compared gb d).parx gb).record = (s.parx gb).record :=
  ⟨rfl, rfl, by simp [State.compared]⟩

/-- The record of a comparison of a ready parison: each bit as its pair's sketch sum decides. -/
def State.idealRecord (s : State) (gb : Nat) (d : ParOp) (codes : List Int) : MaskRec :=
  { live := maskBits (fun m => decide (d.theta ≤ s.sketchSum gb d.win (s.pairOf gb m) codes)) }

theorem State.idealRecord_of_keeps {s t : State} (h : s.ParKeeps t) (gb : Nat) (d : ParOp) (codes : List Int) :
    t.idealRecord gb d codes = s.idealRecord gb d codes := by
  have sums : (fun m => t.sketchSum gb d.win (t.pairOf gb m) codes) = fun m => s.sketchSum gb d.win (s.pairOf gb m) codes := by
    funext m
    rw [State.sketchSum, State.sketchSum, h.sketch, State.pairOf_of_rd (fun r => h.rd rfl gb r) (fun r => h.rd rfl gb r)]
  exact congrArg (fun f : Nat → Int => ({ live := maskBits (fun m => decide (d.theta ≤ f m)) } : MaskRec)) sums

/-- A comparison leaves every parison register but SETTLE_LEFT and the count of comparisons. -/
theorem State.compared_rd (s : State) (gb : Nat) (d : ParOp) {f : Field} (hs : Reg.PAR_STATUS_SETTLE_LEFT.base ≠ f.base)
    (hc : Reg.PAR_CMP_CNT_COUNT.base ≠ f.base) (i j : Nat) : (s.compared gb d).rd f i j = s.rd f i j := by
  rw [State.compared, State.rd_setParx, State.rd_bump_field _ hc, State.rd_wr_field _ _ _ _ _ _ _ _ hs, State.rd_setParx]

theorem State.compared_pairOf (s : State) (gb : Nat) (d : ParOp) (m : Nat) : (s.compared gb d).pairOf gb m = s.pairOf gb m :=
  State.pairOf_of_rd (s.compared_rd gb d (by decide) (by decide) gb) (s.compared_rd gb d (by decide) (by decide) gb) m

theorem State.compared_sketchSum (s : State) (gb : Nat) (d : ParOp) (m : Nat) (codes : List Int) :
    (s.compared gb d).sketchSum gb d.win m codes = s.sketchSum gb d.win m codes := rfl

/-- A comparison of a ready parison, without noise: no settle comparison, no failed reference check, no forced mask (R157 to R160,
R167, R168). -/
theorem State.compareOnce_ready {s : State} {gb : Nat} {d : ParOp} (h : s.ParReady gb d) (codes : List Int) :
    (s.compareOnce gb d codes []).1 = s.compared gb d ∧ (s.compareOnce gb d codes []).2.1 = s.idealRecord gb d codes := by
  unfold State.compareOnce
  extract_lets x left begins settle u₁ counted u₂ first again suspect y₂ u₃ nc u₄ y₄ u₅ ns dead forced live mask n
  have kept : ∀ f : Field, Reg.PAR_STATUS_SETTLE_LEFT.base ≠ f.base → Reg.PAR_CMP_CNT_COUNT.base ≠ f.base →
      ∀ j, counted.on f gb j = s.on f gb j := fun f hs hc j => State.on_of_rd (by
    rw [State.rd_bump_field _ hc, State.rd_wr_field _ _ _ _ _ _ _ _ hs, State.rd_setParx])
  have noBegin : begins = false := by simp [begins, left, x, h.settled, h.prev]
  have noSettle : settle = false := by simp [settle, noBegin, left, h.settled]
  have e₂ : u₂ = counted := if_neg (by simp [noSettle])
  have passes : first = false := by
    simp only [first, sampleNoise_nil, e₂]
    exact State.refFails_quiet ((kept _ (by decide) (by decide) _).trans h.ref0) ((kept _ (by decide) (by decide) _).trans h.ref1)
  have e₃ : u₃ = counted := (if_pos (by simp [passes])).trans e₂
  have calibrated : nc = false := by
    simp [nc, e₃, State.notCal, kept Reg.PAR_STATUS_CAL_VALID (by decide) (by decide), h.valid,
      kept Reg.PAR_STATUS_CAL_STALE (by decide) (by decide), h.fresh]
  have e₄ : u₄ = counted := (if_neg (by simp [calibrated])).trans e₃
  have e₅ : u₅ = s.compared gb d := by simp only [u₅, y₄, e₄, calibrated, counted, u₁, noBegin, x]; rfl
  have alive : dead = [] := by simp [dead, e₅, State.compared, h.dead]
  have unforced : forced = false := by simp [forced, noSettle, suspect, passes, calibrated]
  have ideal : live = fun m => decide (d.theta ≤ s.sketchSum gb d.win (s.pairOf gb m) codes) := by
    funext m
    simp [live, alive, ns, sampleNoise_nil, majority_quiet, e₅, State.compared_pairOf, State.compared_sketchSum]
  have fresh : u₅.on Reg.PAR_STATUS_CAL_STALE gb = false := by
    rw [e₅, State.on_of_rd (s.compared_rd gb d (by decide) (by decide) gb 0), h.fresh]
  refine ⟨e₅, ?_⟩
  simp [State.idealRecord, mask, unforced, ideal, noSettle, suspect, passes, calibrated, fresh, alive]

/-! ### COMPARE (R154 to R162) -/

/-- A comparison's input, where it does not store its mask. -/
theorem ParOp.regions_of_compare {d : ParOp} (hop : d.op = 0) (hstore : d.store = false) (w : DWord) :
    d.regions w = [regionAt d.inAddr 0 d.inLen false (tagIn w)] := by
  simp [ParOp.regions, hop, hstore]

/-- A region in the scratchpad begins at its granule. -/
theorem regionAt_of_inside {g : Int} {len act : Nat} {wr : Bool} (h : (regionAt g 0 len wr act).past = false) :
    regionAt g 0 len wr act = ⟨32 * g.toNat, len, wr, act⟩ := by
  have nonneg : ¬g < 0 := fun hg => by simp [regionAt, Region.past, hg] at h
  simp [regionAt, nonneg]

/-- The state with a computed record, which waits to be presented. -/
def State.holdRecord (s : State) (gb : Nat) (r : MaskRec) (n : Nat) : State :=
  s.setParx gb { s.parx gb with computed := some (r, n) }

theorem State.holdRecord_mem (s : State) (gb : Nat) (r : MaskRec) (n : Nat) : (s.holdRecord gb r n).mem = s.mem := rfl
theorem State.holdRecord_pots (s : State) (gb : Nat) (r : MaskRec) (n : Nat) : (s.holdRecord gb r n).pots = s.pots := rfl

/-- The state with the computed record presented to its targets, and delivered to those with empty slots (R162). -/
def State.present (s : State) (gb : Nat) (d : ParOp) (r : MaskRec) (n : Nat) : State :=
  ((s.bump Reg.PAR_LIVE_CNT_COUNT gb n).setParx gb
    { s.parx gb with computed := none, record := if d.target = 0 then none else some (r, d.target) }).deliver gb

section
variable {s : State} {gb : Nat} {env : EngEnv} {d : ParOp} {w : DWord}

/-- The comparison proper: three quiet samples over the input's codes give the ideal record. -/
theorem compareStep_run (hecc : env.ecc = []) {r : Region} (hr : regionAt d.inAddr 0 d.inLen false (tagIn w) = r)
    (hfree : s.regionWait gb r = none) (hsound : s.sound gb r.lo r.len = true) {codes : List Int}
    (hsome : ∀ i, i < d.rows → (d.code (s.bytes (spadBase gb + r.lo) r.len) i).isSome = true)
    (hcodes : codes = (List.range d.rows).map (fun i => (d.code (s.bytes (spadBase gb + r.lo) r.len) i).getD 0))
    (hready : s.ParReady gb d) :
    ∃ n, (compareStep gb env [] d w).run s =
      (.ok (), ((s.compared gb d).holdRecord gb (s.idealRecord gb d codes) n).pacedTags gb [[r]] 0) := by
  obtain ⟨hstate, hrec⟩ := State.compareOnce_ready hready codes
  refine ⟨(s.compareOnce gb d codes []).2.2, ?_⟩
  have fresh : ∀ x ∈ freshSlots (([[r]] : List (List Region)).getD 0 []) (([[r]] : List (List Region)).take 0).flatten,
      s.regionWait gb x = none := State.freshSlots_free (s := s) (by simpa using hfree) (fun _ _ _ _ => rfl)
  rw [compareStep, hr]
  refine paced_run fresh ?_
  have unreserved : ((List.range d.rows).map (d.code (s.bytes (spadBase gb + r.lo) r.len))).any Option.isNone = false := by
    simpa [Option.isSome_iff_ne_none] using hsome
  rw [Act.run_bind_ok (spadRead_run hecc hsound)]
  refine (Act.run_bind_ok (Act.run_check unreserved _ _ s)).trans ?_
  rw [Act.run_modify, List.map_map]
  have image : (List.range d.rows).map ((fun c => c.getD 0) ∘ d.code (s.bytes (spadBase gb + r.lo) r.len)) = codes := hcodes.symm
  rw [image, ← hstate, ← hrec]
  rfl

/-- A computed record that is not to be stored is presented where none is undelivered. -/
theorem presentRecord_run {r : MaskRec} {n : Nat} (hcomp : (s.parx gb).computed = some (r, n)) (hrec : (s.parx gb).record = none)
    (hdiscard : d.discard = false) (hstore : d.store = false) :
    (presentRecord gb env d w).run s = (.ok (), s.present gb d r n) := by
  rw [presentRecord, Act.run_get_bind]
  simp only [hcomp, hrec, hdiscard, hstore, Option.isSome_none, Bool.false_eq_true, if_false]
  rw [Act.run_bind_ok (awaitTags_free gb [] s rfl)]
  rfl

theorem State.present_mem (r : MaskRec) (n : Nat) : (s.present gb d r n).mem = s.mem := (State.deliver_frame _ gb).1

/-- Each target of the record whose slot is empty takes it. -/
theorem State.present_mask (r : MaskRec) (n : Nat) {p : Nat} (hp : p < 16) (ht : bit d.target p = true)
    (hm : (s.potx (potIx gb p)).mask = none) : ((s.present gb d r n).potx (potIx gb p)).mask = some r := by
  have some_target : d.target ≠ 0 := fun h0 => by simp [h0, bit] at ht
  refine State.deliver_mask (t := d.target) ?_ hp ht hm
  simp [some_target]

end

/-- The only iteration of an instruction that does not repeat. -/
theorem runReps_once {gb : Nat} {e : Entry} (hrep : fld e.word 16 16 = 0) (hiter : e.iter = 0) {run : Nat → Act Unit} {s t : State}
    (h : (run 0).run s = (.ok (), t)) : (runReps gb e run).run s =
      (.ok (), t.modEntry gb e.id (fun x => { x with iter := 0 + 1, stage := 0, kept := [], outs := [] })) := by
  have reps : e.reps = 1 := by simp [Entry.reps, hrep]
  rw [runReps, hiter, reps, iterate, Act.run_bind_ok h]
  rfl

/-- The iteration of a comparison that has not begun, with no calibration due: its input compared, and its record presented. -/
theorem compareIter_run {s u v w : State} {gb : Nat} {env : EngEnv} {e : Entry} (hcur : s.current gb (unitOf e.word) = some e)
    (hu : u.seqs = s.seqs) (hstage : e.stage = 0) (hiter : e.iter = 0) (hempty : e.empty = false) (hdue : (u.parx gb).calDue = false)
    (hchecks : (parChecks e (e.par 0)).run u = (.ok (), u)) (hcompare : (compareStep gb env [] (e.par 0) e.word).run u = (.ok (), v))
    (hpresent : (presentRecord gb env (e.par 0) e.word).run (v.staged gb e 1) = (.ok (), w)) :
    (compareIter gb env [] e 0).run u = (.ok (), w.staged gb e 2) := by
  have calm : ¬((decide (e.stage = 0) && (u.parx gb).calDue) = true) := by simp [hdue]
  rw [compareIter, Act.run_bind_ok (entryNow_run hcur hu), Act.run_get_bind, if_neg calm, if_pos hstage, hempty]
  refine (Act.run_bind_ok hchecks).trans (goOn_run hcur hu hstage ?_)
  rw [hiter, List.drop_nil, inSteps_cons hcompare, inSteps_cons hpresent]
  rfl

/-- An executing comparison of a ready parison, whose input may be read, completes with its ideal record delivered. -/
theorem compare_delivers {s : State} {gb : Nat} {env : EngEnv} {e : Entry} (hex : s.executes gb 16 e = true) (hclean : e.clean = true)
    (hquiet : quietEnv env = true) (hopc : opc e.word = 0x18) (hrep : fld e.word 16 16 = 0) (hiter : e.iter = 0)
    (hempty : e.empty = false) {d : ParOp} {codes : List Int} (hd : d = e.par 0) (hop : d.op = 0) (hstore : d.store = false)
    (hdiscard : d.discard = false) (hchecks : (parChecks e d).run s = (.ok (), s)) (hlets : s.lets gb (d.regions e.word) = true)
    (hsound : s.sound gb (32 * d.inAddr.toNat) d.inLen = true)
    (hsome : ∀ i, i < d.rows → (d.code (s.bytes (spadBase gb + 32 * d.inAddr.toNat) d.inLen) i).isSome = true)
    (hcodes : codes = (List.range d.rows).map (fun i => (d.code (s.bytes (spadBase gb + 32 * d.inAddr.toNat) d.inLen) i).getD 0))
    (hdue : (s.parx gb).calDue = false) (hrecord : (s.parx gb).record = none) (hready : s.ParReady gb d) :
    ∃ t, exec (.compare gb env []) s = .next t ∧ t.completed gb e ∧ t.mem = s.mem ∧
      ∀ p, p < 16 → bit d.target p = true → (s.potx (potIx gb p)).mask = none →
        (t.potx (potIx gb p)).mask = some (s.idealRecord gb d codes) := by
  obtain ⟨-, hcur, hclock⟩ := State.current_of_executes hex
  obtain ⟨-, -, -, hstage, -⟩ := Entry.clean_iff.1 hclean
  have current : s.current gb (unitOf e.word) = some e := by rw [unitOf, hopc]; exact hcur
  let u := s.surround gb env
  have begun : s.ParKeeps u := s.surround_keeps gb env
  have seqs : u.seqs = s.seqs := s.surround_seqs gb env
  rw [ParOp.regions_of_compare hop hstore, State.lets_iff] at hlets
  obtain ⟨hin, hfree⟩ := hlets _ List.mem_cons_self
  have region := regionAt_of_inside hin
  rw [region] at hfree
  have free : u.regionWait gb ⟨32 * d.inAddr.toNat, d.inLen, false, tagIn e.word⟩ = none :=
    (State.regionWait_of_tags (s.surround_tags gb env) ..).trans hfree
  obtain ⟨n, compared⟩ := compareStep_run (quietEnv_ecc hquiet) region free ((begun.sound ..).trans hsound) (codes := codes)
    (by simpa only [begun.bytes] using hsome) (by simpa only [begun.bytes] using hcodes) (hready.of_keeps begun)
  rw [State.idealRecord_of_keeps begun] at compared
  let v := (((u.compared gb d).holdRecord gb (s.idealRecord gb d codes) n).pacedTags gb
    [[⟨32 * d.inAddr.toNat, d.inLen, false, tagIn e.word⟩]] 0).staged gb e 1
  have held : ((u.compared gb d).holdRecord gb (s.idealRecord gb d codes) n).ParKeeps v :=
    (State.pacedTags_keeps _ gb _ 0).trans (State.staged_keeps _ gb e 1)
  have presented : (presentRecord gb env d e.word).run v = (.ok (), v.present gb d (s.idealRecord gb d codes) n) := by
    refine presentRecord_run ?_ ?_ hdiscard hstore
    · rw [held.parx]
      simp [State.holdRecord]
    · rw [held.parx, State.holdRecord, State.parx_setParx, (u.compared_frame gb d).2.2, begun.parx, hrecord]
  let z := ((v.present gb d (s.idealRecord gb d codes) n).staged gb e 2).modEntry gb e.id
    (fun x => { x with iter := 0 + 1, stage := 0, kept := [], outs := [] })
  have last : (v.present gb d (s.idealRecord gb d codes) n).ParKeeps (z.finished gb 16 e) :=
    ((State.staged_keeps _ gb e 2).trans (State.modEntry_keeps _ gb e.id _)).trans (z.finished_keeps gb 16 e)
  refine ⟨z.finished gb 16 e, ?_, State.finished_completed _ gb 16 e, ?_, fun p hp ht hm => ?_⟩
  · subst hd
    have iteration := compareIter_run current seqs hstage hiter hempty (by rw [begun.parx, hdue]) (parChecks_run_anywhere hchecks u)
      compared presented
    calc exec (.compare gb env []) s = execCompare gb env [] s := rfl
      _ = _ := by
        rw [execCompare, hclock, hdue]
        exact runUnit_next hex (by simp [hopc, hop]) (by
          rw [Act.run_bind_ok (frontChecks_run hclean gb env 0x0202 s)]
          exact runReps_once hrep hiter iteration)
  · rw [last.mem, State.present_mem, held.mem, State.holdRecord_mem, (u.compared_frame gb d).1, begun.mem]
  · rw [last.potx]
    refine State.present_mask _ n hp ht ?_
    have slots : v.pots = s.pots := by
      rw [held.pots, State.holdRecord_pots, (u.compared_frame gb d).2.1, begun.pots]
    rw [State.potx_of_pots slots, hm]

/-- Settles O26: the record delivered is the ideal one. -/
theorem compareGivesTheIdealMask : Obligations.CompareGivesTheIdealMask := by
  intro s gb env e hex hclean hquiet hopc hrep hiter hempty d codes hd hop hstore hdiscard hchecks hlets hsound hsome hcodes hdue
    hrecord hprev hdead hsettled hvalid hfresh href0 href1
  obtain ⟨t, hnext, hdone, hmem, hmasks⟩ := compare_delivers hex hclean hquiet hopc hrep hiter hempty hd hop hstore hdiscard hchecks
    hlets hsound hsome hcodes hdue hrecord ⟨hprev, hdead, hsettled, hvalid, hfresh, href0, href1⟩
  exact ⟨t, s.idealRecord gb d codes, hnext, hdone, fun x => congrArg (SMap.get 0#8 x) hmem, rfl, rfl,
    fun m hm => getLsbD_maskBits _ hm, hmasks⟩

end Sys2Proof.Machine

/-! ## The scratchpad: fills, copies and accesses from outside

SUPPORT. What a write without read errors and a tag action change of the state (R246, R249, R250, R258); the answer to a transfer's
access at a bench (R257); the bank rows of a byte range (R245), and the write of a region row by row under its tags (R250, R252,
R256). -/

namespace Sys2Proof.Machine

open Sys2Proof

/-! ### What writes and tag actions change of the state -/

theorem State.storeBytes_eq (s : State) (a : Nat) (bs : List Byte) : ∃ m, s.storeBytes a bs = { s with mem := m } := by
  induction bs generalizing s a with
  | nil => exact ⟨s.mem, rfl⟩
  | cons b r ih => exact ih (s.store a b) (a + 1)

/-- A write that meets no read error poisons no granule (R258). -/
theorem State.writeGranule_eq (s : State) (gb lo len g : Nat) :
    ∃ w p, s.writeGranule gb [] lo len g = { s with writeback := w, poison := p } ∧
      ∀ k, s.poison.get false k = false → p.get false k = false := by
  simp only [State.writeGranule]
  split
  · refine ⟨_, _, rfl, fun k hk => ?_⟩
    by_cases hg : spadBase gb / 32 + g = k
    · rw [hg, SMap.get_put_same]
    · rw [SMap.get_put_other _ _ _ _ _ hg, hk]
  · split
    · exact ⟨_, _, rfl, fun _ hk => hk⟩
    · exact ⟨_, _, rfl, fun _ hk => hk⟩

theorem State.spadWrite_eq (s : State) (gb lo : Nat) (bs : List Byte) :
    ∃ m w p, s.spadWrite gb [] lo bs = { s with mem := m, writeback := w, poison := p } ∧
      ∀ k, s.poison.get false k = false → p.get false k = false := by
  have checked : ∀ (gs : List Nat) (u : State), ∃ w p, gs.foldl (fun t g => t.writeGranule gb [] lo bs.length g) u =
      { u with writeback := w, poison := p } ∧ ∀ k, u.poison.get false k = false → p.get false k = false := by
    intro gs
    induction gs with
    | nil => exact fun u => ⟨_, _, rfl, fun _ hk => hk⟩
    | cons g rest ih =>
      intro u
      obtain ⟨w, p, hone, hp⟩ := u.writeGranule_eq gb lo bs.length g
      obtain ⟨w', p', hrest, hp'⟩ := ih (u.writeGranule gb [] lo bs.length g)
      refine ⟨w', p', ?_, fun k hk => hp' k ?_⟩
      · rw [List.foldl_cons, hrest, hone]
      · rw [hone]
        exact hp k hk
  obtain ⟨w, p, heq, hp⟩ := checked (granules lo bs.length) s
  obtain ⟨m, hm⟩ := State.storeBytes_eq { s with writeback := w, poison := p } (spadBase gb + lo) bs
  exact ⟨m, w, p, by rw [State.spadWrite, heq, hm], hp⟩

theorem State.fillTags_eq (s : State) (gb first : Nat) (v : Bool) (n : Nat) : ∃ ts, s.fillTags gb first v n = { s with tags := ts } := by
  induction n with
  | zero => exact ⟨_, rfl⟩
  | succ n ih =>
    obtain ⟨ts, h⟩ := ih
    exact ⟨_, by rw [State.fillTags, h, State.setTag]⟩

theorem State.setTags_eq (s : State) (gb first : Nat) (v : Bool) (n : Nat) :
    ∃ ts rs, s.setTags gb first v n = { s with tags := ts, regs := rs } := by
  obtain ⟨ts, h⟩ := s.fillTags_eq gb first v n
  rw [State.setTags, h]
  split
  · exact ⟨_, _, rfl⟩
  · exact ⟨_, _, rfl⟩

/-- A tag action changes tags and registers alone. -/
theorem State.regionTags_eq (s : State) (gb : Nat) (r : Region) : ∃ ts rs, s.regionTags gb r = { s with tags := ts, regs := rs } := by
  rw [State.regionTags]
  repeat' split
  · exact s.setTags_eq ..
  · exact ⟨_, _, rfl⟩
  · exact s.setTags_eq ..
  · exact ⟨_, _, rfl⟩

/-! ### Transfers and their answers -/

/-- A transfer that is under way takes the answer. -/
theorem State.resp_respond {s : State} {id : Nat} {x : Xfer} (h : s.xfer id = some x) (r : XResp) :
    ((s.respond id r).xfer id).map Xfer.resp = some (some r) := by
  have answered : ∀ l : List Xfer, l.find? (fun y => y.id == id) = some x →
      ((l.map (fun y => if y.id = id then { y with resp := some r } else y)).find? (fun y => y.id == id)).map Xfer.resp =
        some (some r) := by
    intro l
    induction l with
    | nil => simp
    | cons y rest ih =>
      intro hl
      by_cases hy : y.id = id
      · simp [hy]
      · rw [List.find?_cons_of_neg (by simpa using hy)] at hl
        simpa [hy] using ih hl
  exact answered s.xfers h

theorem State.xfer_of_xfers {s t : State} (h : t.xfers = s.xfers) (id : Nat) : t.xfer id = s.xfer id := by
  rw [State.xfer, State.xfer, h]

theorem Xfer.id_of_xfer {s : State} {id : Nat} {x : Xfer} (h : s.xfer id = some x) : x.id = id := by
  simpa using List.find?_some h

/-! ### Accesses from outside (R257) -/

/-- A read of granules without poison, met by no error, answers their bytes. -/
theorem State.remoteRead_sound {s : State} {gb off len : Nat} (h : s.sound gb off len = true) (act : Nat) :
    s.remoteRead gb [] off len act =
      ((s.bump Reg.SPAD_REMOTE_RD_COUNT gb (rowPieces off len).length).regionTags gb ⟨off, len, false, act⟩,
        some (s.bytes (spadBase gb + off) len)) := by
  unfold State.remoteRead
  extract_lets go r t
  have clean : ∀ gs : List Nat, (∀ g ∈ gs, s.poisoned gb g = false) → gs.foldl go (s, false) = (s, false) := by
    intro gs
    induction gs with
    | nil => exact fun _ => rfl
    | cons g rest ih =>
      intro hgs
      have one : go (s, false) g = (s, false) := by simp [go, hgs g List.mem_cons_self, State.eccRead]
      rw [List.foldl_cons, one]
      exact ih (fun x hx => hgs x (List.mem_cons_of_mem _ hx))
  have hr : r = (s, false) := clean _ (by simpa [State.sound] using h)
  have mem : t.mem = s.mem := (State.regionTags_mem ..).trans (by rw [hr]; rfl)
  have bytes : t.bytes (spadBase gb + off) len = s.bytes (spadBase gb + off) len := by
    simp only [State.bytes, State.byte, mem]
  rw [bytes]
  simp only [t, hr]
  rfl

theorem State.bytes_remoteWrite (s : State) (gb : Nat) (ecc : List (Nat × Ecc)) (off act : Nat) (bs : List Byte) :
    (s.remoteWrite gb ecc off bs act).bytes (spadBase gb + off) bs.length = bs :=
  List.ext_getElem (by simp [State.bytes]) (fun k _ hk => by simpa [State.bytes] using s.byte_remoteWrite_in gb ecc off k act bs hk)

theorem State.remoteWrite_frame (s : State) (gb off act : Nat) (bs : List Byte) :
    (s.remoteWrite gb [] off bs act).xfers = s.xfers ∧ (s.remoteWrite gb [] off bs act).remoteWait = s.remoteWait := by
  obtain ⟨m, w, p, hw, -⟩ := s.spadWrite_eq gb off bs
  obtain ⟨ts, rs, ht⟩ := ((s.spadWrite gb [] off bs).bump Reg.SPAD_REMOTE_WR_COUNT gb (rowPieces off bs.length).length).regionTags_eq gb
    ⟨off, bs.length, true, act⟩
  rw [State.remoteWrite, ht, hw]
  exact ⟨rfl, rfl⟩

section
variable {s : State} {gb id off : Nat} {x : Xfer} (hx : s.xfer id = some x) (hplace : placeOf x.ext = .spad gb off)
include hx hplace

/-- A transfer's read that is served answers the bytes and changes none. -/
theorem State.serve_get (hkind : x.kind = .get) (hsound : s.sound gb off x.len = true) :
    s.sameMemory (s.serve gb [] x) ∧
      ((s.serve gb [] x).xfer id).map Xfer.resp = some (some (.data (s.bytes (spadBase gb + off) x.len))) := by
  obtain rfl := Xfer.id_of_xfer hx
  let u := (s.bump Reg.SPAD_REMOTE_RD_COUNT gb (rowPieces off x.len).length).regionTags gb ⟨off, x.len, false, x.rtag⟩
  have served : s.serve gb [] x = u.respond x.id (.data (s.bytes (spadBase gb + off) x.len)) := by
    simp only [State.serve, hplace, hkind, if_true, State.remoteRead_sound hsound, u]
  have mem : u.mem = s.mem := State.regionTags_mem ..
  obtain ⟨ts, rs, ht⟩ := (s.bump Reg.SPAD_REMOTE_RD_COUNT gb (rowPieces off x.len).length).regionTags_eq gb
    ⟨off, x.len, false, x.rtag⟩
  have under : u.xfer x.id = some x := (State.xfer_of_xfers (congrArg State.xfers ht) x.id).trans hx
  rw [served]
  exact ⟨fun a => congrArg (SMap.get 0#8 a) mem, State.resp_respond under _⟩

/-- A transfer's write that is served is acknowledged. -/
theorem State.serve_put (hkind : x.kind = .put) :
    s.serve gb [] x = (s.remoteWrite gb [] off x.data x.rtag).respond id .ack ∧
      ((s.serve gb [] x).xfer id).map Xfer.resp = some (some .ack) := by
  have served : s.serve gb [] x = (s.remoteWrite gb [] off x.data x.rtag).respond id .ack := by
    simp [State.serve, hplace, hkind, Xfer.id_of_xfer hx]
  have under : (s.remoteWrite gb [] off x.data x.rtag).xfer id = some x :=
    (State.xfer_of_xfers (s.remoteWrite_frame gb off x.rtag x.data).1 id).trans hx
  exact ⟨served, by rw [served, State.resp_respond under]⟩

end

/-- A refused access shows in the scratchpad's LAST_FAULT (R257, R260). -/
theorem State.remoteDenied_frame {s : State} {id : Nat} {x : Xfer} (hx : s.xfer id = some x) (gb info0 : Nat) :
    ((s.benchReport gb 31 0x0510 info0).respond id .denied).mem = s.mem ∧
      (((s.benchReport gb 31 0x0510 info0).respond id .denied).xfer id).map Xfer.resp = some (some .denied) ∧
      ((s.benchReport gb 31 0x0510 info0).respond id .denied).rd Reg.SPAD_STATUS_LAST_FAULT gb = 0x0510 := by
  have under : (s.benchReport gb 31 0x0510 info0).xfer id = some x :=
    (State.xfer_of_xfers (State.benchReport_xfers ..) id).trans hx
  refine ⟨State.benchReport_mem .., State.resp_respond under _, ?_⟩
  calc (s.benchReport gb 31 0x0510 info0).rd Reg.SPAD_STATUS_LAST_FAULT gb
      = (s.noteFault gb 31 0x0510).rd Reg.SPAD_STATUS_LAST_FAULT gb := s.benchReport_rd (by decide) ..
    _ = (s.wr Reg.SPAD_STATUS_LAST_FAULT gb 0x0510).rd Reg.SPAD_STATUS_LAST_FAULT gb := rfl
    _ = 0x0510 := State.rd_wr_same ..

/-- The transfer `id` has requested bytes from `off` on of the scratchpad of a bench of this device, whose clock runs; it has neither
been answered nor is it held there. -/
structure State.Arriving (s : State) (gb id : Nat) (x : Xfer) (off : Nat) : Prop where
  bench : gb < 2560
  xfer : s.xfer id = some x
  tgt : x.tgt = 0
  phase : x.phase = .requested
  place : placeOf x.ext = .spad gb off
  clock : s.clockStopped gb = false
  resp : x.resp = none
  fresh : (s.remoteWait.get [] gb).contains id = false

/-- The command by which the access of a transfer reaches a bench. -/
def Xfer.access (x : Xfer) (gb id : Nat) : Instr := if x.kind = .get then .remoteRead gb id [] else .remoteWrite gb id []

section
variable {s : State} {gb id off : Nat} {x : Xfer} (h : s.Arriving gb id x off)
include h

/-- What happens to a requested access where it arrives: it waits behind a blocked port, is refused, is held or is served. -/
theorem State.Arriving.exec_access : exec (x.access gb id) s = .next
    (if s.portBlocked gb then s.holdRemote gb id
      else if s.refuses x.gb gb then (s.benchReport gb 31 0x0510 x.ext).respond id .denied
      else if s.remoteBlocks gb off x then s.holdRemote gb id else s.serve gb [] x) := by
  have arrive : ∀ get : Bool, (x.kind == XKind.get) = get → s.remoteArrive gb id get [] =
      if s.portBlocked gb then s.holdRemote gb id
      else if s.refuses x.gb gb then (s.benchReport gb 31 0x0510 x.ext).respond id .denied
      else if s.remoteBlocks gb off x then s.holdRemote gb id else s.serve gb [] x := by
    intro get hget
    simp only [State.remoteArrive, h.xfer, h.place, h.tgt, h.phase, h.resp, h.clock, h.fresh, hget]
    simp
  rw [Xfer.access]
  split
  next hkind => exact (okIf_bench h.bench _).trans (congrArg _ (arrive true (by simp [hkind])))
  next hkind => exact (okIf_bench h.bench _).trans (congrArg _ (arrive false (by simpa using hkind)))

theorem State.Arriving.exec_refused (hport : (s.remoteWait.get [] gb).length ≤ 8) (hrefuse : s.refuses x.gb gb = true) :
    exec (x.access gb id) s = .next ((s.benchReport gb 31 0x0510 x.ext).respond id .denied) := by
  have free : s.portBlocked gb = false := by simpa [State.portBlocked] using hport
  simp [h.exec_access, free, hrefuse]

theorem State.Arriving.exec_held (hrefuse : s.refuses x.gb gb = false) (hblock : s.remoteBlocks gb off x = true) :
    exec (x.access gb id) s = .next (s.holdRemote gb id) := by
  simp [h.exec_access, hrefuse, hblock]

theorem State.Arriving.exec_served (hport : (s.remoteWait.get [] gb).length ≤ 8) (hrefuse : s.refuses x.gb gb = false)
    (hblock : s.remoteBlocks gb off x = false) : exec (x.access gb id) s = .next (s.serve gb [] x) := by
  have free : s.portBlocked gb = false := by simpa [State.portBlocked] using hport
  simp [h.exec_access, free, hrefuse, hblock]

end

/-- The oldest held access proceeds where its tag allows it and its bench does not refuse it. -/
theorem State.remoteProceed_head {s : State} {gb id off : Nat} {x : Xfer} {rest : List Nat} (hx : s.xfer id = some x)
    (hplace : placeOf x.ext = .spad gb off) (hq : s.remoteWait.get [] gb = id :: rest) (hfresh : id ∉ rest)
    (hrefuse : s.refuses x.gb gb = false) (hblock : s.remoteBlocks gb off x = false) :
    s.remoteProceed gb [] = ({ s with remoteWait := s.remoteWait.put [] gb rest } : State).serve gb [] x := by
  let u : State := { s with remoteWait := s.remoteWait.put [] gb rest }
  have refuses : u.refuses x.gb gb = false := hrefuse
  have under : u.xfer id = some x := hx
  have others : (id :: rest).filter (fun k => k != id) = rest := by
    rw [List.filter_cons_of_neg (by simp), List.filter_eq_self]
    intro k hk
    simpa using fun e : k = id => hfresh (e ▸ hk)
  unfold State.remoteProceed
  extract_lets q ready
  have found : (q.take 9).find? ready = some id := by
    have allowed : ready id = true := by simp [ready, hx, hplace, hblock]
    rw [show q = id :: rest from hq, List.take_succ_cons, List.find?_cons_of_pos allowed]
  rw [found]
  dsimp only
  rw [show q = id :: rest from hq, others]
  split
  next missing => cases missing.symm.trans under
  next y present =>
    obtain rfl : y = x := Option.some.inj (present.symm.trans under)
    exact if_neg (Bool.eq_false_iff.1 refuses)

/-- Settles O18: an arriving access meets one of four fates; a held one whose tag allows it proceeds. -/
theorem remoteAccessesAreServedHeldOrRefused : Obligations.RemoteAccessesAreServedHeldOrRefused := by
  intro s gb id x off hgb hx htgt hphase hplace hclock
  refine ⟨fun _ hresp hfresh => ?_, fun rest hq hrest hrefuse hblock hkind => ?_⟩
  · have arriving : s.Arriving gb id x off := ⟨hgb, hx, htgt, hphase, hplace, hclock, hresp, hfresh⟩
    refine ⟨fun hrefuse hport => ⟨_, arriving.exec_refused hport hrefuse, State.remoteDenied_frame hx gb x.ext⟩,
      fun hrefuse hblock => arriving.exec_held hrefuse hblock, fun hrefuse hblock hport => ⟨fun hkind hsound => ?_, fun hkind => ?_⟩⟩
    · have reads : x.access gb id = .remoteRead gb id [] := if_pos hkind
      exact ⟨_, reads ▸ arriving.exec_served hport hrefuse hblock, State.serve_get hx hplace hkind hsound⟩
    · have writes : x.access gb id = .remoteWrite gb id [] := if_neg (by simp [hkind])
      obtain ⟨served, acked⟩ := State.serve_put hx hplace hkind
      refine ⟨_, writes ▸ arriving.exec_served hport hrefuse hblock, acked, ?_, ?_⟩
      · rw [served]
        exact fun a ha => s.byte_remoteWrite_other gb [] off a x.rtag x.data ha
      · rw [served]
        exact s.bytes_remoteWrite gb [] off x.rtag x.data
  · let u : State := { s with remoteWait := s.remoteWait.put [] gb rest }
    have under : u.xfer id = some x := hx
    obtain ⟨served, acked⟩ := State.serve_put under hplace hkind
    refine ⟨u.serve gb [] x, ?_, ?_, acked, ?_⟩
    · calc exec (.remoteWaitProceed gb []) s = execRemoteWaitProceed gb [] s := rfl
        _ = _ := by
          rw [execRemoteWaitProceed, hclock, State.remoteProceed_head hx hplace hq hrest hrefuse hblock]
          exact okIf_bench hgb _
    · rw [served]
      exact (congrArg (SMap.get [] gb) (u.remoteWrite_frame gb off x.rtag x.data).2).trans (SMap.get_put_same ..)
    · rw [served]
      exact u.bytes_remoteWrite gb [] off x.rtag x.data

/-! ### The bank rows of a byte range (R245) -/

theorem mem_rowPieces {lo len : Nat} {p : Nat × Nat} : p ∈ rowPieces lo len ↔
    len ≠ 0 ∧ ∃ r, lo / 128 ≤ r ∧ r ≤ (lo + len - 1) / 128 ∧
      p = (max lo (128 * r), min (lo + len) (128 * r + 128) - max lo (128 * r)) := by
  simp only [rowPieces, List.mem_map, mem_upFrom, eq_comm (b := p)]
  split
  next hlen => exact ⟨fun ⟨r, hr, _⟩ => absurd hr (by omega), fun ⟨hne, _⟩ => absurd hlen hne⟩
  next hlen => exact ⟨fun ⟨r, hr, e⟩ => ⟨hlen, r, by omega, by omega, e⟩, fun ⟨_, r, hlo, hhi, e⟩ => ⟨r, by omega, e⟩⟩

theorem rowPieces_inside {lo len : Nat} {p : Nat × Nat} (h : p ∈ rowPieces lo len) : lo ≤ p.1 ∧ p.1 + p.2 ≤ lo + len := by
  obtain ⟨hlen, r, hlo, hhi, rfl⟩ := mem_rowPieces.1 h
  dsimp only
  omega

theorem rowPieces_cover {lo len a : Nat} (hlo : lo ≤ a) (hhi : a < lo + len) : ∃ p ∈ rowPieces lo len, p.1 ≤ a ∧ a < p.1 + p.2 :=
  ⟨_, mem_rowPieces.2 ⟨by omega, a / 128, by omega, by omega, rfl⟩, by dsimp only; omega, by dsimp only; omega⟩

theorem rowPieces_ascend (lo len : Nat) : (rowPieces lo len).Pairwise (fun p q => p.1 + p.2 ≤ q.1) := by
  rw [rowPieces, upFrom, List.map_map, List.pairwise_map]
  refine List.pairwise_lt_range.imp (fun {i j} hij => ?_)
  dsimp only [Function.comp]
  omega

/-- Whole granules are cut into whole granules. -/
theorem rowPieces_granular {g n : Nat} {p : Nat × Nat} (h : p ∈ rowPieces (32 * g) (32 * n)) : p.1 % 32 = 0 ∧ p.2 % 32 = 0 := by
  obtain ⟨hlen, r, hlo, hhi, rfl⟩ := mem_rowPieces.1 h
  dsimp only
  omega

/-! ### Tags of a region and of its parts (R250, R253) -/

theorem tagSelf_false {rs : List Region} : tagSelf rs = false ↔ ∀ a ∈ rs, a.wr = false → a.act ≠ 0 →
    ∀ b ∈ rs, b.wr = true → b.act ≠ 0 → ∀ k ∈ a.slots, k ∉ b.slots := by
  simp only [tagSelf, List.any_eq_false, Bool.and_eq_true, Bool.not_eq_true', bne_iff_ne, List.any_eq_true, List.contains_iff_mem, not_and,
    not_exists]
  exact ⟨fun h a ha hw hact b hb hwb hactb k hk => h a ha ⟨hw, hact⟩ b hb ⟨hwb, hactb⟩ k hk,
    fun h a ha ⟨hw, hact⟩ b hb ⟨hwb, hactb⟩ k hk => h a ha hw hact b hb hwb hactb k hk⟩

/-- The bytes of a region that a piece of its range names. -/
def Region.part (r : Region) (p : Nat × Nat) : Region := { r with lo := p.1, len := p.2 }

section
variable {r : Region} {p : Nat × Nat} (h : r.lo ≤ p.1 ∧ p.1 + p.2 ≤ r.lo + r.len)
include h

theorem Region.slots_part {k : Nat} (hk : k ∈ (r.part p).slots) : k ∈ r.slots := by
  simp only [Region.mem_slots, Region.part] at hk ⊢
  omega

/-- A part of a region waits for no tag that the region does not wait for. -/
theorem State.regionWait_part {s : State} {gb : Nat} (hwait : s.regionWait gb r = none) : s.regionWait gb (r.part p) = none :=
  State.regionWait_within hwait rfl rfl (fun _ => Region.slots_part h)

end

/-- Regions whose slots lie in those of others of the same kind clash no more than these do. -/
theorem tagSelf_of_parts {rs bigs : List Region} (hbig : tagSelf bigs = false)
    (hparts : ∀ r ∈ rs, ∃ b ∈ bigs, r.wr = b.wr ∧ r.act = b.act ∧ ∀ k ∈ r.slots, k ∈ b.slots) : tagSelf rs = false := by
  refine tagSelf_false.2 (fun a ha hw hact b hb hwb hactb k hka hkb => ?_)
  obtain ⟨a', ha', hwr, hact', hslots⟩ := hparts a ha
  obtain ⟨b', hb', hwrb, hactb', hslotsb⟩ := hparts b hb
  exact tagSelf_false.1 hbig a' ha' (hwr ▸ hw) (hact' ▸ hact) b' hb' (hwrb ▸ hwb) (hactb' ▸ hactb) k (hslots k hka) (hslotsb k hkb)

/-! ### A region written piece by piece (R250, R252, R256) -/

@[simp] theorem State.surround_sregs (s : State) (gb : Nat) (env : EngEnv) : (s.surround gb env).sregs = s.sregs := by
  have ports : ∀ (conf : List (Nat × Nat × Nat)) (u : State), (u.lostPorts gb conf).sregs = u.sregs := by
    intro conf
    induction conf with
    | nil => exact fun _ => rfl
    | cons c rest ih => exact fun u => ih _
  exact ports env.conf _

theorem State.foldl_regionTags_eq (s : State) (gb : Nat) (l : List Region) :
    ∃ ts rs, l.foldl (fun t r => t.regionTags gb r) s = { s with tags := ts, regs := rs } := by
  induction l generalizing s with
  | nil => exact ⟨_, _, rfl⟩
  | cons r rest ih =>
    obtain ⟨ts, rs, h⟩ := ih (s.regionTags gb r)
    obtain ⟨ts', rs', h'⟩ := s.regionTags_eq gb r
    exact ⟨ts, rs, by rw [List.foldl_cons, h, h']⟩

theorem mem_tagged_append {rs now : List Region} {x : Region} : x ∈ tagged (rs ++ now) ↔ x ∈ tagged rs ∨ x ∈ tagged now := by
  simp [tagged]

theorem State.pacedTags_eq (s : State) (gb : Nat) (plan : List (List Region)) (k : Nat) :
    ∃ ts rs, s.pacedTags gb plan k = { s with tags := ts, regs := rs } := s.foldl_regionTags_eq gb _

/-- An access changes the tags of the slots that its regions with a tag action touch, and no other. -/
theorem State.tag_pacedTags_untouched (s : State) (gb : Nat) {plan : List (List Region)} {k q : Nat}
    (hq : ∀ x ∈ tagged (plan.getD k []), x.lo ≠ 1024 * q) : (s.pacedTags gb plan k).tag gb q = s.tag gb q := by
  refine s.tag_foldl_regionTags gb (fun x hx => ?_)
  have mine := (mem_freshSlots.1 hx).1
  obtain ⟨r, -, -, j, -, rfl⟩ := mem_tagged.1 mine
  rw [Region.slots_slot, List.mem_singleton]
  rintro rfl
  exact hq _ mine rfl

/-- The bytes that a piece takes where the byte at offset `a` of the scratchpad is to be `val a`. -/
def imageBytes (val : Nat → Byte) (w : Nat × Nat) : List Byte := (List.range w.2).map (fun j => val (w.1 + j))

@[simp] theorem length_imageBytes (val : Nat → Byte) (w : Nat × Nat) : (imageBytes val w).length = w.2 := by simp [imageBytes]

/-- `t` is `s` with the pieces `ws` of a bench's scratchpad written as `val` says, by accesses to the regions `rs`. -/
structure State.Wrote (s : State) (gb : Nat) (val : Nat → Byte) (ws : List (Nat × Nat)) (rs : List Region) (t : State) : Prop where
  sregs : t.sregs = s.sregs
  poison : ∀ k, s.poison.get false k = false → t.poison.get false k = false
  tags : ∀ k, (∀ x ∈ tagged rs, x.lo ≠ 1024 * k) → t.tag gb k = s.tag gb k
  inside : ∀ w ∈ ws, ∀ a, w.1 ≤ a → a < w.1 + w.2 → t.byte (spadBase gb + a) = val a
  outside : ∀ a, (∀ w ∈ ws, a < spadBase gb + w.1 ∨ spadBase gb + w.1 + w.2 ≤ a) → t.byte a = s.byte a

theorem State.Wrote.begin (s : State) (gb : Nat) (val : Nat → Byte) (env : EngEnv) : s.Wrote gb val [] [] (s.surround gb env) := by
  have kept : s.ParKeeps (s.surround gb env) := s.surround_keeps gb env
  exact ⟨s.surround_sregs gb env, fun k hk => by rw [kept.poison, hk], fun k _ => by rw [State.tag, State.tag, State.surround_tags],
    fun _ hw => absurd hw List.not_mem_nil, fun a _ => congrArg (SMap.get 0#8 a) kept.mem⟩

section
variable {s t : State} {gb : Nat} {val : Nat → Byte} {ws : List (Nat × Nat)} {rs now : List Region} (h : s.Wrote gb val ws rs t)
include h

/-- One more piece written, with the tag actions of its access and its step recorded. -/
theorem State.Wrote.write (w : Nat × Nat) {plan : List (List Region)} {k : Nat} (hnow : plan.getD k [] = now) (e : Entry) (n : Nat) :
    s.Wrote gb val (ws ++ [w]) (rs ++ now) (((t.spadWrite gb [] w.1 (imageBytes val w)).pacedTags gb plan k).staged gb e n) := by
  subst hnow
  let u := t.spadWrite gb [] w.1 (imageBytes val w)
  obtain ⟨m, wb, p, hw, hp⟩ : ∃ m wb p, u = { t with mem := m, writeback := wb, poison := p } ∧ _ := t.spadWrite_eq gb w.1 _
  obtain ⟨ts, rg, paced⟩ := u.pacedTags_eq gb plan k
  have byte : ∀ a, ((u.pacedTags gb plan k).staged gb e n).byte a = u.byte a := fun a => by rw [paced]; rfl
  refine ⟨?_, fun g hg => ?_, fun q hq => ?_, fun x hx a hlo hhi => ?_, fun a ha => ?_⟩
  · calc (u.pacedTags gb plan k).sregs = u.sregs := by rw [paced]
      _ = t.sregs := by rw [hw]
      _ = s.sregs := h.sregs
  · calc (u.pacedTags gb plan k).poison.get false g = u.poison.get false g := by rw [paced]
      _ = p.get false g := by rw [hw]
      _ = false := hp g (h.poison g hg)
  · calc (u.pacedTags gb plan k).tag gb q = u.tag gb q :=
          u.tag_pacedTags_untouched gb (fun x hx => hq x (mem_tagged_append.2 (.inr hx)))
      _ = t.tag gb q := by rw [hw]; rfl
      _ = s.tag gb q := h.tags q (fun x hx => hq x (mem_tagged_append.2 (.inl hx)))
  · rw [byte]
    by_cases hin : w.1 ≤ a ∧ a < w.1 + w.2
    · obtain ⟨j, rfl⟩ := Nat.exists_eq_add_of_le hin.1
      rw [← Nat.add_assoc, State.byte_spadWrite_in _ _ _ _ j _ (by rw [length_imageBytes]; omega)]
      simp [imageBytes]
    · rw [State.byte_spadWrite_other _ _ _ _ _ _ (by rw [length_imageBytes]; omega)]
      rcases List.mem_append.1 hx with hx | hx
      · exact h.inside x hx a hlo hhi
      · obtain rfl := List.mem_singleton.1 hx
        exact absurd ⟨hlo, hhi⟩ hin
  · rw [byte, State.byte_spadWrite_other _ _ _ _ _ _ (by rw [length_imageBytes]; exact ha w (by simp))]
    exact h.outside a (fun x hx => ha x (List.mem_append_left _ hx))

/-- The slots that an access is the first to touch still have their tags of the beginning: no access before it touched them in its
own direction, and none in the other, with a tag action, may touch them at all (R253). -/
theorem State.Wrote.free (hself : tagSelf (rs ++ now) = false) (hwait : ∀ r ∈ now, s.regionWait gb r = none) :
    ∀ x ∈ freshSlots now rs, t.regionWait gb x = none := by
  refine State.freshSlots_free hwait (fun r _ k hk => h.tags k (fun x hx hlo => ?_))
  obtain ⟨hnow, hprior⟩ := mem_freshSlots.1 hk
  obtain ⟨a, ha, hact, j, hj, hslot⟩ := mem_tagged.1 hnow
  obtain ⟨b, hb, hactb, i, hi, rfl⟩ := mem_tagged.1 hx
  simp only [Region.slot, Region.mk.injEq] at hslot hlo
  obtain ⟨hkj, -, hwr, -⟩ := hslot
  obtain rfl : j = k := by omega
  obtain rfl : i = j := by omega
  have other : b.wr ≠ a.wr := by
    have := hprior _ hx
    simpa [Region.slot, hwr] using this
  have clash := tagSelf_false.1 hself
  cases hwa : a.wr with
  | false =>
    exact clash a (List.mem_append_right _ ha) hwa hact b (List.mem_append_left _ hb) (by simpa [hwa] using other) hactb i hj hi
  | true =>
    exact clash b (List.mem_append_left _ hb) (by simpa [hwa] using other) hactb a (List.mem_append_right _ ha) hwa hact i hi hj

/-- Pieces that make up a range leave the range as `val` says, and no other byte changed. -/
theorem State.Wrote.whole {lo len : Nat} (hin : ∀ w ∈ ws, lo ≤ w.1 ∧ w.1 + w.2 ≤ lo + len)
    (hcover : ∀ a, lo ≤ a → a < lo + len → ∃ w ∈ ws, w.1 ≤ a ∧ a < w.1 + w.2) :
    s.sameOutside t (spadBase gb + lo) len ∧ ∀ k, k < len → t.byte (spadBase gb + lo + k) = val (lo + k) := by
  refine ⟨fun a ha => h.outside a (fun w hw => ?_), fun k hk => ?_⟩
  · have := hin w hw
    omega
  · obtain ⟨w, hw, hlo, hhi⟩ := hcover (lo + k) (by omega) (by omega)
    rw [Nat.add_assoc]
    exact h.inside w hw _ hlo hhi

end

/-- The accesses of an instruction, one for each piece `p`: each touches the regions `regs p`, which may start, and writes the piece
`place p` as `val` says. -/
theorem writeRows_run {s u : State} {gb : Nat} {e : Entry} {val : Nat → Byte} {ps : List (Nat × Nat)} {regs : Nat × Nat → List Region}
    {place : Nat × Nat → Nat × Nat} {body : Nat × Nat → Act Unit} (hu : s.Wrote gb val [] [] u)
    (hself : tagSelf (ps.flatMap regs) = false) (hwait : ∀ p ∈ ps, ∀ r ∈ regs p, s.regionWait gb r = none)
    (hbody : ∀ before p after, ps = before ++ p :: after → ∀ t, s.Wrote gb val (before.map place) (before.flatMap regs) t →
      (body p).run t = (.ok (), t.spadWrite gb [] (place p).1 (imageBytes val (place p)))) :
    ∃ t, (inSteps gb e 0 (ps.mapIdx (fun k p => paced gb (ps.map regs) k (body p)))).run u = (.ok (), t) ∧
      s.Wrote gb val (ps.map place) (ps.flatMap regs) t := by
  let steps := ps.mapIdx (fun k p => paced gb (ps.map regs) k (body p))
  have count : steps.length = ps.length := List.length_mapIdx
  obtain ⟨t, hrun, wrote⟩ := inSteps_run (gb := gb) (e := e)
    (fun i t => s.Wrote gb val ((ps.take i).map place) ((ps.take i).flatMap regs) t) steps (k := 0) hu (fun i hi v hv => by
      rw [Nat.zero_add] at hv ⊢
      have hi' : i < ps.length := count ▸ hi
      have cut : ps = ps.take i ++ ps[i] :: ps.drop (i + 1) := by simp
      have now : (ps.map regs).getD i [] = regs ps[i] := by simp [List.getD_eq_getElem?_getD, hi']
      have prior : ((ps.map regs).take i).flatten = (ps.take i).flatMap regs := by rw [← List.map_take, List.flatMap_def]
      have self : tagSelf ((ps.take i).flatMap regs ++ regs ps[i]) = false := tagSelf_of_parts hself (fun r hr => by
        refine ⟨r, ?_, rfl, rfl, fun _ hk => hk⟩
        rw [cut, List.flatMap_append, List.flatMap_cons]
        exact (List.mem_append.1 hr).elim (List.mem_append_left _) (fun hr => List.mem_append_right _ (List.mem_append_left _ hr)))
      refine ⟨(v.spadWrite gb [] (place ps[i]).1 (imageBytes val (place ps[i]))).pacedTags gb (ps.map regs) i, ?_, ?_⟩
      · simp only [steps, List.getElem_mapIdx]
        refine paced_run ?_ (hbody _ _ _ cut v hv)
        rw [now, prior]
        exact hv.free self (hwait _ (List.getElem_mem hi'))
      · rw [List.take_succ_eq_append_getElem hi', List.map_append, List.flatMap_append]
        simpa using hv.write (place ps[i]) now e (i + 1))
  simp only [Nat.zero_add, count, List.take_length] at wrote
  exact ⟨t, hrun, wrote⟩

/-! ### FILL and COPY (R256, R306) -/

/-- An empty FILL or COPY stores nothing (R272). -/
theorem emptySpad_run {s : State} {gb : Nat} {rs : List Region} (hwait : ∀ r ∈ rs, s.regionWait gb r = none) (env : EngEnv) :
    ∃ t, (emptySpad gb rs).run (s.surround gb env) = (.ok (), t) ∧ t.mem = s.mem ∧ t.sregs = s.sregs := by
  let u := (s.surround gb env).bump Reg.SEQ_EMPTY_CNT_COUNT gb
  have free : rs.findSome? ((s.surround gb env).regionWait gb) = none := List.findSome?_eq_none_iff.2 (fun r hr =>
    (State.regionWait_of_tags (s.surround_tags gb env) gb r).trans (hwait r hr))
  obtain ⟨ts, rg, ht⟩ := u.foldl_regionTags_eq gb rs
  refine ⟨rs.foldl (fun t r => t.regionTags gb r) u, ?_, ?_, ?_⟩
  · rw [emptySpad, Act.run_bind_ok (awaitTags_free gb rs _ free)]
    rfl
  · rw [ht]
    exact (s.surround_keeps gb env).mem
  · rw [ht]
    exact s.surround_sregs gb env

/-- What a completed FILL or COPY leaves: the region it names holds the bytes of `val`, or everything is as before where it is empty. -/
def State.SpadDone (s t : State) (gb : Nat) (e : Entry) (lo : Nat) (val : Nat → Byte) : Prop :=
  t.completed gb e ∧ t.sregs = s.sregs ∧ (e.empty = true → s.sameMemory t) ∧
    (e.empty = false → s.sameOutside t (spadBase gb + lo) (32 * e.spadLen) ∧
      ∀ k, k < 32 * e.spadLen → t.byte (spadBase gb + lo + k) = val (lo + k))

/-- The pattern's bytes, over and over. -/
theorem flatMap_leBytes (m v : Nat) : (List.range m).flatMap (fun _ => leBytes 4 v) =
    (List.range (4 * m)).map (fun j => BitVec.ofNat 8 (v / 256 ^ (j % 4))) := by
  induction m with
  | zero => rfl
  | succ m ih =>
    have four : 4 * (m + 1) = 4 * m + 1 + 1 + 1 + 1 := by omega
    rw [List.range_succ, List.flatMap_append, ih]
    simp [four, List.range_succ, leBytes, Nat.div_div_eq_div_mul, Nat.add_assoc]

section
variable {s : State} {gb : Nat} {env : EngEnv} {e : Entry}

/-- The work of an executing FILL or COPY that is not empty, over the bank rows `ps` of its source, and its end. -/
theorem spadRows_run (hex : s.executes gb 18 e = true) (hclean : e.clean = true) (hunit : unitOf e.word = 18)
    (hempty : e.empty = false) {val : Nat → Byte} {lo : Nat} {ps : List (Nat × Nat)} {regs : Nat × Nat → List Region}
    {place : Nat × Nat → Nat × Nat} {body : Nat × Nat → Act Unit} (hself : tagSelf (ps.flatMap regs) = false)
    (hwait : ∀ p ∈ ps, ∀ r ∈ regs p, s.regionWait gb r = none)
    (hbody : ∀ before p after, ps = before ++ p :: after → ∀ t, s.Wrote gb val (before.map place) (before.flatMap regs) t →
      (body p).run t = (.ok (), t.spadWrite gb [] (place p).1 (imageBytes val (place p))))
    (hin : ∀ p ∈ ps, lo ≤ (place p).1 ∧ (place p).1 + (place p).2 ≤ lo + 32 * e.spadLen)
    (hcover : ∀ a, lo ≤ a → a < lo + 32 * e.spadLen → ∃ p ∈ ps, (place p).1 ≤ a ∧ a < (place p).1 + (place p).2) :
    ∃ t, (goOn gb e 0 (ps.mapIdx (fun k p => paced gb (ps.map regs) k (body p)))).run (s.surround gb env) = (.ok (), t) ∧
      s.SpadDone (t.finished gb 18 e) gb e lo val := by
  obtain ⟨-, hcur, -⟩ := State.current_of_executes hex
  obtain ⟨-, -, -, hstage, -⟩ := Entry.clean_iff.1 hclean
  obtain ⟨t, hrun, wrote⟩ := writeRows_run (e := e) (.begin s gb val env) hself hwait hbody
  obtain ⟨houtside, hinside⟩ := wrote.whole (lo := lo) (len := 32 * e.spadLen) (List.forall_mem_map.2 hin)
    (fun a hlo hhi => by
      obtain ⟨p, hp, hat⟩ := hcover a hlo hhi
      exact ⟨place p, List.mem_map_of_mem hp, hat⟩)
  have byte : ∀ a, (t.finished gb 18 e).byte a = t.byte a := fun a => congrArg (SMap.get 0#8 a) (t.finished_keeps gb 18 e).mem
  refine ⟨t, goOn_run (hunit ▸ hcur) (s.surround_seqs gb env) hstage hrun, State.finished_completed _ gb 18 e, wrote.sregs,
    fun h => absurd h (by simp [hempty]), fun _ => ⟨fun a ha => (byte a).trans (houtside a ha),
      fun k hk => (byte _).trans (hinside k hk)⟩⟩

/-- An empty FILL or COPY, to its end. -/
theorem spadEmpty_done {rs : List Region} (hempty : e.empty = true) (hwait : ∀ r ∈ rs, s.regionWait gb r = none) (lo : Nat)
    (val : Nat → Byte) :
    ∃ t, (emptySpad gb rs).run (s.surround gb env) = (.ok (), t) ∧ s.SpadDone (t.finished gb 18 e) gb e lo val := by
  obtain ⟨t, hrun, hmem, hsregs⟩ := emptySpad_run hwait env
  exact ⟨t, hrun, State.finished_completed _ gb 18 e, hsregs,
    fun _ a => congrArg (SMap.get 0#8 a) ((t.finished_keeps gb 18 e).mem.trans hmem), fun h => absurd hempty (by simp [h])⟩

/-- The byte that a FILL stores at offset `a` of the scratchpad. -/
def Entry.fillByte (e : Entry) (a : Nat) : Byte := BitVec.ofNat 8 (fld e.vb 31 0 / 256 ^ ((a - e.fillRegion.lo) % 4))

/-- A bank row of a FILL takes whole patterns. -/
theorem Entry.fillRow_bytes {p : Nat × Nat} (hp : p ∈ rowPieces e.fillRegion.lo e.fillRegion.len) :
    (List.range (p.2 / 4)).flatMap (fun _ => leBytes 4 (fld e.vb 31 0)) = imageBytes e.fillByte p := by
  obtain ⟨hlo, hlen⟩ := rowPieces_granular hp
  have start := (rowPieces_inside hp).1
  have base : e.fillRegion.lo % 4 = 0 := by simp only [Entry.fillRegion]; omega
  have whole : 4 * (p.2 / 4) = p.2 := by omega
  rw [flatMap_leBytes, whole, imageBytes]
  refine List.map_congr_left (fun j _ => ?_)
  have phase : (p.1 + j - e.fillRegion.lo) % 4 = j % 4 := by omega
  rw [Entry.fillByte, phase]

/-- The work of a FILL after its checks. -/
def fillWork (gb : Nat) (env : EngEnv) (e : Entry) : Act Unit :=
  if e.empty then emptySpad gb [e.fillRegion]
  else goOn gb e 0 ((rowPieces e.fillRegion.lo e.fillRegion.len).mapIdx (fun k p =>
    paced gb ((rowPieces e.fillRegion.lo e.fillRegion.len).map (fun p => [e.fillRegion.part p])) k
      (spadPut gb env p.1 ((List.range (p.2 / 4)).flatMap (fun _ => leBytes 4 (fld e.vb 31 0))))))

theorem exec_fill (hex : s.executes gb 18 e = true) (hclean : e.clean = true) (hopc : opc e.word = 0x20)
    (hpast : e.fillRegion.past = false) {t : State} (hrun : (fillWork gb env e).run (s.surround gb env) = (.ok (), t)) :
    exec (.fill gb env) s = .next (t.finished gb 18 e) := by
  calc exec (.fill gb env) s = execFill gb env s := rfl
    _ = _ := runUnit_next hex (by simp [hopc]) (by
      rw [Act.run_bind_ok (frontChecks_run hclean gb env 0x0501 s)]
      exact (Act.run_bind_ok (Act.run_check hpast 0x0501 0 _)).trans hrun)

/-- The work of a FILL whose tags let it start, row by row. -/
theorem fillWork_run (hecc : env.ecc = []) (hex : s.executes gb 18 e = true) (hclean : e.clean = true) (hopc : opc e.word = 0x20)
    (hfree : s.regionWait gb e.fillRegion = none) :
    ∃ t, (fillWork gb env e).run (s.surround gb env) = (.ok (), t) ∧
      s.SpadDone (t.finished gb 18 e) gb e e.fillRegion.lo e.fillByte := by
  rw [fillWork]
  split
  next hempty => exact spadEmpty_done hempty (by simpa using hfree) _ _
  next hempty =>
    have writes : ∀ r ∈ (rowPieces e.fillRegion.lo e.fillRegion.len).flatMap (fun p => [e.fillRegion.part p]), r.wr = true := by
      simp only [List.mem_flatMap, List.mem_singleton]
      rintro r ⟨p, -, rfl⟩
      rfl
    refine spadRows_run hex hclean (by simp [unitOf, hopc]) (by simpa using hempty) (place := id)
      (tagSelf_false.2 (fun a ha hwr => by simp [writes a ha] at hwr)) (fun p hp r hr => ?_) (fun before p after hps t _ => ?_)
      (fun p hp => rowPieces_inside hp) (fun a hlo hhi => rowPieces_cover hlo hhi)
    · obtain rfl := List.mem_singleton.1 hr
      exact State.regionWait_part (rowPieces_inside hp) hfree
    · rw [Entry.fillRow_bytes (by rw [hps]; simp), spadPut, hecc]
      rfl

/-- The bank rows of a COPY's source, in the order in which they move. -/
def Entry.copyRows (e : Entry) : List (Nat × Nat) :=
  if e.copyDst.lo < e.copySrc.lo then rowPieces e.copySrc.lo e.copySrc.len else (rowPieces e.copySrc.lo e.copySrc.len).reverse

/-- Where a piece of a COPY's source moves to. -/
def Entry.copyTo (e : Entry) (p : Nat × Nat) : Nat × Nat := (p.1 - e.copySrc.lo + e.copyDst.lo, p.2)

/-- The byte that a COPY that begins in `s` stores at offset `a` of the scratchpad. -/
def State.copyByte (s : State) (gb : Nat) (e : Entry) (a : Nat) : Byte := s.byte (spadBase gb + (e.copySrc.lo + (a - e.copyDst.lo)))

theorem Entry.mem_copyRows {p : Nat × Nat} : p ∈ e.copyRows ↔ p ∈ rowPieces e.copySrc.lo e.copySrc.len := by
  rw [Entry.copyRows]
  split
  · rfl
  · exact List.mem_reverse

/-- No row of a COPY is overwritten before it is read: towards lower addresses the rows move lowest first, and highest first
otherwise. -/
theorem Entry.copyRows_intact : e.copyRows.Pairwise (fun q p =>
    p.1 + p.2 ≤ (e.copyTo q).1 ∨ (e.copyTo q).1 + (e.copyTo q).2 ≤ p.1) := by
  have ascend := rowPieces_ascend e.copySrc.lo e.copySrc.len
  rw [Entry.copyRows]
  split
  next hdown =>
    refine ascend.imp_of_mem (fun {q p} hq _ hqp => .inr ?_)
    have := rowPieces_inside hq
    simp only [Entry.copyTo]
    omega
  next hup =>
    rw [List.pairwise_reverse]
    refine ascend.imp_of_mem (fun {p q} _ hq hpq => .inl ?_)
    have := rowPieces_inside hq
    simp only [Entry.copyTo]
    omega

/-- A row of a COPY, read after the writes of the rows before it and written to its place. -/
theorem copyRow_run (hecc : env.ecc = []) (hsound : s.sound gb e.copySrc.lo e.copySrc.len = true)
    {before after : List (Nat × Nat)} {p : Nat × Nat} (hps : e.copyRows = before ++ p :: after) {t : State} {rs : List Region}
    (h : s.Wrote gb (s.copyByte gb e) (before.map e.copyTo) rs t) :
    (spadRead gb env p.1 p.2 >>= fun bs => spadPut gb env (e.copyTo p).1 bs).run t =
      (.ok (), t.spadWrite gb [] (e.copyTo p).1 (imageBytes (s.copyByte gb e) (e.copyTo p))) := by
  have inside := rowPieces_inside (Entry.mem_copyRows.1 (by rw [hps]; simp) : p ∈ rowPieces e.copySrc.lo e.copySrc.len)
  have intact := Entry.copyRows_intact (e := e)
  rw [hps, List.pairwise_append] at intact
  obtain ⟨-, -, intact⟩ := intact
  have sound : t.sound gb p.1 p.2 = true := by
    have part := State.sound_part hsound inside.1 inside.2
    simp only [State.sound, List.all_eq_true, Bool.not_eq_true'] at part ⊢
    exact fun g hg => h.poison _ (part g hg)
  have bytes : t.bytes (spadBase gb + p.1) p.2 = imageBytes (s.copyByte gb e) (e.copyTo p) := by
    refine List.map_congr_left (fun j hj => ?_)
    have hlt : j < p.2 := List.mem_range.1 hj
    have source : e.copySrc.lo + (p.1 - e.copySrc.lo + e.copyDst.lo + j - e.copyDst.lo) = p.1 + j := by omega
    calc t.byte (spadBase gb + p.1 + j) = s.byte (spadBase gb + p.1 + j) := h.outside _ (fun w hw => by
          obtain ⟨q, hq, rfl⟩ := List.mem_map.1 hw
          have := intact q hq p List.mem_cons_self
          omega)
      _ = s.copyByte gb e ((e.copyTo p).1 + j) := by rw [State.copyByte, Entry.copyTo, source, Nat.add_assoc]
  rw [Act.run_bind_ok (spadRead_run hecc sound), bytes, spadPut, hecc]
  rfl

/-- The work of a COPY after its checks. -/
def copyWork (gb : Nat) (env : EngEnv) (e : Entry) : Act Unit :=
  if e.empty then emptySpad gb [e.copySrc, e.copyDst]
  else goOn gb e 0 (e.copyRows.mapIdx (fun k p =>
    paced gb (e.copyRows.map (fun p => [e.copySrc.part p, e.copyDst.part (e.copyTo p)])) k
      (spadRead gb env p.1 p.2 >>= fun bs => spadPut gb env (e.copyTo p).1 bs)))

theorem exec_copy (hex : s.executes gb 18 e = true) (hclean : e.clean = true) (hopc : opc e.word = 0x21)
    (hpastSrc : e.copySrc.past = false) (hpastDst : e.copyDst.past = false) (hself : tagSelf [e.copySrc, e.copyDst] = false)
    {t : State} (hrun : (copyWork gb env e).run (s.surround gb env) = (.ok (), t)) :
    exec (.copy gb env) s = .next (t.finished gb 18 e) := by
  calc exec (.copy gb env) s = execCopy gb env s := rfl
    _ = _ := runUnit_next hex (by simp [hopc]) (by
      rw [Act.run_bind_ok (frontChecks_run hclean gb env 0x0501 s)]
      refine (Act.run_bind_ok (Act.run_check (by simp [hpastSrc, hpastDst]) 0x0501 0 _)).trans ?_
      exact (Act.run_bind_ok (Act.run_check hself 0x0503 0 _)).trans hrun)

/-- The rows of a COPY lie in its source, their places in its destination, and the places make up the destination. -/
theorem Entry.copyRows_inside {p : Nat × Nat} (hp : p ∈ e.copyRows) :
    (e.copySrc.lo ≤ p.1 ∧ p.1 + p.2 ≤ e.copySrc.lo + e.copySrc.len) ∧
      (e.copyDst.lo ≤ (e.copyTo p).1 ∧ (e.copyTo p).1 + (e.copyTo p).2 ≤ e.copyDst.lo + e.copyDst.len) := by
  have inside := rowPieces_inside (Entry.mem_copyRows.1 hp)
  have same : e.copyDst.len = e.copySrc.len := rfl
  simp only [Entry.copyTo]
  omega

theorem Entry.copyRows_cover {a : Nat} (hlo : e.copyDst.lo ≤ a) (hhi : a < e.copyDst.lo + e.copyDst.len) :
    ∃ p ∈ e.copyRows, (e.copyTo p).1 ≤ a ∧ a < (e.copyTo p).1 + (e.copyTo p).2 := by
  have same : e.copyDst.len = e.copySrc.len := rfl
  obtain ⟨p, hp, hfirst, hlast⟩ := rowPieces_cover (lo := e.copySrc.lo) (len := e.copySrc.len)
    (a := e.copySrc.lo + (a - e.copyDst.lo)) (by omega) (by omega)
  have inside := rowPieces_inside hp
  refine ⟨p, Entry.mem_copyRows.2 hp, ?_⟩
  simp only [Entry.copyTo]
  omega

/-- The work of a COPY whose tags let it start and whose source holds no poison, row by row. -/
theorem copyWork_run (hecc : env.ecc = []) (hex : s.executes gb 18 e = true) (hclean : e.clean = true) (hopc : opc e.word = 0x21)
    (hfreeSrc : s.regionWait gb e.copySrc = none) (hfreeDst : s.regionWait gb e.copyDst = none)
    (hself : tagSelf [e.copySrc, e.copyDst] = false) (hsound : s.sound gb e.copySrc.lo e.copySrc.len = true) :
    ∃ t, (copyWork gb env e).run (s.surround gb env) = (.ok (), t) ∧
      s.SpadDone (t.finished gb 18 e) gb e e.copyDst.lo (s.copyByte gb e) := by
  rw [copyWork]
  split
  next hempty => exact spadEmpty_done hempty (by simp [hfreeSrc, hfreeDst]) _ _
  next hempty =>
    refine spadRows_run hex hclean (by simp [unitOf, hopc]) (by simpa using hempty) (place := e.copyTo)
      (tagSelf_of_parts hself (fun r hr => ?_)) (fun p hp r hr => ?_) (fun before p after hps t ht => copyRow_run hecc hsound hps ht)
      (fun p hp => (Entry.copyRows_inside hp).2) (fun a hlo hhi => Entry.copyRows_cover hlo hhi)
    · obtain ⟨p, hp, hr⟩ := List.mem_flatMap.1 hr
      obtain ⟨hsrc, hdst⟩ := Entry.copyRows_inside hp
      obtain rfl | rfl : r = e.copySrc.part p ∨ r = e.copyDst.part (e.copyTo p) := by simpa using hr
      · exact ⟨e.copySrc, by simp, rfl, rfl, fun _ => Region.slots_part hsrc⟩
      · exact ⟨e.copyDst, by simp, rfl, rfl, fun _ => Region.slots_part hdst⟩
    · obtain ⟨hsrc, hdst⟩ := Entry.copyRows_inside hp
      obtain rfl | rfl : r = e.copySrc.part p ∨ r = e.copyDst.part (e.copyTo p) := by simpa using hr
      · exact State.regionWait_part hsrc hfreeSrc
      · exact State.regionWait_part hdst hfreeDst

end

/-- Settles O16, bank row by bank row. -/
theorem fillAndCopyStoreTheirRegions : Obligations.FillAndCopyStoreTheirRegions := by
  intro s gb env e hecc hex hclean
  refine ⟨fun hopc hlets => ?_, fun hopc hlets hself hsound => ?_⟩
  · obtain ⟨hpast, hfree⟩ := State.lets_iff.1 hlets _ List.mem_cons_self
    obtain ⟨t, hrun, hdone, hsregs, hempty, hfull⟩ := fillWork_run hecc hex hclean hopc hfree
    refine ⟨_, exec_fill hex hclean hopc hpast hrun, hdone, hsregs, hempty, fun h => ?_⟩
    obtain ⟨houtside, hbytes⟩ := hfull h
    refine ⟨houtside, fun k hk => ?_⟩
    rw [hbytes k hk, Entry.fillByte, Nat.add_sub_cancel_left]
  · have lets := State.lets_iff.1 hlets
    obtain ⟨hpastSrc, hfreeSrc⟩ := lets e.copySrc (by simp)
    obtain ⟨hpastDst, hfreeDst⟩ := lets e.copyDst (by simp)
    obtain ⟨t, hrun, hdone, hsregs, hempty, hfull⟩ := copyWork_run hecc hex hclean hopc hfreeSrc hfreeDst hself hsound
    refine ⟨_, exec_copy hex hclean hopc hpastSrc hpastDst hself hrun, hdone, hsregs, hempty, fun h => ?_⟩
    obtain ⟨houtside, hbytes⟩ := hfull h
    refine ⟨houtside, fun k hk => ?_⟩
    rw [hbytes k hk, State.copyByte, Nat.add_sub_cancel_left, Nat.add_assoc]

end Sys2Proof.Machine
